-- ==== Sys2Proof/Word.lean ====
section
/-! DEFINITION. The word types of the machine, lane masks, and the sparse tables in which State keeps its registers,
memories and records. -/
namespace Sys2Proof

/-- A 32-bit register pattern (R11). -/
abbrev Word := BitVec 32
/-- A 64-bit value: a base register, a wide latch, an address (R14, R17). -/
abbrev Dword := BitVec 64
/-- One bit for each of the 32 lanes of a wave (R3). -/
abbrev Mask := BitVec 32

/-- The lane numbers of a mask, ascending (the order of "for l in EN", R8). -/
def lanesOf (m : Mask) : List Nat := (List.range 32).filter fun l => m.getLsbD l

/-- The mask that holds exactly the listed lanes. -/
def maskOf (ls : List Nat) : Mask := ls.foldl (fun m l => m ||| BitVec.ofNat 32 (2 ^ l)) 0#32

/-- The mask of the lanes that satisfy `p`. -/
def maskWhere (p : Nat → Bool) : Mask := maskOf ((List.range 32).filter p)

/-- The lowest lane of a mask, if it holds any (R17). -/
def lowest (m : Mask) : Option Nat := (lanesOf m).head?

/-- How many lanes a mask holds. -/
def laneCount (m : Mask) : Nat := (lanesOf m).length

/-- Inserts a number before the first one not less. -/
def insNat (n : Nat) : List Nat → List Nat
  | [] => [n]
  | k :: t => if n ≤ k then n :: k :: t else k :: insNat n t
/-- A list of numbers in ascending order. -/
def sortNat (l : List Nat) : List Nat := l.foldr insNat []

/-- A sparse table: key and value pairs, keys ascending, no key twice. A key that is not listed has a default value. -/
abbrev Map (α : Type) := List (Nat × α)

namespace Map

variable {α : Type}

/-- The value at key `i`; `d` where nothing is listed. -/
def get (d : α) : Map α → Nat → α
  | [], _ => d
  | (k, v) :: t, i => if k = i then v else get d t i

/-- The value at key `i`, if one is listed. -/
def find? : Map α → Nat → Option α
  | [], _ => none
  | (k, v) :: t, i => if k = i then some v else find? t i

/-- The table without key `i`. -/
def erase (m : Map α) (i : Nat) : Map α := m.filter fun p => p.1 != i

/-- Inserts a pair before the first greater key. -/
def ins (i : Nat) (v : α) : Map α → Map α
  | [] => [(i, v)]
  | (k, x) :: t => if i < k then (i, v) :: (k, x) :: t else (k, x) :: ins i v t

/-- The table with `v` listed at key `i`. -/
def put (m : Map α) (i : Nat) (v : α) : Map α := ins i v (erase m i)

/-- The table with value `v` at key `i`, where a key holding the default `d` is not listed. -/
def set [DecidableEq α] (d : α) (m : Map α) (i : Nat) (v : α) : Map α :=
  if v = d then erase m i else put m i v

/-- Canonical form: keys strictly rising, and no listed value is the default `d`. -/
def wf [DecidableEq α] (d : α) (m : Map α) : Bool :=
  decide (m.Pairwise fun a b => a.1 < b.1) && m.all fun p => decide (p.2 ≠ d)

end Map
end Sys2Proof
end

