-- ==== Sys2Proof/Syntax.lean ====
section
/-! DEFINITION. Abstract syntax: guards, sources and destinations of moves (02_bundle_encoding.md), and the one inductive
`Instr`, a constructor for every row of the operation and event table: 209 kinds of move and 110 events. The
operands of an event, the numbers of the things it happens to, stand in State while it is carried out:
they are no part of its name. -/
namespace Sys2Proof

/-- The function units, units 3 to 22 of R48. -/
inductive FuncUnit | ia | ib | ma | mb | sa | sb | ck | fa | fb | xf | cv | cx | ls | sp | xl | qu | en | mx | ct | sy
deriving DecidableEq, Repr

/-- Which of two twin units (R48). -/
inductive Twin | a | b
deriving DecidableEq, Repr

/-- A unit's latches (R14). -/
inductive LatchNo | o1 | o2 | o3
deriving DecidableEq, Repr

/-- A unit's result ports (R14). -/
inductive PortNo | res | hi | st
deriving DecidableEq, Repr

/-- The guard of a move: enabled where guard register `g` reads 1, or 0 when `neg` (R47). -/
structure Guard where
  neg : Bool
  g : Fin 8
deriving DecidableEq, Repr

/-- The sources of R51 and R53. -/
inductive Src
  | main (i : Fin 192)
  | opnd (i : Fin 8)
  | guard (i : Fin 8)
  | base (i : Fin 16)
  | baseHi (i : Fin 16)
  | pair (i : Fin 96)
  | head (q : Fin 4) (f : Fin 8)
  | index (i : Fin 6)
  | lane
  | wave
  | team
  | port (u : FuncUnit) (p : PortNo)
  | imm (v : Fin 8192)
  | long (i : Fin 2)
deriving DecidableEq, Repr

/-- The lane-file destinations of R49. -/
inductive LfDest
  | opnd (i : Fin 8)
  | guard (i : Fin 8)
  | base (i : Fin 16)
  | baseLo (i : Fin 16)
  | baseHi (i : Fin 16)
  | guardBits (i : Fin 8)
deriving DecidableEq, Repr

/-- Operations and events. -/
inductive Instr
  /-- R48: A move writes its source value to main-file register m0–m127 in each enabled lane. -/
  | moveM0 (gd : Guard) (r : Fin 128) (src : Src)
  /-- R48: A move writes its source value to main-file register m128–m191 in each enabled lane. -/
  | moveM1 (gd : Guard) (r : Fin 64) (src : Src)
  /-- R50: A move writes an operand register, guard, guard mask or base register of the lane file. -/
  | moveLf (gd : Guard) (d : LfDest) (src : Src)
  /-- R48: A move writes latch o1, o2 or o3 of a function unit in each enabled lane. -/
  | latchWrite (gd : Guard) (u : FuncUnit) (k : LatchNo) (src : Src)
  /-- R110: Integer addition modulo 2^32 with flags in hi. -/
  | iaAdd (gd : Guard) (t : Twin) (src : Src)
  /-- R110: Integer subtraction modulo 2^32 with flags in hi. -/
  | iaSub (gd : Guard) (t : Twin) (src : Src)
  /-- R110: Bitwise AND. -/
  | iaAnd (gd : Guard) (t : Twin) (src : Src)
  /-- R110: Bitwise OR. -/
  | iaOr (gd : Guard) (t : Twin) (src : Src)
  /-- R110: Bitwise exclusive OR. -/
  | iaXor (gd : Guard) (t : Twin) (src : Src)
  /-- R110: a AND NOT b. -/
  | iaAndn (gd : Guard) (t : Twin) (src : Src)
  /-- R110: a OR NOT b. -/
  | iaOrn (gd : Guard) (t : Twin) (src : Src)
  /-- R110: Signed minimum. -/
  | iaMinS (gd : Guard) (t : Twin) (src : Src)
  /-- R110: Signed maximum. -/
  | iaMaxS (gd : Guard) (t : Twin) (src : Src)
  /-- R110: Unsigned minimum. -/
  | iaMinU (gd : Guard) (t : Twin) (src : Src)
  /-- R110: Unsigned maximum. -/
  | iaMaxU (gd : Guard) (t : Twin) (src : Src)
  /-- R110: 1 if a equals b, else 0. -/
  | iaEq (gd : Guard) (t : Twin) (src : Src)
  /-- R110: 1 if a differs from b, else 0. -/
  | iaNe (gd : Guard) (t : Twin) (src : Src)
  /-- R110: Signed less-than comparison. -/
  | iaLtS (gd : Guard) (t : Twin) (src : Src)
  /-- R110: Signed less-or-equal comparison. -/
  | iaLeS (gd : Guard) (t : Twin) (src : Src)
  /-- R110: Unsigned less-than comparison. -/
  | iaLtU (gd : Guard) (t : Twin) (src : Src)
  /-- R110: Unsigned less-or-equal comparison. -/
  | iaLeU (gd : Guard) (t : Twin) (src : Src)
  /-- R110: Selects a if c is non-zero, else b. -/
  | iaSel (gd : Guard) (t : Twin) (src : Src)
  /-- R110: Sign-extends the low byte. -/
  | iaSextB (gd : Guard) (t : Twin) (src : Src)
  /-- R110: Sign-extends the low half-word. -/
  | iaSextH (gd : Guard) (t : Twin) (src : Src)
  /-- R110: Zero-extends the low byte. -/
  | iaZextB (gd : Guard) (t : Twin) (src : Src)
  /-- R110: Zero-extends the low half-word. -/
  | iaZextH (gd : Guard) (t : Twin) (src : Src)
  /-- R110: Absolute value of the signed operand. -/
  | iaAbs (gd : Guard) (t : Twin) (src : Src)
  /-- R110: Two's-complement negation. -/
  | iaNeg (gd : Guard) (t : Twin) (src : Src)
  /-- R110: Saturating signed addition. -/
  | iaAddsS (gd : Guard) (t : Twin) (src : Src)
  /-- R110: Saturating signed subtraction. -/
  | iaSubsS (gd : Guard) (t : Twin) (src : Src)
  /-- R110: Addition with carry-in from c[0] and carry-out in hi. -/
  | iaAddCo (gd : Guard) (t : Twin) (src : Src)
  /-- R110: Subtraction with borrow-in from c[0] and borrow-out in hi. -/
  | iaSubBo (gd : Guard) (t : Twin) (src : Src)
  /-- R110: Copies its operand to res. -/
  | iaMov (gd : Guard) (t : Twin) (src : Src)
  /-- R112: Low 32 bits of the product, high word in hi. -/
  | maMulLo (gd : Guard) (t : Twin) (src : Src)
  /-- R112: High 32 bits of the signed product. -/
  | maMulHiS (gd : Guard) (t : Twin) (src : Src)
  /-- R112: High 32 bits of the unsigned product. -/
  | maMulHiU (gd : Guard) (t : Twin) (src : Src)
  /-- R112: Low 32 bits of a x b + c. -/
  | maMadLo (gd : Guard) (t : Twin) (src : Src)
  /-- R112: Full 64-bit signed a x b + c in res and hi. -/
  | maMadWideS (gd : Guard) (t : Twin) (src : Src)
  /-- R112: Full 64-bit unsigned a x b + c in res and hi. -/
  | maMadWideU (gd : Guard) (t : Twin) (src : Src)
  /-- R112: Unsigned quotient with remainder in hi; a zero divisor raises ARITH. -/
  | maDivU (gd : Guard) (t : Twin) (src : Src)
  /-- R112: Signed truncating quotient with remainder in hi; a zero divisor raises ARITH. -/
  | maDivS (gd : Guard) (t : Twin) (src : Src)
  /-- R112: Unsigned remainder with quotient in hi; a zero divisor raises ARITH. -/
  | maRemU (gd : Guard) (t : Twin) (src : Src)
  /-- R112: Signed remainder with quotient in hi; a zero divisor raises ARITH. -/
  | maRemS (gd : Guard) (t : Twin) (src : Src)
  /-- R119: Logical shift left. -/
  | saShl (gd : Guard) (t : Twin) (src : Src)
  /-- R119: Logical shift right. -/
  | saShr (gd : Guard) (t : Twin) (src : Src)
  /-- R119: Arithmetic shift right. -/
  | saSar (gd : Guard) (t : Twin) (src : Src)
  /-- R119: Rotate left by the amount modulo 32. -/
  | saRotl (gd : Guard) (t : Twin) (src : Src)
  /-- R119: Rotate right by the amount modulo 32. -/
  | saRotr (gd : Guard) (t : Twin) (src : Src)
  /-- R120: Extracts an unsigned bit field. -/
  | saBextU (gd : Guard) (t : Twin) (src : Src)
  /-- R120: Extracts a sign-extended bit field. -/
  | saBextS (gd : Guard) (t : Twin) (src : Src)
  /-- R120: Inserts bits into a field of the base. -/
  | saBins (gd : Guard) (t : Twin) (src : Src)
  /-- R120: Counts the 1 bits. -/
  | saPopc (gd : Guard) (t : Twin) (src : Src)
  /-- R120: Counts leading zeros. -/
  | saClz (gd : Guard) (t : Twin) (src : Src)
  /-- R120: Counts trailing zeros. -/
  | saCtz (gd : Guard) (t : Twin) (src : Src)
  /-- R120: Reverses the bit order. -/
  | saBrev (gd : Guard) (t : Twin) (src : Src)
  /-- R120: Permutes bytes of two words under a nibble selector with sign fill. -/
  | saPerm (gd : Guard) (t : Twin) (src : Src)
  /-- R120: Funnel shift right of a 64-bit pair. -/
  | saFsh (gd : Guard) (t : Twin) (src : Src)
  /-- R122: Raises CHECK_MISMATCH at its slot for lanes where a differs from b. -/
  | ckEq (gd : Guard) (src : Src)
  /-- R122: Raises CHECK_MISMATCH for lanes whose value lies outside the bounds. -/
  | ckRng (gd : Guard) (src : Src)
  /-- R123: Records a deferred mismatch in PEND for later delivery. -/
  | ckMark (gd : Guard) (src : Src)
  /-- R134: FP32 addition rounded under WSTAT.RM. -/
  | faAdd (gd : Guard) (t : Twin) (src : Src)
  /-- R134: FP32 subtraction. -/
  | faSub (gd : Guard) (t : Twin) (src : Src)
  /-- R134: FP32 multiplication. -/
  | faMul (gd : Guard) (t : Twin) (src : Src)
  /-- R134: Fused a x b + c with one rounding. -/
  | faFma (gd : Guard) (t : Twin) (src : Src)
  /-- R134: Fused a x b − c. -/
  | faFms (gd : Guard) (t : Twin) (src : Src)
  /-- R134: Fused −(a x b) − c. -/
  | faFnma (gd : Guard) (t : Twin) (src : Src)
  /-- R134: Fused −(a x b) + c. -/
  | faFnms (gd : Guard) (t : Twin) (src : Src)
  /-- R135: IEEE minimum with NaN propagation. -/
  | faMin (gd : Guard) (t : Twin) (src : Src)
  /-- R135: IEEE maximum with NaN propagation. -/
  | faMax (gd : Guard) (t : Twin) (src : Src)
  /-- R135: minimumNumber: a single NaN input yields the other operand. -/
  | faMinn (gd : Guard) (t : Twin) (src : Src)
  /-- R135: maximumNumber: a single NaN input yields the other operand. -/
  | faMaxn (gd : Guard) (t : Twin) (src : Src)
  /-- R136: FP32 equality comparison to 1 or 0. -/
  | faEq (gd : Guard) (t : Twin) (src : Src)
  /-- R136: FP32 less-than comparison. -/
  | faLt (gd : Guard) (t : Twin) (src : Src)
  /-- R136: FP32 less-or-equal comparison. -/
  | faLe (gd : Guard) (t : Twin) (src : Src)
  /-- R136: 1 when either operand is NaN. -/
  | faUn (gd : Guard) (t : Twin) (src : Src)
  /-- R134: Clears the sign bit. -/
  | faAbs (gd : Guard) (t : Twin) (src : Src)
  /-- R134: Inverts the sign bit. -/
  | faNeg (gd : Guard) (t : Twin) (src : Src)
  /-- R134: Takes a's magnitude with b's sign. -/
  | faCsgn (gd : Guard) (t : Twin) (src : Src)
  /-- R137: Rounds to an integral FP32 value under WSTAT.RM. -/
  | faRint (gd : Guard) (t : Twin) (src : Src)
  /-- R137: Fractional part a − trunc(a). -/
  | faFrac (gd : Guard) (t : Twin) (src : Src)
  /-- R138: Correctly rounded reciprocal. -/
  | xfRcp (gd : Guard) (src : Src)
  /-- R138: Correctly rounded reciprocal square root. -/
  | xfRsqrt (gd : Guard) (src : Src)
  /-- R138: Correctly rounded square root. -/
  | xfSqrt (gd : Guard) (src : Src)
  /-- R138: Correctly rounded division. -/
  | xfDiv (gd : Guard) (src : Src)
  /-- R138: Correctly rounded 2^a. -/
  | xfExp2 (gd : Guard) (src : Src)
  /-- R138: Correctly rounded log2 a. -/
  | xfLog2 (gd : Guard) (src : Src)
  /-- R138: Correctly rounded sin(πa). -/
  | xfSinpi (gd : Guard) (src : Src)
  /-- R138: Correctly rounded cos(πa). -/
  | xfCospi (gd : Guard) (src : Src)
  /-- R138: Correctly rounded tanh a. -/
  | xfTanh (gd : Guard) (src : Src)
  /-- R138: Correctly rounded logistic sigmoid. -/
  | xfSigm (gd : Guard) (src : Src)
  /-- R141: Widens two packed elements of slot format AFMT to FP32. -/
  | cvUp (gd : Guard) (s : Fin 8) (src : Src)
  /-- R142: Narrows two FP32 values to OFMT and shifts them into a packed word. -/
  | cvDn (gd : Guard) (s : Fin 8) (src : Src)
  /-- R143: Packed dot product accumulated exactly and rounded once, or in INT32. -/
  | cvDot (gd : Guard) (s : Fin 8) (src : Src)
  /-- R144: Multiplies or divides an FP32 value by two E8M0 block scales with one rounding. -/
  | cvSc (gd : Guard) (s : Fin 8) (src : Src)
  /-- R146: Converts two FP32 values to packed BF16 with RNE. -/
  | cxF2bf (gd : Guard) (src : Src)
  /-- R146: Converts two FP32 values to packed BF16 with RTZ. -/
  | cxF2bfZ (gd : Guard) (src : Src)
  /-- R146: Converts two FP32 values to packed FP16 with RNE. -/
  | cxF2h (gd : Guard) (src : Src)
  /-- R146: Converts two FP32 values to packed FP16 with RTZ. -/
  | cxF2hZ (gd : Guard) (src : Src)
  /-- R146: Widens two packed BF16 values to FP32. -/
  | cxBf2f (gd : Guard) (src : Src)
  /-- R146: Widens two packed FP16 values to FP32. -/
  | cxH2f (gd : Guard) (src : Src)
  /-- R147: FP32 to signed 32-bit integer with RNE and saturation. -/
  | cxF2i (gd : Guard) (src : Src)
  /-- R147: FP32 to signed 32-bit integer with RTZ and saturation. -/
  | cxF2iZ (gd : Guard) (src : Src)
  /-- R147: FP32 to unsigned 32-bit integer with RNE and saturation. -/
  | cxF2ui (gd : Guard) (src : Src)
  /-- R147: FP32 to unsigned 32-bit integer with RTZ and saturation. -/
  | cxF2uiZ (gd : Guard) (src : Src)
  /-- R146: Signed integer to FP32 with RNE. -/
  | cxI2f (gd : Guard) (src : Src)
  /-- R146: Unsigned integer to FP32 with RNE. -/
  | cxUi2f (gd : Guard) (src : Src)
  /-- R146: Saturates two signed values to 16 bits and packs them. -/
  | cxPack (gd : Guard) (src : Src)
  /-- R146: Sign-extends the two 16-bit halves into res and hi. -/
  | cxUnpack (gd : Guard) (src : Src)
  /-- R156: Loads a zero-extended byte into an ls FIFO entry. -/
  | lsLdB (gd : Guard) (src : Src)
  /-- R156: Loads a sign-extended byte. -/
  | lsLdBs (gd : Guard) (src : Src)
  /-- R156: Loads a zero-extended half-word. -/
  | lsLdH (gd : Guard) (src : Src)
  /-- R156: Loads a sign-extended half-word. -/
  | lsLdHs (gd : Guard) (src : Src)
  /-- R156: Loads a 32-bit word. -/
  | lsLdW (gd : Guard) (src : Src)
  /-- R157: Stores a byte per enabled lane. -/
  | lsStB (gd : Guard) (src : Src)
  /-- R157: Stores a half-word per enabled lane. -/
  | lsStH (gd : Guard) (src : Src)
  /-- R157: Stores a word per enabled lane. -/
  | lsStW (gd : Guard) (src : Src)
  /-- R158: Atomic add returning the old word. -/
  | lsAtAdd (gd : Guard) (src : Src)
  /-- R158: Atomic AND returning the old word. -/
  | lsAtAnd (gd : Guard) (src : Src)
  /-- R158: Atomic OR returning the old word. -/
  | lsAtOr (gd : Guard) (src : Src)
  /-- R158: Atomic XOR returning the old word. -/
  | lsAtXor (gd : Guard) (src : Src)
  /-- R158: Atomic signed minimum. -/
  | lsAtMinS (gd : Guard) (src : Src)
  /-- R158: Atomic signed maximum. -/
  | lsAtMaxS (gd : Guard) (src : Src)
  /-- R158: Atomic unsigned minimum. -/
  | lsAtMinU (gd : Guard) (src : Src)
  /-- R158: Atomic unsigned maximum. -/
  | lsAtMaxU (gd : Guard) (src : Src)
  /-- R158: Atomic exchange. -/
  | lsAtXchg (gd : Guard) (src : Src)
  /-- R158: Atomic compare-and-swap setting SWP. -/
  | lsAtCas (gd : Guard) (src : Src)
  /-- R159: Atomic FP32 add rounded with RNE. -/
  | lsAtFadd (gd : Guard) (src : Src)
  /-- R161: Prefetches a line toward the core, dropped silently if it would fault. -/
  | lsPf (gd : Guard) (src : Src)
  /-- R162: Writes a dirty line back to the drawer, keeping it valid. -/
  | lsCwb (gd : Guard) (src : Src)
  /-- R162: Writes a dirty line back and drops every copy. -/
  | lsCinvWb (gd : Guard) (src : Src)
  /-- R162: Drops every copy without write-back, reverting the line to its drawer value. -/
  | lsCinvDis (gd : Guard) (src : Src)
  /-- R166: Starts a fence that completes when older writes of the wave have performed. -/
  | lsFence (gd : Guard) (src : Src)
  /-- R164: Writes the wave's ls policy word. -/
  | lsPol (gd : Guard) (src : Src)
  /-- R169: Loads a zero-extended scratchpad byte. -/
  | spLdB (gd : Guard) (src : Src)
  /-- R169: Loads a zero-extended scratchpad half-word. -/
  | spLdH (gd : Guard) (src : Src)
  /-- R169: Loads a scratchpad word. -/
  | spLdW (gd : Guard) (src : Src)
  /-- R169: Stores a scratchpad byte. -/
  | spStB (gd : Guard) (src : Src)
  /-- R169: Stores a scratchpad half-word. -/
  | spStH (gd : Guard) (src : Src)
  /-- R169: Stores a scratchpad word. -/
  | spStW (gd : Guard) (src : Src)
  /-- R169: Scratchpad atomic add. -/
  | spAtAdd (gd : Guard) (src : Src)
  /-- R169: Scratchpad atomic compare-and-swap. -/
  | spAtCas (gd : Guard) (src : Src)
  /-- R169: Scratchpad atomic exchange. -/
  | spAtXchg (gd : Guard) (src : Src)
  /-- R198: Reads o1 of a fixed lane of the segment. -/
  | xlTakeIx (gd : Guard) (src : Src)
  /-- R198: Reads o1 of a lane rotated within the segment. -/
  | xlTakeRot (gd : Guard) (src : Src)
  /-- R198: Reads o1 of a lane shifted within the segment without wrapping. -/
  | xlTakeSh (gd : Guard) (src : Src)
  /-- R198: Reads o1 of a mirrored lane within the segment. -/
  | xlTakeMir (gd : Guard) (src : Src)
  /-- R197: Delivers the lowest enabled lane's value to every enabled lane. -/
  | xlSpread (gd : Guard) (src : Src)
  /-- R199: Integer sum over enabled lanes. -/
  | xlSum (gd : Guard) (src : Src)
  /-- R199: Signed minimum over enabled lanes. -/
  | xlMinS (gd : Guard) (src : Src)
  /-- R199: Signed maximum over enabled lanes. -/
  | xlMaxS (gd : Guard) (src : Src)
  /-- R199: AND over enabled lanes. -/
  | xlAnd (gd : Guard) (src : Src)
  /-- R199: OR over enabled lanes. -/
  | xlOr (gd : Guard) (src : Src)
  /-- R200: Exact FP32 sum over enabled lanes rounded once. -/
  | xlFsum (gd : Guard) (src : Src)
  /-- R199: 1 if every enabled lane's value is non-zero. -/
  | xlEvery (gd : Guard) (src : Src)
  /-- R199: 1 if some enabled lane's value is non-zero. -/
  | xlSome (gd : Guard) (src : Src)
  /-- R199: Lane mask of enabled lanes with non-zero values. -/
  | xlMask (gd : Guard) (src : Src)
  /-- R201: Inclusive integer prefix sum over enabled lanes. -/
  | xlPreAdd (gd : Guard) (src : Src)
  /-- R201: Inclusive FP32 prefix sum, each rounded once. -/
  | xlPreFadd (gd : Guard) (src : Src)
  /-- R211: Enqueues stored forms from the scratchpad to a queue. -/
  | quEnq (gd : Guard) (src : Src)
  /-- R212: Reserves ring entries for later publication. -/
  | quClaim (gd : Guard) (src : Src)
  /-- R213: Publishes claimed entries, advancing TAIL in index order. -/
  | quPub (gd : Guard) (src : Src)
  /-- R217: Binds a queue to a head latch in uniform mode. -/
  | quBindU (gd : Guard) (src : Src)
  /-- R217: Binds a queue to a head latch in spread mode. -/
  | quBindS (gd : Guard) (src : Src)
  /-- R217: Unbinds a head latch, leaving unpopped entries in the queue. -/
  | quUnbind (gd : Guard) (src : Src)
  /-- R214: Returns the number of visible entries. -/
  | quAvail (gd : Guard) (src : Src)
  /-- R215: Creates a queue from its descriptor and returns the handle's low word. -/
  | quCreate (gd : Guard) (src : Src)
  /-- R215: Destroys a queue and advances its generation. -/
  | quDestroy (gd : Guard) (src : Src)
  /-- R220: Samples the device time base into res and st. -/
  | quTsnow (gd : Guard) (src : Src)
  /-- R224: Submits a linear copy command. -/
  | enCp (gd : Guard) (src : Src)
  /-- R224: Submits a two-dimensional copy command. -/
  | enCp2d (gd : Guard) (src : Src)
  /-- R227: Submits a copy of B blocks into the clover's B-store. -/
  | enCpb (gd : Guard) (src : Src)
  /-- R225: Submits a copy of quantised tiles with optional trailer checks. -/
  | enCpt (gd : Guard) (src : Src)
  /-- R224: Submits an indexed gather command. -/
  | enGa (gd : Guard) (src : Src)
  /-- R224: Submits an indexed scatter command. -/
  | enSc (gd : Guard) (src : Src)
  /-- R224: Submits a pattern fill command. -/
  | enFill (gd : Guard) (src : Src)
  /-- R228: Returns the completion code and detail of a tagged command. -/
  | enStatus (gd : Guard) (src : Src)
  /-- R243: Dense matrix multiply-accumulate into an accumulator for the masked rows. -/
  | mxMma (gd : Guard) (s : Fin 8) (src : Src)
  /-- R245: Sparse matrix multiply-accumulate from sparse B sub-blocks. -/
  | mxMms (gd : Guard) (s : Fin 8) (src : Src)
  /-- R252: Streams an accumulator through the fused epilogue to memory. -/
  | mxEpi (gd : Guard) (s : Fin 8) (src : Src)
  /-- R234: Posts a baton request with a priority. -/
  | mxReq (gd : Guard) (src : Src)
  /-- R236: Releases the baton once no accumulator is LIVE. -/
  | mxRel (gd : Guard) (src : Src)
  /-- R249: Retires an accumulator's rows into main-file registers. -/
  | mxRet (gd : Guard) (src : Src)
  /-- R250: Sets an accumulator to +0 and clears its LIVE and ABFT state. -/
  | mxZero (gd : Guard) (src : Src)
  /-- R255: Turns ABFT checking of an accumulator on or off. -/
  | mxAbft (gd : Guard) (src : Src)
  /-- R177: Per-lane jump to a relative target. -/
  | ctJmp (gd : Guard) (src : Src)
  /-- R177: Uniform relative branch for the enabled lanes. -/
  | ctBr (gd : Guard) (src : Src)
  /-- R177: Branches and returns the relative return address in res. -/
  | ctCall (gd : Guard) (src : Src)
  /-- R180: Opens a hardware loop or skips its body when COUNT is 0. -/
  | ctLoop (gd : Guard) (src : Src)
  /-- R182: Leaves n loop levels for the enabled lanes. -/
  | ctLbrk (gd : Guard) (src : Src)
  /-- R186: Sends one thread record per enabled lane to the die's spawn bins. -/
  | ctSpawn (gd : Guard) (src : Src)
  /-- R187: Submits a launch record to the partition's launch queue. -/
  | ctLaunch (gd : Guard) (src : Src)
  /-- R185: Makes the enabled lanes vacant at bundle end. -/
  | ctExit (gd : Guard) (src : Src)
  /-- R189: Arrives at a barrier and holds the fragment until it completes. -/
  | ctBarMeet (gd : Guard) (src : Src)
  /-- R189: Arrives at a barrier without waiting. -/
  | ctBarSign (gd : Guard) (src : Src)
  /-- R189: Holds the fragment until its arrived lanes' barrier completes. -/
  | ctBarHold (gd : Guard) (src : Src)
  /-- R193: Holds the fragment until the completion counters meet their limits. -/
  | ctWait (gd : Guard) (src : Src)
  /-- R194: Stops the wave at a cooperative swap point when a pre-emption request is pending. -/
  | ctYield (gd : Guard) (src : Src)
  /-- R195: Raises SOFTWARE with the given code after its slot commits. -/
  | ctTrap (gd : Guard) (src : Src)
  /-- R184: Makes every non-vacant lane of the wave expected at a join token. -/
  | ctRcvw (gd : Guard) (src : Src)
  /-- R263: Reads a special register into res and st. -/
  | syRdsr (gd : Guard) (src : Src)
  /-- R263: Writes the writable fields of a special register. -/
  | syWrsr (gd : Guard) (src : Src)
  /-- R267: Invalidates a page or all translations of the partition everywhere. -/
  | syTlbinv (gd : Guard) (src : Src)
  /-- R269: Stores a PTE into the page table and invalidates the page. -/
  | syPmap (gd : Guard) (src : Src)
  /-- R270: Returns from the supervisor handler and re-enters the trapped bundle. -/
  | sySret (gd : Guard) (src : Src)
  /-- R271: Sends a 32-byte message from the scratchpad to the clover manager's mailbox. -/
  | syMbox (gd : Guard) (src : Src)
  /-- R272: Writes a register of a memory or peer link and returns its previous value. -/
  | syLnk (gd : Guard) (src : Src)
  /-- R273: Sends a die-control command to a die and returns its state. -/
  | syDctl (gd : Guard) (src : Src)
  /-- R275: Injects an error into a chosen target. -/
  | syInj (gd : Guard) (src : Src)
  /-- R274: Writes a partition register kept by die 0 and returns its previous value. -/
  | syPart (gd : Guard) (src : Src)
  /-- R56: A fragment's fetched bundle passes its issue test and takes effect in the fixed phases: reconvergence test, sources, destination writes, triggers, pops and control. Operands: w, q. -/
  | bundleIssue
  /-- R46: A bundle is fetched through the instruction cache with execute permission; a miss completes after the line's path latency, and a fetch fault traps with TSLOT 7. Operands: w, q. -/
  | bundleFetch
  /-- R358: A pending asynchronous trap is taken at the wave's next bundle boundary, after that bundle's sources are captured, with TSLOT 0. Operands: w, q. -/
  | bundleDeliveredTrap
  /-- R32: When a sequencer becomes free it is filled with the longest-waiting spilled active fragment, moving a 160-byte record in 16 cycles. Operands: w. -/
  | sequencerFill
  /-- R32: A spilled active fragment that has waited 1,024 cycles replaces the resident active fragment filled longest ago. Operands: w. -/
  | spillTimeout
  /-- R108: A lane-unit operation completes at c + L and writes its result ports and sets their ready bits in the enabled lanes. Operands: w, k. -/
  | resultReady
  /-- R155: A load's lanes take their values at the holder and the ls or sp FIFO entry fills when the last lane's value arrives, lowering LDC. Operands: w, k, part. -/
  | loadBind
  /-- R282: A store is written at its line's holder after other copies are invalidated and leases expire, lowering STC. Operands: w, k. -/
  | storePerformed
  /-- R158: An atomic reads and replaces its word at the line's holder in one indivisible step and fills its FIFO entry with the old value. Operands: w, k, part. -/
  | atomicPerformed
  /-- R162: A cwb, cinv.wb or cinv.dis is performed once the holder has taken the copy or every copy has been dropped. Operands: w, k. -/
  | lineOperationPerformed
  /-- R166: A fence completes and writes ls.st when every older store, atomic and line operation of the wave has performed, or at scope 3 been accepted. Operands: w, k. -/
  | fenceComplete
  /-- R324: A die-TLB miss finishes its page walk, filling the TLBs or raising PAGE_FAULT, PAGE_POOL or PROTECTION. Operands: w, q. -/
  | walkComplete
  /-- R288: In the first cycle that older accesses have performed, window loads have bound and store-buffer entries are ready, the window commits and releases its held stores. Operands: w. -/
  | windowCommit
  /-- R291: A conflict, full watch table, trap or swap reaching an open window restores the checkpoint and discards the window's loads and held stores. Operands: w, cause. -/
  | rollback
  /-- R291: After 10 + n cycles the rolled-back wave may issue its checkpoint bundle again. Operands: w. -/
  | rollbackEnd
  /-- R297: After 4,096 resident cycles with no rollback, ESC falls to 0 and RBCNT clears. Operands: w, stamp. -/
  | escDecay
  /-- R293: After 256 bundles following a trap-forced rollback, or at the next trap entry, the wave may open windows again. Operands: w. -/
  | noWindowPeriodEnd
  /-- R308: An SI lease expires 512 cycles after its grant, invalidating the L1 copy and letting a waiting write proceed. Operands: line. -/
  | leaseExpiry
  /-- R289: A write that meets a watch entry is told to the watching wave 180 x h cycles later and is performed then, as a conflict. Operands: w, line. -/
  | watchNotice
  /-- R280: A host CXL.mem access arrives and is performed at the line's holder, one place in the total order per line. Operands: id. -/
  | hostAccess
  /-- R332: The host's coherence grants a host-bias line to the device, letting a fetch or held store proceed. Operands: line, excl. -/
  | hostGrant
  /-- R332: The host's coherence takes a host-bias line away from the device, a conflict for any window that read it. Operands: line. -/
  | hostRecall
  /-- R386: A drawer request reaches its home die's link and joins the queue of its bank group, or waits when the queue is full. Operands: id. -/
  | drawerRequest
  /-- R387: An owned outbound swath begins and carries the oldest matching read and write of its partition, tier and bank group. Operands: link. -/
  | outboundSwath
  /-- R385: An inbound swath delivers the read response and write acknowledgement for the outbound swath sent D swaths earlier. Operands: link, swath. -/
  | inboundSwath
  /-- R384: At a frame boundary a committed swath table goes live and pending width changes take effect. Operands: link. -/
  | frameBoundary
  /-- R399: A wavelength's 2^24-beat window ends, its count moves to FECPRV and a new window starts. Operands: link, wl. -/
  | fecWindowEnd
  /-- R400: A wavelength whose corrected count reaches BERTHR drops the link to width 7 and retrains in the background, or the crossing is recorded. Operands: link, wl. -/
  | retrainStart
  /-- R401: 90,000 cycles after retraining begins, the wavelength is handed back at a cycle-opening flit boundary and the width returns to 8. Operands: link. -/
  | handBack
  /-- R402: Lost lock, 16 uncorrectable codewords or a failed retrain takes the link DOWN for a 60,000-cycle full retrain. Operands: link. -/
  | channelFailure
  /-- R402: A full retrain ends and the link runs at width 8, resending its unanswered requests. Operands: link. -/
  | fullRetrainEnd
  /-- R394: A parked link whose queued requests reach WAKEQ begins its wake to width 8 in the next cycle and clears PWIDTH. Operands: link. -/
  | autoWake
  /-- R393: A wake ends after 4,608 cycles and width 8 takes effect at the next frame boundary. Operands: link. -/
  | wakeEnd
  /-- R403: When a wave's oldest access has waited on a DOWN link longer than LNKSTALL, LINK_STALL is made pending for delivery. Operands: w, k. -/
  | linkStall
  /-- R404: A packet arrives on a peer link carrying an engine transfer or a remote enqueue and travels the ring to its home. Operands: id. -/
  | peerPacket
  /-- R405: A peer package that does not answer within 2^20 cycles ends the command with FAULT 0x21 or returns OFFLINE to the enqueue. Operands: id. -/
  | peerTimeout
  /-- R220: A queue operation reaches its home die's controller, is tested and carried out there, taking its place in the total order. Operands: id. -/
  | queueControllerOp
  /-- R220: A queue controller's answer reaches the issuer and writes qu.res and qu.st. Operands: id. -/
  | queueAnswer
  /-- R218: Records made visible or brought within reach by a publish or pop arrive in a bound head latch. Operands: w, latch. -/
  | latchRefill
  /-- R230: A copy or gather engine issues and completes a line read or write of a running command. Operands: id. -/
  | engineLineTransfer
  /-- R226: An engine command or epilogue whose writes are performed reaches its release point, lowers CPC or TLC and enqueues its completion record. Operands: id. -/
  | releasePoint
  /-- R235: Four cycles after the baton becomes free or a request is posted, the arbiter grants it to the highest-priority earliest request. Operands: clover. -/
  | batonGrant
  /-- R235: A baton request that has waited 65,536 cycles at its priority is promoted one level. Operands: clover, w. -/
  | agingPromotion
  /-- R236: Once earlier matrix ops have read their accumulators, mx.rel takes effect: accumulators become +0 and the baton becomes free. Operands: clover. -/
  | batonRelease
  /-- R237: A pass longer than MAXPASS stops the holder, revokes the baton, zeroes the accumulators and messages the clover manager. Operands: clover, stamp. -/
  | watchdog
  /-- R248: An mma or mms updates its accumulator rows 16 cycles after its trigger and lowers TLC. Operands: clover, id. -/
  | mmaComplete
  /-- R249: An mx.ret writes the accumulator rows into main-file registers and completes at s + 20, lowering TLC. Operands: clover, id. -/
  | retComplete
  /-- R254: At s + 8 + 2k an epilogue checks chunk k under ABFT and, if it passes, issues its stores. Operands: clover, id, chunk. -/
  | epiChunk
  /-- R192: A barrier timer reaching 2^BARTO stops the team, writes a diagnostic and messages the clover manager. Operands: team, bar, stamp. -/
  | barrierTimeout
  /-- R364: A device-generated message takes a free mailbox slot of the clover manager, waiting in order while none is free. Operands: clover. -/
  | mailboxPost
  /-- R364: The manager firmware acknowledges a message by writing its slot number, freeing the slot. Operands: clover, slot. -/
  | cmack
  /-- R365: CMACT RESUME restarts a team stopped by BARRIER_TIMEOUT or a wave stopped by WATCHDOG or TRAPFAIL. Operands: clover, core, slot. -/
  | resume
  /-- R365: CMACT KILLWAVE kills the named stopped wave. Operands: clover, core, slot. -/
  | killwave
  /-- R365: CMACT KILLTEAM kills every wave of the named wave's team. Operands: clover, core, slot. -/
  | killteam
  /-- R338: A host write to LQDOOR enqueues a launch submission for the written record address into the partition's launch queue. Operands: p, addr, die. -/
  | lqdoor
  /-- R339: The accepting distributor pops a launch entry, reads and checks the record, and sends the launch to all distributors or rejects it. Operands: p. -/
  | launchAccept
  /-- R345: Every 16 cycles a distributor places the first placeable item of its pending list on the least-occupied core of its die. Operands: die. -/
  | placement
  /-- R345: A team sent by its owner to another die's distributor arrives 180 x h cycles later and heads that pending list. Operands: die, team. -/
  | teamTransfer
  /-- R347: A distributor whose pending list has been empty 256 cycles sends a steal request to the other dies in turn. Operands: thief, victim. -/
  | stealRequest
  /-- R348: A victim distributor hands over half of a launch's unstarted non-cohort teams that fit, or nothing. Operands: thief, victim. -/
  | stealAnswer
  /-- R369: At q + YDL each fragment of the victim team stops at its next safe point. Operands: team, stamp. -/
  | yieldDeadline
  /-- R351: A team idle in a counted wait for 2^WAITSWAP resident cycles, while a pending item needs its room, is swapped. Operands: team. -/
  | waitSwap
  /-- R352: A stopped team rolls back windows, drains, saves its context and scratchpad to a context area and frees its slots. Operands: team. -/
  | teamSwap
  /-- R342: When every team and task of a launch has retired and drained, its completion record is enqueued to COMPLQ. Operands: launch. -/
  | launchComplete
  /-- R343: A completion record refused FULL or OFFLINE is retried every 4,096 cycles. Operands: launch. -/
  | completionRetry
  /-- R354: A host write to RESIZE moves a clover between partitions through pre-emption, share change, clearing and the bit move. Operands: p, clover, target. -/
  | resize
  /-- R349: A spawned thread reaches its die's spawn bins 24 cycles after the spawn, taking or evicting a bin, and a full or flushed bin emits its task wave. Operands: die, id. -/
  | spawnBinArrival
  /-- R349: A bin whose first thread arrived 2,048 cycles ago emits its task wave. Operands: die, bin, stamp. -/
  | binTimeout
  /-- R349: An emitted task wave enters the die distributor's pending list 8 cycles after emission. Operands: die, id. -/
  | taskWavePending
  /-- R273: A STATUS command returns the target die's state. Operands: die, src. -/
  | dieStatus
  /-- R417: A QUIESCE command takes a die from RUN to QUIESCING, pre-empts its teams, moves its pending list and writes back its queue contexts. Operands: die, src. -/
  | dieQuiesce
  /-- R417: Once its teams have left, the quiescing die writes back and drops every line it holds, completing when all writes are acknowledged. Operands: die. -/
  | writeBack
  /-- R417: The die copies its directory, watch and mapping entries to die 0 and its home-table entry switches to die 0 in cycle u. Operands: die. -/
  | reHome
  /-- R417: A stray request reaching the offline home is answered HOME_OFFLINE, or a host access is answered poisoned data or an error. Operands: id. -/
  | homeOffline
  /-- R418: A RESET command resets the die's cores, caches and B-stores and retrains its UCIe links. Operands: die, src. -/
  | dieReset
  /-- R418: The die's 180,000-cycle self-test ends, taking the die to SELFTEST or back to OFFLINE. Operands: die, pass. -/
  | selftest
  /-- R419: A READMIT command checks FEAT against FEATACK and fully retrains the die's links. Operands: die, src. -/
  | dieReadmit
  /-- R419: After the retrain, die 0 copies the range's entries back and the home table names the die again; RUN follows at the next frame boundary. Operands: die. -/
  | copyBack
  /-- R378: A die fails: its waves are killed, its home moves to the lowest surviving die and DIE messages go out. Operands: die. -/
  | dieFailure
  /-- R420: Power-good starts the boot: image measurement, signature checks, self-tests, link training and time-base set-up. -/
  | coldStart
  /-- R423: A supply sensor falling below a threshold stretches the package clock to that level within 2 cycles. Operands: level. -/
  | supplySag
  /-- R423: After 256 cycles with every sensor 1 % above the current threshold, the stretch level falls by one. Operands: stamp. -/
  | stretchFall
  /-- R424: A temperature reading at 105 °C forces stretch level 3 and at 115 °C stops the package with a fatal error. Operands: sensor, celsius. -/
  | temperatureSensor
  /-- R422: The driver's single write of FEATACK stores the written value AND FEAT; later writes are discarded. Operands: v. -/
  | featack
  /-- R421: A host write of 1 to ATTCTL bit 0 requests a signed attestation report. Operands: v. -/
  | attctl
  /-- R421: The signed report is written to ATTREP and ATTCTL bit 1 reads 1. -/
  | attestationReport
  /-- R384: A write to SWCOMMIT requests the commit of a link's shadow swath table, refused if it breaks the tier or bank-group rules. Operands: link. -/
  | swcommit
  /-- R397: A write of LCTL requests a link width through PWIDTH and sets the auto-wake threshold WAKEQ. Operands: link, v, src. -/
  | lctl
  /-- R400: A write of BERTHR.O or BERTHR.I sets the corrected-symbol threshold that starts background retraining. Operands: link, dir, v, src. -/
  | berthr
  /-- R274: A write of QTBASE writes back every cached queue context of the partition before storing the new base. Operands: p, half, v, src. -/
  | qtbase
  /-- R274: A write of QTLEN writes back the partition's cached queue contexts and stores the new table length. Operands: p, v, src. -/
  | qtlen
  /-- R274: A write of PTBASE stores the new page-table root and invalidates every translation of the partition. Operands: p, half, v, src. -/
  | ptbase
  /-- R414: A host write of MWBASE is discarded when it would overlap another partition's non-empty window. Operands: p, k, v. -/
  | mwbase
  /-- R414: A host write of MWLIM is discarded when it would overlap another partition's non-empty window. Operands: p, k, v. -/
  | mwlim
  /-- R411: A host write of CLVLO takes effect only while the partition has no resident team or pending launch. Operands: p, v. -/
  | clvlo
  /-- R411: A host write of CLVHI takes effect only while the partition has no resident team or pending launch. Operands: p, v. -/
  | clvhi
  /-- R413: Unmasking an MSI-X vector with its pending bit set sends the interrupt once. Operands: vec. -/
  | msixUnmask
  /-- R409: A write to a register with no behaviour of its own stores the value, or is discarded for read-only or unassigned offsets. Operands: off, v, src. -/
  | registerWrite
  /-- R275: sy.inj target ABFT arms a one-shot failure of a chosen chunk check of an accumulator. Operands: clover, acc, chunk. -/
  | injAbft
  /-- R275: sy.inj target SOFT places one correctable bit error in a die-cache line. Operands: line. -/
  | injSoft
  /-- R275: sy.inj target UNCORR poisons a line at its holder. Operands: line. -/
  | injUncorr
  /-- R275: sy.inj target TWIN arms a bit-0 inversion of the next res of a twin unit in one lane. Operands: w, unit, lane. -/
  | injTwin
  /-- R286: A held store's ownership request completes when the line is held writable for the wave, and its store-buffer entry becomes ready. Operands: w, k. -/
  | storeBufferEntryReady
  /-- R317: The lazy write-back of a BKD = 1 scratchpad writes its last line, deregistering the mapping entry, freeing the space and releasing a waiting resume. Operands: team. -/
  | scratchpadWriteBack
  /-- R465: In cycle u + 360 step 4 of a warm reset is complete and the quiescing die becomes OFFLINE. Operands: die. -/
  | dieOffline
  /-- R417: A die's copy of the home table changes 180 x h cycles after the home switch, and requests answered HOME_OFFLINE are resent from it. Operands: die, entry, home. -/
  | homeTableUpdate
  /-- R334: A bias flip requested by the clover manager or the host marks, drains, flushes and releases a page, moving it between device and host bias. Operands: p, page, toHost, stage. -/
  | biasFlip
  /-- R313: A soft error occurs in a twin unit, cache or die-cache line, corrected by ECC, detected by ck, or poisoning its line when uncorrectable. Operands: kind, place. -/
  | softError
  /-- R324: A core-TLB miss that hits the die TLB completes after its 24-cycle hold-back, releasing the held last issue cycle of the bundle. Operands: w, q. -/
  | dieTlbLookup
  /-- R339: An accepted launch arrives at a distributor 180 x h cycles after acceptance, and the distributor adds the teams it owns to its pending list. Operands: die, launch. -/
  | launchDistribution
deriving DecidableEq, Repr

end Sys2Proof
end

