-- ==== Sys2Proof/Machine/Units.lean ====
section
/-! DEFINITION. The function units: their numbers (R48), their latches and their result ports (R14). -/
namespace Sys2Proof.Machine

/-- The unit id of R48. -/
def unitCode : FuncUnit → Nat
  | .ia => 3 | .ib => 4 | .ma => 5 | .mb => 6 | .sa => 7 | .sb => 8 | .ck => 9 | .fa => 10 | .fb => 11 | .xf => 12
  | .cv => 13 | .cx => 14 | .ls => 15 | .sp => 16 | .xl => 17 | .qu => 18 | .en => 19 | .mx => 20 | .ct => 21 | .sy => 22

/-- The function unit of an id, if the id names one (R48). -/
def unitOf : Nat → Option FuncUnit
  | 3 => some .ia | 4 => some .ib | 5 => some .ma | 6 => some .mb | 7 => some .sa | 8 => some .sb | 9 => some .ck
  | 10 => some .fa | 11 => some .fb | 12 => some .xf | 13 => some .cv | 14 => some .cx | 15 => some .ls | 16 => some .sp
  | 17 => some .xl | 18 => some .qu | 19 => some .en | 20 => some .mx | 21 => some .ct | 22 => some .sy | _ => none

/-- The latches of each unit (R14). -/
def hasLatch : FuncUnit → LatchNo → Bool
  | .xf, .o1 => true | .xf, _ => false
  | .cx, .o1 => true | .cx, _ => false
  | .ls, _ => true | .qu, _ => true | .en, _ => true | .mx, _ => true
  | _, .o3 => false
  | _, _ => true

/-- The result ports of each unit (R14). -/
def hasPort : FuncUnit → PortNo → Bool
  | .ia, .st => false | .ib, .st => false | .ia, _ => true | .ib, _ => true
  | .ma, _ => true | .mb, _ => true | .cv, _ => true | .cx, _ => true
  | .sa, p => p == .res | .sb, p => p == .res
  | .ck, p => p == .st
  | .xl, .st => false | .xl, _ => true
  | _, .hi => false
  | _, _ => true

/-- The latches that are 64 bits wide (R14, R52). -/
def wideLatch : FuncUnit → LatchNo → Bool
  | .ls, .o1 => true | .en, .o1 => true | .en, .o2 => true | .ct, .o1 => true | _, _ => false

/-- The units whose latches and ports are wave-uniform (R13). -/
def uniformUnit : FuncUnit → Bool
  | .qu | .en | .mx | .ct | .sy => true
  | _ => false

/-- The unit of a pair of twins (R48). -/
def twin (t : Twin) (a b : FuncUnit) : FuncUnit := match t with | .a => a | .b => b

/-- The number of a latch. -/
def latchCode : LatchNo → Nat
  | .o1 => 0 | .o2 => 1 | .o3 => 3

/-- The port code of R51. -/
def portCode : PortNo → Nat
  | .res => 0 | .hi => 1 | .st => 2

end Sys2Proof.Machine
end

