-- ==== Sys2Proof/WellFormed.lean ====
section
/-! DEFINITION. Which instructions are well formed: a port source names a port of its unit, a latch write a latch of its
unit (R14, R64); an event has no encoding and is always well formed. -/
namespace Sys2Proof

/-- A port source names a port the unit has (R14); every other source is in range by its type. -/
def Src.wellFormed : Src → Bool
  | .port u p => Machine.hasPort u p
  | _ => true

/-- Well-formedness of an instruction. -/
def Instr.wellFormed : Instr → Bool
  | .moveM0 _ _ s => s.wellFormed
  | .moveM1 _ _ s => s.wellFormed
  | .moveLf _ _ s => s.wellFormed
  | .latchWrite _ u k s => Machine.hasLatch u k && s.wellFormed
  | .iaAdd _ _ s => s.wellFormed
  | .iaSub _ _ s => s.wellFormed
  | .iaAnd _ _ s => s.wellFormed
  | .iaOr _ _ s => s.wellFormed
  | .iaXor _ _ s => s.wellFormed
  | .iaAndn _ _ s => s.wellFormed
  | .iaOrn _ _ s => s.wellFormed
  | .iaMinS _ _ s => s.wellFormed
  | .iaMaxS _ _ s => s.wellFormed
  | .iaMinU _ _ s => s.wellFormed
  | .iaMaxU _ _ s => s.wellFormed
  | .iaEq _ _ s => s.wellFormed
  | .iaNe _ _ s => s.wellFormed
  | .iaLtS _ _ s => s.wellFormed
  | .iaLeS _ _ s => s.wellFormed
  | .iaLtU _ _ s => s.wellFormed
  | .iaLeU _ _ s => s.wellFormed
  | .iaSel _ _ s => s.wellFormed
  | .iaSextB _ _ s => s.wellFormed
  | .iaSextH _ _ s => s.wellFormed
  | .iaZextB _ _ s => s.wellFormed
  | .iaZextH _ _ s => s.wellFormed
  | .iaAbs _ _ s => s.wellFormed
  | .iaNeg _ _ s => s.wellFormed
  | .iaAddsS _ _ s => s.wellFormed
  | .iaSubsS _ _ s => s.wellFormed
  | .iaAddCo _ _ s => s.wellFormed
  | .iaSubBo _ _ s => s.wellFormed
  | .iaMov _ _ s => s.wellFormed
  | .maMulLo _ _ s => s.wellFormed
  | .maMulHiS _ _ s => s.wellFormed
  | .maMulHiU _ _ s => s.wellFormed
  | .maMadLo _ _ s => s.wellFormed
  | .maMadWideS _ _ s => s.wellFormed
  | .maMadWideU _ _ s => s.wellFormed
  | .maDivU _ _ s => s.wellFormed
  | .maDivS _ _ s => s.wellFormed
  | .maRemU _ _ s => s.wellFormed
  | .maRemS _ _ s => s.wellFormed
  | .saShl _ _ s => s.wellFormed
  | .saShr _ _ s => s.wellFormed
  | .saSar _ _ s => s.wellFormed
  | .saRotl _ _ s => s.wellFormed
  | .saRotr _ _ s => s.wellFormed
  | .saBextU _ _ s => s.wellFormed
  | .saBextS _ _ s => s.wellFormed
  | .saBins _ _ s => s.wellFormed
  | .saPopc _ _ s => s.wellFormed
  | .saClz _ _ s => s.wellFormed
  | .saCtz _ _ s => s.wellFormed
  | .saBrev _ _ s => s.wellFormed
  | .saPerm _ _ s => s.wellFormed
  | .saFsh _ _ s => s.wellFormed
  | .ckEq _ s => s.wellFormed
  | .ckRng _ s => s.wellFormed
  | .ckMark _ s => s.wellFormed
  | .faAdd _ _ s => s.wellFormed
  | .faSub _ _ s => s.wellFormed
  | .faMul _ _ s => s.wellFormed
  | .faFma _ _ s => s.wellFormed
  | .faFms _ _ s => s.wellFormed
  | .faFnma _ _ s => s.wellFormed
  | .faFnms _ _ s => s.wellFormed
  | .faMin _ _ s => s.wellFormed
  | .faMax _ _ s => s.wellFormed
  | .faMinn _ _ s => s.wellFormed
  | .faMaxn _ _ s => s.wellFormed
  | .faEq _ _ s => s.wellFormed
  | .faLt _ _ s => s.wellFormed
  | .faLe _ _ s => s.wellFormed
  | .faUn _ _ s => s.wellFormed
  | .faAbs _ _ s => s.wellFormed
  | .faNeg _ _ s => s.wellFormed
  | .faCsgn _ _ s => s.wellFormed
  | .faRint _ _ s => s.wellFormed
  | .faFrac _ _ s => s.wellFormed
  | .xfRcp _ s => s.wellFormed
  | .xfRsqrt _ s => s.wellFormed
  | .xfSqrt _ s => s.wellFormed
  | .xfDiv _ s => s.wellFormed
  | .xfExp2 _ s => s.wellFormed
  | .xfLog2 _ s => s.wellFormed
  | .xfSinpi _ s => s.wellFormed
  | .xfCospi _ s => s.wellFormed
  | .xfTanh _ s => s.wellFormed
  | .xfSigm _ s => s.wellFormed
  | .cvUp _ _ s => s.wellFormed
  | .cvDn _ _ s => s.wellFormed
  | .cvDot _ _ s => s.wellFormed
  | .cvSc _ _ s => s.wellFormed
  | .cxF2bf _ s => s.wellFormed
  | .cxF2bfZ _ s => s.wellFormed
  | .cxF2h _ s => s.wellFormed
  | .cxF2hZ _ s => s.wellFormed
  | .cxBf2f _ s => s.wellFormed
  | .cxH2f _ s => s.wellFormed
  | .cxF2i _ s => s.wellFormed
  | .cxF2iZ _ s => s.wellFormed
  | .cxF2ui _ s => s.wellFormed
  | .cxF2uiZ _ s => s.wellFormed
  | .cxI2f _ s => s.wellFormed
  | .cxUi2f _ s => s.wellFormed
  | .cxPack _ s => s.wellFormed
  | .cxUnpack _ s => s.wellFormed
  | .lsLdB _ s => s.wellFormed
  | .lsLdBs _ s => s.wellFormed
  | .lsLdH _ s => s.wellFormed
  | .lsLdHs _ s => s.wellFormed
  | .lsLdW _ s => s.wellFormed
  | .lsStB _ s => s.wellFormed
  | .lsStH _ s => s.wellFormed
  | .lsStW _ s => s.wellFormed
  | .lsAtAdd _ s => s.wellFormed
  | .lsAtAnd _ s => s.wellFormed
  | .lsAtOr _ s => s.wellFormed
  | .lsAtXor _ s => s.wellFormed
  | .lsAtMinS _ s => s.wellFormed
  | .lsAtMaxS _ s => s.wellFormed
  | .lsAtMinU _ s => s.wellFormed
  | .lsAtMaxU _ s => s.wellFormed
  | .lsAtXchg _ s => s.wellFormed
  | .lsAtCas _ s => s.wellFormed
  | .lsAtFadd _ s => s.wellFormed
  | .lsPf _ s => s.wellFormed
  | .lsCwb _ s => s.wellFormed
  | .lsCinvWb _ s => s.wellFormed
  | .lsCinvDis _ s => s.wellFormed
  | .lsFence _ s => s.wellFormed
  | .lsPol _ s => s.wellFormed
  | .spLdB _ s => s.wellFormed
  | .spLdH _ s => s.wellFormed
  | .spLdW _ s => s.wellFormed
  | .spStB _ s => s.wellFormed
  | .spStH _ s => s.wellFormed
  | .spStW _ s => s.wellFormed
  | .spAtAdd _ s => s.wellFormed
  | .spAtCas _ s => s.wellFormed
  | .spAtXchg _ s => s.wellFormed
  | .xlTakeIx _ s => s.wellFormed
  | .xlTakeRot _ s => s.wellFormed
  | .xlTakeSh _ s => s.wellFormed
  | .xlTakeMir _ s => s.wellFormed
  | .xlSpread _ s => s.wellFormed
  | .xlSum _ s => s.wellFormed
  | .xlMinS _ s => s.wellFormed
  | .xlMaxS _ s => s.wellFormed
  | .xlAnd _ s => s.wellFormed
  | .xlOr _ s => s.wellFormed
  | .xlFsum _ s => s.wellFormed
  | .xlEvery _ s => s.wellFormed
  | .xlSome _ s => s.wellFormed
  | .xlMask _ s => s.wellFormed
  | .xlPreAdd _ s => s.wellFormed
  | .xlPreFadd _ s => s.wellFormed
  | .quEnq _ s => s.wellFormed
  | .quClaim _ s => s.wellFormed
  | .quPub _ s => s.wellFormed
  | .quBindU _ s => s.wellFormed
  | .quBindS _ s => s.wellFormed
  | .quUnbind _ s => s.wellFormed
  | .quAvail _ s => s.wellFormed
  | .quCreate _ s => s.wellFormed
  | .quDestroy _ s => s.wellFormed
  | .quTsnow _ s => s.wellFormed
  | .enCp _ s => s.wellFormed
  | .enCp2d _ s => s.wellFormed
  | .enCpb _ s => s.wellFormed
  | .enCpt _ s => s.wellFormed
  | .enGa _ s => s.wellFormed
  | .enSc _ s => s.wellFormed
  | .enFill _ s => s.wellFormed
  | .enStatus _ s => s.wellFormed
  | .mxMma _ _ s => s.wellFormed
  | .mxMms _ _ s => s.wellFormed
  | .mxEpi _ _ s => s.wellFormed
  | .mxReq _ s => s.wellFormed
  | .mxRel _ s => s.wellFormed
  | .mxRet _ s => s.wellFormed
  | .mxZero _ s => s.wellFormed
  | .mxAbft _ s => s.wellFormed
  | .ctJmp _ s => s.wellFormed
  | .ctBr _ s => s.wellFormed
  | .ctCall _ s => s.wellFormed
  | .ctLoop _ s => s.wellFormed
  | .ctLbrk _ s => s.wellFormed
  | .ctSpawn _ s => s.wellFormed
  | .ctLaunch _ s => s.wellFormed
  | .ctExit _ s => s.wellFormed
  | .ctBarMeet _ s => s.wellFormed
  | .ctBarSign _ s => s.wellFormed
  | .ctBarHold _ s => s.wellFormed
  | .ctWait _ s => s.wellFormed
  | .ctYield _ s => s.wellFormed
  | .ctTrap _ s => s.wellFormed
  | .ctRcvw _ s => s.wellFormed
  | .syRdsr _ s => s.wellFormed
  | .syWrsr _ s => s.wellFormed
  | .syTlbinv _ s => s.wellFormed
  | .syPmap _ s => s.wellFormed
  | .sySret _ s => s.wellFormed
  | .syMbox _ s => s.wellFormed
  | .syLnk _ s => s.wellFormed
  | .syDctl _ s => s.wellFormed
  | .syInj _ s => s.wellFormed
  | .syPart _ s => s.wellFormed
  | .bundleIssue => true
  | .bundleFetch => true
  | .bundleDeliveredTrap => true
  | .sequencerFill => true
  | .spillTimeout => true
  | .resultReady => true
  | .loadBind => true
  | .storePerformed => true
  | .atomicPerformed => true
  | .lineOperationPerformed => true
  | .fenceComplete => true
  | .walkComplete => true
  | .windowCommit => true
  | .rollback => true
  | .rollbackEnd => true
  | .escDecay => true
  | .noWindowPeriodEnd => true
  | .leaseExpiry => true
  | .watchNotice => true
  | .hostAccess => true
  | .hostGrant => true
  | .hostRecall => true
  | .drawerRequest => true
  | .outboundSwath => true
  | .inboundSwath => true
  | .frameBoundary => true
  | .fecWindowEnd => true
  | .retrainStart => true
  | .handBack => true
  | .channelFailure => true
  | .fullRetrainEnd => true
  | .autoWake => true
  | .wakeEnd => true
  | .linkStall => true
  | .peerPacket => true
  | .peerTimeout => true
  | .queueControllerOp => true
  | .queueAnswer => true
  | .latchRefill => true
  | .engineLineTransfer => true
  | .releasePoint => true
  | .batonGrant => true
  | .agingPromotion => true
  | .batonRelease => true
  | .watchdog => true
  | .mmaComplete => true
  | .retComplete => true
  | .epiChunk => true
  | .barrierTimeout => true
  | .mailboxPost => true
  | .cmack => true
  | .resume => true
  | .killwave => true
  | .killteam => true
  | .lqdoor => true
  | .launchAccept => true
  | .placement => true
  | .teamTransfer => true
  | .stealRequest => true
  | .stealAnswer => true
  | .yieldDeadline => true
  | .waitSwap => true
  | .teamSwap => true
  | .launchComplete => true
  | .completionRetry => true
  | .resize => true
  | .spawnBinArrival => true
  | .binTimeout => true
  | .taskWavePending => true
  | .dieStatus => true
  | .dieQuiesce => true
  | .writeBack => true
  | .reHome => true
  | .homeOffline => true
  | .dieReset => true
  | .selftest => true
  | .dieReadmit => true
  | .copyBack => true
  | .dieFailure => true
  | .coldStart => true
  | .supplySag => true
  | .stretchFall => true
  | .temperatureSensor => true
  | .featack => true
  | .attctl => true
  | .attestationReport => true
  | .swcommit => true
  | .lctl => true
  | .berthr => true
  | .qtbase => true
  | .qtlen => true
  | .ptbase => true
  | .mwbase => true
  | .mwlim => true
  | .clvlo => true
  | .clvhi => true
  | .msixUnmask => true
  | .registerWrite => true
  | .injAbft => true
  | .injSoft => true
  | .injUncorr => true
  | .injTwin => true
  | .storeBufferEntryReady => true
  | .scratchpadWriteBack => true
  | .dieOffline => true
  | .homeTableUpdate => true
  | .biasFlip => true
  | .softError => true
  | .dieTlbLookup => true
  | .launchDistribution => true

end Sys2Proof
end

