-- ==== Sys2Proof/Decode.lean ====
section
/-! DEFINITION. The decoder and the encoder of the opcode map (02_bundle_encoding.md): headers, move words, sources and
operations. Every word that is not a valid move is rejected by the name of its row in R64. -/
namespace Sys2Proof

/-- Why a header or a move word is no valid one (the rows of R64). -/
inductive Reject
  | nmov | nlim | headerReserved | rtokWithoutRcv
  | reservedUnit | reservedMain | reservedLaneDest | latchOp | noLatch | reservedOp
  | sourceClass | mainSource | laneSource | portSource | longSource
deriving DecidableEq, Repr

/-- A bundle header (R44). -/
structure Header where
  nmov : Fin 7
  nlim : Fin 3
  pop : Fin 16
  rcv : Bool
  jtok : Fin 16
  rtok : Fin 16
  region : Bool
deriving DecidableEq, Repr

/-- A field of a word as a number below its bound. -/
def field (n : Nat) (h : 0 < n) (v : Nat) : Fin n := ⟨v % n, Nat.mod_lt v h⟩

/-- The guard field of a move word (R47). -/
def decodeGuard (w : Nat) : Guard := { neg := w / 2 ^ 31 % 2 == 1, g := field 8 (by decide) (w / 2 ^ 28) }

/-- A lane-file source selector: its group and item (R53). -/
def decodeLaneSrc (grp it : Nat) : Except Reject Src :=
  match grp with
  | 0 => if h : it < 8 then .ok (.opnd ⟨it, h⟩) else .error .laneSource
  | 1 => if h : it < 8 then .ok (.guard ⟨it, h⟩) else .error .laneSource
  | 2 => if h : it < 16 then .ok (.base ⟨it, h⟩) else .error .laneSource
  | 3 => if h : it < 16 then .ok (.baseHi ⟨it, h⟩) else .error .laneSource
  | 4 => if h : it < 96 then .ok (.pair ⟨it, h⟩) else .error .laneSource
  | 5 => if it < 32 then .ok (.head (field 4 (by decide) (it / 8)) (field 8 (by decide) it)) else .error .laneSource
  | 6 => if h : it < 6 then .ok (.index ⟨it, h⟩) else .error .laneSource
  | 7 => if it = 0 then .ok .lane else if it = 1 then .ok .wave else if it = 2 then .ok .team else .error .laneSource
  | _ => .error .laneSource

/-- A result-port source: unit id and port code (R51). A port the unit lacks is rejected (R64). -/
def decodePortSrc (u p : Nat) : Except Reject Src :=
  match Machine.unitOf u with
  | none => .error .portSource
  | some f =>
    match p with
    | 0 => if Machine.hasPort f .res then .ok (.port f .res) else .error .portSource
    | 1 => if Machine.hasPort f .hi then .ok (.port f .hi) else .error .portSource
    | 2 => if Machine.hasPort f .st then .ok (.port f .st) else .error .portSource
    | _ => .error .portSource

/-- The source field of a move word (R51). -/
def decodeSrc (s : Nat) : Except Reject Src :=
  let v := s % 2 ^ 13
  match s / 2 ^ 13 % 8 with
  | 0 => if h : v < 192 then .ok (.main ⟨v, h⟩) else .error .mainSource
  | 1 => decodeLaneSrc (v / 256) (v % 256)
  | 2 => if v < 128 then decodePortSrc (v / 4) (v % 4) else .error .portSource
  | 3 => .ok (.imm (field 8192 (by decide) v))
  | 4 => if h : v < 2 then .ok (.long ⟨v, h⟩) else .error .longSource
  | _ => .error .sourceClass

/-- The lane-file destinations of R49. -/
def decodeLf (n : Nat) : Except Reject LfDest :=
  if h : n < 8 then .ok (.opnd ⟨n, h⟩)
  else if n < 16 then .ok (.guard (field 8 (by decide) n))
  else if n < 32 then .ok (.base (field 16 (by decide) n))
  else if n < 48 then .ok (.baseLo (field 16 (by decide) n))
  else if n < 64 then .ok (.baseHi (field 16 (by decide) n))
  else if n < 72 then .ok (.guardBits (field 8 (by decide) n))
  else .error .reservedLaneDest

/-- The operations of ia and its twin (R62). -/
def decodeIa (gd : Guard) (t : Twin) (s : Src) : Nat → Except Reject Instr
  | 0 => .ok (.iaAdd gd t s)
  | 1 => .ok (.iaSub gd t s)
  | 2 => .ok (.iaAnd gd t s)
  | 3 => .ok (.iaOr gd t s)
  | 4 => .ok (.iaXor gd t s)
  | 5 => .ok (.iaAndn gd t s)
  | 6 => .ok (.iaOrn gd t s)
  | 7 => .ok (.iaMinS gd t s)
  | 8 => .ok (.iaMaxS gd t s)
  | 9 => .ok (.iaMinU gd t s)
  | 10 => .ok (.iaMaxU gd t s)
  | 11 => .ok (.iaEq gd t s)
  | 12 => .ok (.iaNe gd t s)
  | 13 => .ok (.iaLtS gd t s)
  | 14 => .ok (.iaLeS gd t s)
  | 15 => .ok (.iaLtU gd t s)
  | 16 => .ok (.iaLeU gd t s)
  | 17 => .ok (.iaSel gd t s)
  | 18 => .ok (.iaSextB gd t s)
  | 19 => .ok (.iaSextH gd t s)
  | 20 => .ok (.iaZextB gd t s)
  | 21 => .ok (.iaZextH gd t s)
  | 22 => .ok (.iaAbs gd t s)
  | 23 => .ok (.iaNeg gd t s)
  | 24 => .ok (.iaAddsS gd t s)
  | 25 => .ok (.iaSubsS gd t s)
  | 26 => .ok (.iaAddCo gd t s)
  | 27 => .ok (.iaSubBo gd t s)
  | 28 => .ok (.iaMov gd t s)
  | _ => .error .reservedOp

/-- The operations of ma and its twin (R62). -/
def decodeMa (gd : Guard) (t : Twin) (s : Src) : Nat → Except Reject Instr
  | 0 => .ok (.maMulLo gd t s)
  | 1 => .ok (.maMulHiS gd t s)
  | 2 => .ok (.maMulHiU gd t s)
  | 3 => .ok (.maMadLo gd t s)
  | 4 => .ok (.maMadWideS gd t s)
  | 5 => .ok (.maMadWideU gd t s)
  | 6 => .ok (.maDivU gd t s)
  | 7 => .ok (.maDivS gd t s)
  | 8 => .ok (.maRemU gd t s)
  | 9 => .ok (.maRemS gd t s)
  | _ => .error .reservedOp

/-- The operations of sa and its twin (R62). -/
def decodeSa (gd : Guard) (t : Twin) (s : Src) : Nat → Except Reject Instr
  | 0 => .ok (.saShl gd t s)
  | 1 => .ok (.saShr gd t s)
  | 2 => .ok (.saSar gd t s)
  | 3 => .ok (.saRotl gd t s)
  | 4 => .ok (.saRotr gd t s)
  | 5 => .ok (.saBextU gd t s)
  | 6 => .ok (.saBextS gd t s)
  | 7 => .ok (.saBins gd t s)
  | 8 => .ok (.saPopc gd t s)
  | 9 => .ok (.saClz gd t s)
  | 10 => .ok (.saCtz gd t s)
  | 11 => .ok (.saBrev gd t s)
  | 12 => .ok (.saPerm gd t s)
  | 13 => .ok (.saFsh gd t s)
  | _ => .error .reservedOp

/-- The operations of fa and its twin (R62). -/
def decodeFa (gd : Guard) (t : Twin) (s : Src) : Nat → Except Reject Instr
  | 0 => .ok (.faAdd gd t s)
  | 1 => .ok (.faSub gd t s)
  | 2 => .ok (.faMul gd t s)
  | 3 => .ok (.faFma gd t s)
  | 4 => .ok (.faFms gd t s)
  | 5 => .ok (.faFnma gd t s)
  | 6 => .ok (.faFnms gd t s)
  | 7 => .ok (.faMin gd t s)
  | 8 => .ok (.faMax gd t s)
  | 9 => .ok (.faMinn gd t s)
  | 10 => .ok (.faMaxn gd t s)
  | 11 => .ok (.faEq gd t s)
  | 12 => .ok (.faLt gd t s)
  | 13 => .ok (.faLe gd t s)
  | 14 => .ok (.faUn gd t s)
  | 15 => .ok (.faAbs gd t s)
  | 16 => .ok (.faNeg gd t s)
  | 17 => .ok (.faCsgn gd t s)
  | 18 => .ok (.faRint gd t s)
  | 19 => .ok (.faFrac gd t s)
  | _ => .error .reservedOp

/-- The operations of ck (R62). -/
def decodeCk (gd : Guard) (s : Src) : Nat → Except Reject Instr
  | 0 => .ok (.ckEq gd s)
  | 1 => .ok (.ckRng gd s)
  | 2 => .ok (.ckMark gd s)
  | _ => .error .reservedOp

/-- The operations of xf (R62). -/
def decodeXf (gd : Guard) (s : Src) : Nat → Except Reject Instr
  | 0 => .ok (.xfRcp gd s)
  | 1 => .ok (.xfRsqrt gd s)
  | 2 => .ok (.xfSqrt gd s)
  | 3 => .ok (.xfDiv gd s)
  | 4 => .ok (.xfExp2 gd s)
  | 5 => .ok (.xfLog2 gd s)
  | 6 => .ok (.xfSinpi gd s)
  | 7 => .ok (.xfCospi gd s)
  | 8 => .ok (.xfTanh gd s)
  | 9 => .ok (.xfSigm gd s)
  | _ => .error .reservedOp

/-- The operations of cv (R62). -/
def decodeCv (gd : Guard) (s : Src) : Nat → Except Reject Instr
  | 0 => .ok (.cvUp gd 0 s)
  | 1 => .ok (.cvUp gd 1 s)
  | 2 => .ok (.cvUp gd 2 s)
  | 3 => .ok (.cvUp gd 3 s)
  | 4 => .ok (.cvUp gd 4 s)
  | 5 => .ok (.cvUp gd 5 s)
  | 6 => .ok (.cvUp gd 6 s)
  | 7 => .ok (.cvUp gd 7 s)
  | 8 => .ok (.cvDn gd 0 s)
  | 9 => .ok (.cvDn gd 1 s)
  | 10 => .ok (.cvDn gd 2 s)
  | 11 => .ok (.cvDn gd 3 s)
  | 12 => .ok (.cvDn gd 4 s)
  | 13 => .ok (.cvDn gd 5 s)
  | 14 => .ok (.cvDn gd 6 s)
  | 15 => .ok (.cvDn gd 7 s)
  | 16 => .ok (.cvDot gd 0 s)
  | 17 => .ok (.cvDot gd 1 s)
  | 18 => .ok (.cvDot gd 2 s)
  | 19 => .ok (.cvDot gd 3 s)
  | 20 => .ok (.cvDot gd 4 s)
  | 21 => .ok (.cvDot gd 5 s)
  | 22 => .ok (.cvDot gd 6 s)
  | 23 => .ok (.cvDot gd 7 s)
  | 24 => .ok (.cvSc gd 0 s)
  | 25 => .ok (.cvSc gd 1 s)
  | 26 => .ok (.cvSc gd 2 s)
  | 27 => .ok (.cvSc gd 3 s)
  | 28 => .ok (.cvSc gd 4 s)
  | 29 => .ok (.cvSc gd 5 s)
  | 30 => .ok (.cvSc gd 6 s)
  | 31 => .ok (.cvSc gd 7 s)
  | _ => .error .reservedOp

/-- The operations of cx (R62). -/
def decodeCx (gd : Guard) (s : Src) : Nat → Except Reject Instr
  | 0 => .ok (.cxF2bf gd s)
  | 1 => .ok (.cxF2bfZ gd s)
  | 2 => .ok (.cxF2h gd s)
  | 3 => .ok (.cxF2hZ gd s)
  | 4 => .ok (.cxBf2f gd s)
  | 5 => .ok (.cxH2f gd s)
  | 6 => .ok (.cxF2i gd s)
  | 7 => .ok (.cxF2iZ gd s)
  | 8 => .ok (.cxF2ui gd s)
  | 9 => .ok (.cxF2uiZ gd s)
  | 10 => .ok (.cxI2f gd s)
  | 11 => .ok (.cxUi2f gd s)
  | 12 => .ok (.cxPack gd s)
  | 13 => .ok (.cxUnpack gd s)
  | _ => .error .reservedOp

/-- The operations of ls (R62). -/
def decodeLs (gd : Guard) (s : Src) : Nat → Except Reject Instr
  | 0 => .ok (.lsLdB gd s)
  | 1 => .ok (.lsLdBs gd s)
  | 2 => .ok (.lsLdH gd s)
  | 3 => .ok (.lsLdHs gd s)
  | 4 => .ok (.lsLdW gd s)
  | 5 => .ok (.lsStB gd s)
  | 6 => .ok (.lsStH gd s)
  | 7 => .ok (.lsStW gd s)
  | 8 => .ok (.lsAtAdd gd s)
  | 9 => .ok (.lsAtAnd gd s)
  | 10 => .ok (.lsAtOr gd s)
  | 11 => .ok (.lsAtXor gd s)
  | 12 => .ok (.lsAtMinS gd s)
  | 13 => .ok (.lsAtMaxS gd s)
  | 14 => .ok (.lsAtMinU gd s)
  | 15 => .ok (.lsAtMaxU gd s)
  | 16 => .ok (.lsAtXchg gd s)
  | 17 => .ok (.lsAtCas gd s)
  | 18 => .ok (.lsAtFadd gd s)
  | 19 => .ok (.lsPf gd s)
  | 20 => .ok (.lsCwb gd s)
  | 21 => .ok (.lsCinvWb gd s)
  | 22 => .ok (.lsCinvDis gd s)
  | 23 => .ok (.lsFence gd s)
  | 24 => .ok (.lsPol gd s)
  | _ => .error .reservedOp

/-- The operations of sp (R62). -/
def decodeSp (gd : Guard) (s : Src) : Nat → Except Reject Instr
  | 0 => .ok (.spLdB gd s)
  | 1 => .ok (.spLdH gd s)
  | 2 => .ok (.spLdW gd s)
  | 3 => .ok (.spStB gd s)
  | 4 => .ok (.spStH gd s)
  | 5 => .ok (.spStW gd s)
  | 6 => .ok (.spAtAdd gd s)
  | 7 => .ok (.spAtCas gd s)
  | 8 => .ok (.spAtXchg gd s)
  | _ => .error .reservedOp

/-- The operations of xl (R62). -/
def decodeXl (gd : Guard) (s : Src) : Nat → Except Reject Instr
  | 0 => .ok (.xlTakeIx gd s)
  | 1 => .ok (.xlTakeRot gd s)
  | 2 => .ok (.xlTakeSh gd s)
  | 3 => .ok (.xlTakeMir gd s)
  | 4 => .ok (.xlSpread gd s)
  | 5 => .ok (.xlSum gd s)
  | 6 => .ok (.xlMinS gd s)
  | 7 => .ok (.xlMaxS gd s)
  | 8 => .ok (.xlAnd gd s)
  | 9 => .ok (.xlOr gd s)
  | 10 => .ok (.xlFsum gd s)
  | 11 => .ok (.xlEvery gd s)
  | 12 => .ok (.xlSome gd s)
  | 13 => .ok (.xlMask gd s)
  | 14 => .ok (.xlPreAdd gd s)
  | 15 => .ok (.xlPreFadd gd s)
  | _ => .error .reservedOp

/-- The operations of qu (R62). -/
def decodeQu (gd : Guard) (s : Src) : Nat → Except Reject Instr
  | 0 => .ok (.quEnq gd s)
  | 1 => .ok (.quClaim gd s)
  | 2 => .ok (.quPub gd s)
  | 3 => .ok (.quBindU gd s)
  | 4 => .ok (.quBindS gd s)
  | 5 => .ok (.quUnbind gd s)
  | 6 => .ok (.quAvail gd s)
  | 7 => .ok (.quCreate gd s)
  | 8 => .ok (.quDestroy gd s)
  | 9 => .ok (.quTsnow gd s)
  | _ => .error .reservedOp

/-- The operations of en (R62). -/
def decodeEn (gd : Guard) (s : Src) : Nat → Except Reject Instr
  | 0 => .ok (.enCp gd s)
  | 1 => .ok (.enCp2d gd s)
  | 2 => .ok (.enCpb gd s)
  | 3 => .ok (.enCpt gd s)
  | 4 => .ok (.enGa gd s)
  | 5 => .ok (.enSc gd s)
  | 6 => .ok (.enFill gd s)
  | 7 => .ok (.enStatus gd s)
  | _ => .error .reservedOp

/-- The operations of mx (R62). -/
def decodeMx (gd : Guard) (s : Src) : Nat → Except Reject Instr
  | 0 => .ok (.mxMma gd 0 s)
  | 1 => .ok (.mxMma gd 1 s)
  | 2 => .ok (.mxMma gd 2 s)
  | 3 => .ok (.mxMma gd 3 s)
  | 4 => .ok (.mxMma gd 4 s)
  | 5 => .ok (.mxMma gd 5 s)
  | 6 => .ok (.mxMma gd 6 s)
  | 7 => .ok (.mxMma gd 7 s)
  | 8 => .ok (.mxMms gd 0 s)
  | 9 => .ok (.mxMms gd 1 s)
  | 10 => .ok (.mxMms gd 2 s)
  | 11 => .ok (.mxMms gd 3 s)
  | 12 => .ok (.mxMms gd 4 s)
  | 13 => .ok (.mxMms gd 5 s)
  | 14 => .ok (.mxMms gd 6 s)
  | 15 => .ok (.mxMms gd 7 s)
  | 16 => .ok (.mxEpi gd 0 s)
  | 17 => .ok (.mxEpi gd 1 s)
  | 18 => .ok (.mxEpi gd 2 s)
  | 19 => .ok (.mxEpi gd 3 s)
  | 20 => .ok (.mxEpi gd 4 s)
  | 21 => .ok (.mxEpi gd 5 s)
  | 22 => .ok (.mxEpi gd 6 s)
  | 23 => .ok (.mxEpi gd 7 s)
  | 24 => .ok (.mxReq gd s)
  | 25 => .ok (.mxRel gd s)
  | 26 => .ok (.mxRet gd s)
  | 27 => .ok (.mxZero gd s)
  | 28 => .ok (.mxAbft gd s)
  | _ => .error .reservedOp

/-- The operations of ct (R62). -/
def decodeCt (gd : Guard) (s : Src) : Nat → Except Reject Instr
  | 0 => .ok (.ctJmp gd s)
  | 1 => .ok (.ctBr gd s)
  | 2 => .ok (.ctCall gd s)
  | 3 => .ok (.ctLoop gd s)
  | 4 => .ok (.ctLbrk gd s)
  | 5 => .ok (.ctSpawn gd s)
  | 6 => .ok (.ctLaunch gd s)
  | 7 => .ok (.ctExit gd s)
  | 8 => .ok (.ctBarMeet gd s)
  | 9 => .ok (.ctBarSign gd s)
  | 10 => .ok (.ctBarHold gd s)
  | 11 => .ok (.ctWait gd s)
  | 12 => .ok (.ctYield gd s)
  | 13 => .ok (.ctTrap gd s)
  | 14 => .ok (.ctRcvw gd s)
  | _ => .error .reservedOp

/-- The operations of sy (R62). -/
def decodeSy (gd : Guard) (s : Src) : Nat → Except Reject Instr
  | 0 => .ok (.syRdsr gd s)
  | 1 => .ok (.syWrsr gd s)
  | 2 => .ok (.syTlbinv gd s)
  | 3 => .ok (.syPmap gd s)
  | 4 => .ok (.sySret gd s)
  | 5 => .ok (.syMbox gd s)
  | 6 => .ok (.syLnk gd s)
  | 7 => .ok (.syDctl gd s)
  | 8 => .ok (.syInj gd s)
  | 9 => .ok (.syPart gd s)
  | _ => .error .reservedOp

/-- The operation a trigger move starts (R62). -/
def decodeOp (gd : Guard) (s : Src) (op : Nat) : FuncUnit → Except Reject Instr
  | .ia => decodeIa gd .a s op
  | .ib => decodeIa gd .b s op
  | .ma => decodeMa gd .a s op
  | .mb => decodeMa gd .b s op
  | .sa => decodeSa gd .a s op
  | .sb => decodeSa gd .b s op
  | .fa => decodeFa gd .a s op
  | .fb => decodeFa gd .b s op
  | .ck => decodeCk gd s op
  | .xf => decodeXf gd s op
  | .cv => decodeCv gd s op
  | .cx => decodeCx gd s op
  | .ls => decodeLs gd s op
  | .sp => decodeSp gd s op
  | .xl => decodeXl gd s op
  | .qu => decodeQu gd s op
  | .en => decodeEn gd s op
  | .mx => decodeMx gd s op
  | .ct => decodeCt gd s op
  | .sy => decodeSy gd s op

/-- A latch write: OP is zero and the unit has the latch (R48, R64). -/
def decodeLatch (gd : Guard) (u : FuncUnit) (k : LatchNo) (op : Nat) (s : Src) : Except Reject Instr :=
  if op ≠ 0 then .error .latchOp else if Machine.hasLatch u k then .ok (.latchWrite gd u k s) else .error .noLatch

/-- The destination part of a move word (R48), its source read. The destination is checked first. -/
def decodeDest (gd : Guard) (unit port op : Nat) (s : Src) : Except Reject Instr :=
  match unit with
  | 0 => .ok (.moveM0 gd (field 128 (by decide) (port * 32 + op)) s)
  | 1 => if h : port * 32 + op < 64 then .ok (.moveM1 gd ⟨port * 32 + op, h⟩ s) else .error .reservedMain
  | 2 => match decodeLf (port * 32 + op) with
    | .ok d => .ok (.moveLf gd d s)
    | .error e => .error e
  | u => match Machine.unitOf u with
    | none => .error .reservedUnit
    | some f => match port with
      | 0 => decodeLatch gd f .o1 op s
      | 1 => decodeLatch gd f .o2 op s
      | 2 => decodeOp gd s op f
      | _ => decodeLatch gd f .o3 op s

/-- A move word (R47); its bits are `w % 2^32`. -/
def decodeMove (w : Nat) : Except Reject Instr :=
  match decodeSrc (w % 2 ^ 16) with
  | .ok s => decodeDest (decodeGuard w) (w / 2 ^ 23 % 32) (w / 2 ^ 21 % 4) (w / 2 ^ 16 % 32) s
  | .error e => .error e

/-- A bundle header (R44), with the header rows of R64. -/
def decodeHeader (w : Nat) : Except Reject Header :=
  if hm : w / 2 ^ 29 % 8 < 7 then
    if hl : w / 2 ^ 27 % 4 < 3 then
      if w % 2 ^ 13 ≠ 0 then .error .headerReserved
      else if w / 2 ^ 22 % 2 = 0 ∧ w / 2 ^ 14 % 16 ≠ 0 then .error .rtokWithoutRcv
      else .ok { nmov := ⟨w / 2 ^ 29 % 8, hm⟩, nlim := ⟨w / 2 ^ 27 % 4, hl⟩, pop := field 16 (by decide) (w / 2 ^ 23),
                 rcv := w / 2 ^ 22 % 2 == 1, jtok := field 16 (by decide) (w / 2 ^ 18), rtok := field 16 (by decide) (w / 2 ^ 14),
                 region := w / 2 ^ 13 % 2 == 1 }
    else .error .nlim
  else .error .nmov

/-- The little-endian 32-bit word at the head of a list of bytes, with the rest of the list. -/
def takeWord : List (BitVec 8) → Option (Nat × List (BitVec 8))
  | a :: b :: c :: d :: t => some (a.toNat + b.toNat * 2 ^ 8 + c.toNat * 2 ^ 16 + d.toNat * 2 ^ 24, t)
  | _ => none

/-- Decodes one move from a list of bytes, with the rest of the list; no answer where fewer than four bytes stand. -/
def decodeBytes (bs : List (BitVec 8)) : Option (Except Reject Instr × List (BitVec 8)) :=
  match takeWord bs with
  | some (w, t) => some (decodeMove w, t)
  | none => none

/-- The source field of a move word (R51, R53). -/
def encodeSrc : Src → Nat
  | .main i => i.val
  | .opnd i => 0x2000 + i.val
  | .guard i => 0x2100 + i.val
  | .base i => 0x2200 + i.val
  | .baseHi i => 0x2300 + i.val
  | .pair i => 0x2400 + i.val
  | .head q f => 0x2500 + 8 * q.val + f.val
  | .index i => 0x2600 + i.val
  | .lane => 0x2700
  | .wave => 0x2701
  | .team => 0x2702
  | .port u p => 0x4000 + 4 * Machine.unitCode u + Machine.portCode p
  | .imm v => 0x6000 + v.val
  | .long i => 0x8000 + i.val

/-- The destination number of R49. -/
def encodeLf : LfDest → Nat
  | .opnd i => i.val
  | .guard i => 8 + i.val
  | .base i => 16 + i.val
  | .baseLo i => 32 + i.val
  | .baseHi i => 48 + i.val
  | .guardBits i => 64 + i.val

/-- The fields of a move word (R47). -/
structure MoveFields where
  gd : Guard
  unit : Nat
  port : Nat
  op : Nat
  src : Src
deriving DecidableEq, Repr

/-- Puts the fields of a move word together (R47). -/
def packMove (m : MoveFields) : Nat :=
  (if m.gd.neg then 2 ^ 31 else 0) + m.gd.g.val * 2 ^ 28 + m.unit * 2 ^ 23 + m.port * 2 ^ 21 + m.op * 2 ^ 16 + encodeSrc m.src

/-- A trigger of operation `op` of unit `u`. -/
def trigger (gd : Guard) (u : FuncUnit) (op : Nat) (s : Src) : MoveFields := ⟨gd, Machine.unitCode u, 2, op, s⟩

/-- The fields of the move word of an instruction; an event has none. -/
def moveFields : Instr → Option MoveFields
  | .moveM0 gd r s => some ⟨gd, 0, r.val / 32, r.val % 32, s⟩
  | .moveM1 gd r s => some ⟨gd, 1, r.val / 32, r.val % 32, s⟩
  | .moveLf gd d s => some ⟨gd, 2, encodeLf d / 32, encodeLf d % 32, s⟩
  | .latchWrite gd u k s => some ⟨gd, Machine.unitCode u, Machine.latchCode k, 0, s⟩
  | .iaAdd gd t s => some (trigger gd (Machine.twin t .ia .ib) 0 s)
  | .iaSub gd t s => some (trigger gd (Machine.twin t .ia .ib) 1 s)
  | .iaAnd gd t s => some (trigger gd (Machine.twin t .ia .ib) 2 s)
  | .iaOr gd t s => some (trigger gd (Machine.twin t .ia .ib) 3 s)
  | .iaXor gd t s => some (trigger gd (Machine.twin t .ia .ib) 4 s)
  | .iaAndn gd t s => some (trigger gd (Machine.twin t .ia .ib) 5 s)
  | .iaOrn gd t s => some (trigger gd (Machine.twin t .ia .ib) 6 s)
  | .iaMinS gd t s => some (trigger gd (Machine.twin t .ia .ib) 7 s)
  | .iaMaxS gd t s => some (trigger gd (Machine.twin t .ia .ib) 8 s)
  | .iaMinU gd t s => some (trigger gd (Machine.twin t .ia .ib) 9 s)
  | .iaMaxU gd t s => some (trigger gd (Machine.twin t .ia .ib) 10 s)
  | .iaEq gd t s => some (trigger gd (Machine.twin t .ia .ib) 11 s)
  | .iaNe gd t s => some (trigger gd (Machine.twin t .ia .ib) 12 s)
  | .iaLtS gd t s => some (trigger gd (Machine.twin t .ia .ib) 13 s)
  | .iaLeS gd t s => some (trigger gd (Machine.twin t .ia .ib) 14 s)
  | .iaLtU gd t s => some (trigger gd (Machine.twin t .ia .ib) 15 s)
  | .iaLeU gd t s => some (trigger gd (Machine.twin t .ia .ib) 16 s)
  | .iaSel gd t s => some (trigger gd (Machine.twin t .ia .ib) 17 s)
  | .iaSextB gd t s => some (trigger gd (Machine.twin t .ia .ib) 18 s)
  | .iaSextH gd t s => some (trigger gd (Machine.twin t .ia .ib) 19 s)
  | .iaZextB gd t s => some (trigger gd (Machine.twin t .ia .ib) 20 s)
  | .iaZextH gd t s => some (trigger gd (Machine.twin t .ia .ib) 21 s)
  | .iaAbs gd t s => some (trigger gd (Machine.twin t .ia .ib) 22 s)
  | .iaNeg gd t s => some (trigger gd (Machine.twin t .ia .ib) 23 s)
  | .iaAddsS gd t s => some (trigger gd (Machine.twin t .ia .ib) 24 s)
  | .iaSubsS gd t s => some (trigger gd (Machine.twin t .ia .ib) 25 s)
  | .iaAddCo gd t s => some (trigger gd (Machine.twin t .ia .ib) 26 s)
  | .iaSubBo gd t s => some (trigger gd (Machine.twin t .ia .ib) 27 s)
  | .iaMov gd t s => some (trigger gd (Machine.twin t .ia .ib) 28 s)
  | .maMulLo gd t s => some (trigger gd (Machine.twin t .ma .mb) 0 s)
  | .maMulHiS gd t s => some (trigger gd (Machine.twin t .ma .mb) 1 s)
  | .maMulHiU gd t s => some (trigger gd (Machine.twin t .ma .mb) 2 s)
  | .maMadLo gd t s => some (trigger gd (Machine.twin t .ma .mb) 3 s)
  | .maMadWideS gd t s => some (trigger gd (Machine.twin t .ma .mb) 4 s)
  | .maMadWideU gd t s => some (trigger gd (Machine.twin t .ma .mb) 5 s)
  | .maDivU gd t s => some (trigger gd (Machine.twin t .ma .mb) 6 s)
  | .maDivS gd t s => some (trigger gd (Machine.twin t .ma .mb) 7 s)
  | .maRemU gd t s => some (trigger gd (Machine.twin t .ma .mb) 8 s)
  | .maRemS gd t s => some (trigger gd (Machine.twin t .ma .mb) 9 s)
  | .saShl gd t s => some (trigger gd (Machine.twin t .sa .sb) 0 s)
  | .saShr gd t s => some (trigger gd (Machine.twin t .sa .sb) 1 s)
  | .saSar gd t s => some (trigger gd (Machine.twin t .sa .sb) 2 s)
  | .saRotl gd t s => some (trigger gd (Machine.twin t .sa .sb) 3 s)
  | .saRotr gd t s => some (trigger gd (Machine.twin t .sa .sb) 4 s)
  | .saBextU gd t s => some (trigger gd (Machine.twin t .sa .sb) 5 s)
  | .saBextS gd t s => some (trigger gd (Machine.twin t .sa .sb) 6 s)
  | .saBins gd t s => some (trigger gd (Machine.twin t .sa .sb) 7 s)
  | .saPopc gd t s => some (trigger gd (Machine.twin t .sa .sb) 8 s)
  | .saClz gd t s => some (trigger gd (Machine.twin t .sa .sb) 9 s)
  | .saCtz gd t s => some (trigger gd (Machine.twin t .sa .sb) 10 s)
  | .saBrev gd t s => some (trigger gd (Machine.twin t .sa .sb) 11 s)
  | .saPerm gd t s => some (trigger gd (Machine.twin t .sa .sb) 12 s)
  | .saFsh gd t s => some (trigger gd (Machine.twin t .sa .sb) 13 s)
  | .ckEq gd s => some (trigger gd .ck 0 s)
  | .ckRng gd s => some (trigger gd .ck 1 s)
  | .ckMark gd s => some (trigger gd .ck 2 s)
  | .faAdd gd t s => some (trigger gd (Machine.twin t .fa .fb) 0 s)
  | .faSub gd t s => some (trigger gd (Machine.twin t .fa .fb) 1 s)
  | .faMul gd t s => some (trigger gd (Machine.twin t .fa .fb) 2 s)
  | .faFma gd t s => some (trigger gd (Machine.twin t .fa .fb) 3 s)
  | .faFms gd t s => some (trigger gd (Machine.twin t .fa .fb) 4 s)
  | .faFnma gd t s => some (trigger gd (Machine.twin t .fa .fb) 5 s)
  | .faFnms gd t s => some (trigger gd (Machine.twin t .fa .fb) 6 s)
  | .faMin gd t s => some (trigger gd (Machine.twin t .fa .fb) 7 s)
  | .faMax gd t s => some (trigger gd (Machine.twin t .fa .fb) 8 s)
  | .faMinn gd t s => some (trigger gd (Machine.twin t .fa .fb) 9 s)
  | .faMaxn gd t s => some (trigger gd (Machine.twin t .fa .fb) 10 s)
  | .faEq gd t s => some (trigger gd (Machine.twin t .fa .fb) 11 s)
  | .faLt gd t s => some (trigger gd (Machine.twin t .fa .fb) 12 s)
  | .faLe gd t s => some (trigger gd (Machine.twin t .fa .fb) 13 s)
  | .faUn gd t s => some (trigger gd (Machine.twin t .fa .fb) 14 s)
  | .faAbs gd t s => some (trigger gd (Machine.twin t .fa .fb) 15 s)
  | .faNeg gd t s => some (trigger gd (Machine.twin t .fa .fb) 16 s)
  | .faCsgn gd t s => some (trigger gd (Machine.twin t .fa .fb) 17 s)
  | .faRint gd t s => some (trigger gd (Machine.twin t .fa .fb) 18 s)
  | .faFrac gd t s => some (trigger gd (Machine.twin t .fa .fb) 19 s)
  | .xfRcp gd s => some (trigger gd .xf 0 s)
  | .xfRsqrt gd s => some (trigger gd .xf 1 s)
  | .xfSqrt gd s => some (trigger gd .xf 2 s)
  | .xfDiv gd s => some (trigger gd .xf 3 s)
  | .xfExp2 gd s => some (trigger gd .xf 4 s)
  | .xfLog2 gd s => some (trigger gd .xf 5 s)
  | .xfSinpi gd s => some (trigger gd .xf 6 s)
  | .xfCospi gd s => some (trigger gd .xf 7 s)
  | .xfTanh gd s => some (trigger gd .xf 8 s)
  | .xfSigm gd s => some (trigger gd .xf 9 s)
  | .cvUp gd n s => some (trigger gd .cv (0 + n.val) s)
  | .cvDn gd n s => some (trigger gd .cv (8 + n.val) s)
  | .cvDot gd n s => some (trigger gd .cv (16 + n.val) s)
  | .cvSc gd n s => some (trigger gd .cv (24 + n.val) s)
  | .cxF2bf gd s => some (trigger gd .cx 0 s)
  | .cxF2bfZ gd s => some (trigger gd .cx 1 s)
  | .cxF2h gd s => some (trigger gd .cx 2 s)
  | .cxF2hZ gd s => some (trigger gd .cx 3 s)
  | .cxBf2f gd s => some (trigger gd .cx 4 s)
  | .cxH2f gd s => some (trigger gd .cx 5 s)
  | .cxF2i gd s => some (trigger gd .cx 6 s)
  | .cxF2iZ gd s => some (trigger gd .cx 7 s)
  | .cxF2ui gd s => some (trigger gd .cx 8 s)
  | .cxF2uiZ gd s => some (trigger gd .cx 9 s)
  | .cxI2f gd s => some (trigger gd .cx 10 s)
  | .cxUi2f gd s => some (trigger gd .cx 11 s)
  | .cxPack gd s => some (trigger gd .cx 12 s)
  | .cxUnpack gd s => some (trigger gd .cx 13 s)
  | .lsLdB gd s => some (trigger gd .ls 0 s)
  | .lsLdBs gd s => some (trigger gd .ls 1 s)
  | .lsLdH gd s => some (trigger gd .ls 2 s)
  | .lsLdHs gd s => some (trigger gd .ls 3 s)
  | .lsLdW gd s => some (trigger gd .ls 4 s)
  | .lsStB gd s => some (trigger gd .ls 5 s)
  | .lsStH gd s => some (trigger gd .ls 6 s)
  | .lsStW gd s => some (trigger gd .ls 7 s)
  | .lsAtAdd gd s => some (trigger gd .ls 8 s)
  | .lsAtAnd gd s => some (trigger gd .ls 9 s)
  | .lsAtOr gd s => some (trigger gd .ls 10 s)
  | .lsAtXor gd s => some (trigger gd .ls 11 s)
  | .lsAtMinS gd s => some (trigger gd .ls 12 s)
  | .lsAtMaxS gd s => some (trigger gd .ls 13 s)
  | .lsAtMinU gd s => some (trigger gd .ls 14 s)
  | .lsAtMaxU gd s => some (trigger gd .ls 15 s)
  | .lsAtXchg gd s => some (trigger gd .ls 16 s)
  | .lsAtCas gd s => some (trigger gd .ls 17 s)
  | .lsAtFadd gd s => some (trigger gd .ls 18 s)
  | .lsPf gd s => some (trigger gd .ls 19 s)
  | .lsCwb gd s => some (trigger gd .ls 20 s)
  | .lsCinvWb gd s => some (trigger gd .ls 21 s)
  | .lsCinvDis gd s => some (trigger gd .ls 22 s)
  | .lsFence gd s => some (trigger gd .ls 23 s)
  | .lsPol gd s => some (trigger gd .ls 24 s)
  | .spLdB gd s => some (trigger gd .sp 0 s)
  | .spLdH gd s => some (trigger gd .sp 1 s)
  | .spLdW gd s => some (trigger gd .sp 2 s)
  | .spStB gd s => some (trigger gd .sp 3 s)
  | .spStH gd s => some (trigger gd .sp 4 s)
  | .spStW gd s => some (trigger gd .sp 5 s)
  | .spAtAdd gd s => some (trigger gd .sp 6 s)
  | .spAtCas gd s => some (trigger gd .sp 7 s)
  | .spAtXchg gd s => some (trigger gd .sp 8 s)
  | .xlTakeIx gd s => some (trigger gd .xl 0 s)
  | .xlTakeRot gd s => some (trigger gd .xl 1 s)
  | .xlTakeSh gd s => some (trigger gd .xl 2 s)
  | .xlTakeMir gd s => some (trigger gd .xl 3 s)
  | .xlSpread gd s => some (trigger gd .xl 4 s)
  | .xlSum gd s => some (trigger gd .xl 5 s)
  | .xlMinS gd s => some (trigger gd .xl 6 s)
  | .xlMaxS gd s => some (trigger gd .xl 7 s)
  | .xlAnd gd s => some (trigger gd .xl 8 s)
  | .xlOr gd s => some (trigger gd .xl 9 s)
  | .xlFsum gd s => some (trigger gd .xl 10 s)
  | .xlEvery gd s => some (trigger gd .xl 11 s)
  | .xlSome gd s => some (trigger gd .xl 12 s)
  | .xlMask gd s => some (trigger gd .xl 13 s)
  | .xlPreAdd gd s => some (trigger gd .xl 14 s)
  | .xlPreFadd gd s => some (trigger gd .xl 15 s)
  | .quEnq gd s => some (trigger gd .qu 0 s)
  | .quClaim gd s => some (trigger gd .qu 1 s)
  | .quPub gd s => some (trigger gd .qu 2 s)
  | .quBindU gd s => some (trigger gd .qu 3 s)
  | .quBindS gd s => some (trigger gd .qu 4 s)
  | .quUnbind gd s => some (trigger gd .qu 5 s)
  | .quAvail gd s => some (trigger gd .qu 6 s)
  | .quCreate gd s => some (trigger gd .qu 7 s)
  | .quDestroy gd s => some (trigger gd .qu 8 s)
  | .quTsnow gd s => some (trigger gd .qu 9 s)
  | .enCp gd s => some (trigger gd .en 0 s)
  | .enCp2d gd s => some (trigger gd .en 1 s)
  | .enCpb gd s => some (trigger gd .en 2 s)
  | .enCpt gd s => some (trigger gd .en 3 s)
  | .enGa gd s => some (trigger gd .en 4 s)
  | .enSc gd s => some (trigger gd .en 5 s)
  | .enFill gd s => some (trigger gd .en 6 s)
  | .enStatus gd s => some (trigger gd .en 7 s)
  | .mxMma gd n s => some (trigger gd .mx (0 + n.val) s)
  | .mxMms gd n s => some (trigger gd .mx (8 + n.val) s)
  | .mxEpi gd n s => some (trigger gd .mx (16 + n.val) s)
  | .mxReq gd s => some (trigger gd .mx 24 s)
  | .mxRel gd s => some (trigger gd .mx 25 s)
  | .mxRet gd s => some (trigger gd .mx 26 s)
  | .mxZero gd s => some (trigger gd .mx 27 s)
  | .mxAbft gd s => some (trigger gd .mx 28 s)
  | .ctJmp gd s => some (trigger gd .ct 0 s)
  | .ctBr gd s => some (trigger gd .ct 1 s)
  | .ctCall gd s => some (trigger gd .ct 2 s)
  | .ctLoop gd s => some (trigger gd .ct 3 s)
  | .ctLbrk gd s => some (trigger gd .ct 4 s)
  | .ctSpawn gd s => some (trigger gd .ct 5 s)
  | .ctLaunch gd s => some (trigger gd .ct 6 s)
  | .ctExit gd s => some (trigger gd .ct 7 s)
  | .ctBarMeet gd s => some (trigger gd .ct 8 s)
  | .ctBarSign gd s => some (trigger gd .ct 9 s)
  | .ctBarHold gd s => some (trigger gd .ct 10 s)
  | .ctWait gd s => some (trigger gd .ct 11 s)
  | .ctYield gd s => some (trigger gd .ct 12 s)
  | .ctTrap gd s => some (trigger gd .ct 13 s)
  | .ctRcvw gd s => some (trigger gd .ct 14 s)
  | .syRdsr gd s => some (trigger gd .sy 0 s)
  | .syWrsr gd s => some (trigger gd .sy 1 s)
  | .syTlbinv gd s => some (trigger gd .sy 2 s)
  | .syPmap gd s => some (trigger gd .sy 3 s)
  | .sySret gd s => some (trigger gd .sy 4 s)
  | .syMbox gd s => some (trigger gd .sy 5 s)
  | .syLnk gd s => some (trigger gd .sy 6 s)
  | .syDctl gd s => some (trigger gd .sy 7 s)
  | .syInj gd s => some (trigger gd .sy 8 s)
  | .syPart gd s => some (trigger gd .sy 9 s)
  | .bundleIssue => none
  | .bundleFetch => none
  | .bundleDeliveredTrap => none
  | .sequencerFill => none
  | .spillTimeout => none
  | .resultReady => none
  | .loadBind => none
  | .storePerformed => none
  | .atomicPerformed => none
  | .lineOperationPerformed => none
  | .fenceComplete => none
  | .walkComplete => none
  | .windowCommit => none
  | .rollback => none
  | .rollbackEnd => none
  | .escDecay => none
  | .noWindowPeriodEnd => none
  | .leaseExpiry => none
  | .watchNotice => none
  | .hostAccess => none
  | .hostGrant => none
  | .hostRecall => none
  | .drawerRequest => none
  | .outboundSwath => none
  | .inboundSwath => none
  | .frameBoundary => none
  | .fecWindowEnd => none
  | .retrainStart => none
  | .handBack => none
  | .channelFailure => none
  | .fullRetrainEnd => none
  | .autoWake => none
  | .wakeEnd => none
  | .linkStall => none
  | .peerPacket => none
  | .peerTimeout => none
  | .queueControllerOp => none
  | .queueAnswer => none
  | .latchRefill => none
  | .engineLineTransfer => none
  | .releasePoint => none
  | .batonGrant => none
  | .agingPromotion => none
  | .batonRelease => none
  | .watchdog => none
  | .mmaComplete => none
  | .retComplete => none
  | .epiChunk => none
  | .barrierTimeout => none
  | .mailboxPost => none
  | .cmack => none
  | .resume => none
  | .killwave => none
  | .killteam => none
  | .lqdoor => none
  | .launchAccept => none
  | .placement => none
  | .teamTransfer => none
  | .stealRequest => none
  | .stealAnswer => none
  | .yieldDeadline => none
  | .waitSwap => none
  | .teamSwap => none
  | .launchComplete => none
  | .completionRetry => none
  | .resize => none
  | .spawnBinArrival => none
  | .binTimeout => none
  | .taskWavePending => none
  | .dieStatus => none
  | .dieQuiesce => none
  | .writeBack => none
  | .reHome => none
  | .homeOffline => none
  | .dieReset => none
  | .selftest => none
  | .dieReadmit => none
  | .copyBack => none
  | .dieFailure => none
  | .coldStart => none
  | .supplySag => none
  | .stretchFall => none
  | .temperatureSensor => none
  | .featack => none
  | .attctl => none
  | .attestationReport => none
  | .swcommit => none
  | .lctl => none
  | .berthr => none
  | .qtbase => none
  | .qtlen => none
  | .ptbase => none
  | .mwbase => none
  | .mwlim => none
  | .clvlo => none
  | .clvhi => none
  | .msixUnmask => none
  | .registerWrite => none
  | .injAbft => none
  | .injSoft => none
  | .injUncorr => none
  | .injTwin => none
  | .storeBufferEntryReady => none
  | .scratchpadWriteBack => none
  | .dieOffline => none
  | .homeTableUpdate => none
  | .biasFlip => none
  | .softError => none
  | .dieTlbLookup => none
  | .launchDistribution => none

/-- The move word of an instruction, if it is a move. -/
def encode (i : Instr) : Option Nat := (moveFields i).map packMove

/-- A header's word (R44). -/
def encodeHeader (h : Header) : Nat :=
  h.nmov.val * 2 ^ 29 + h.nlim.val * 2 ^ 27 + h.pop.val * 2 ^ 23 + (if h.rcv then 2 ^ 22 else 0) + h.jtok.val * 2 ^ 18
    + h.rtok.val * 2 ^ 14 + (if h.region then 2 ^ 13 else 0)

/-- The opcode table's word of `nbits` bits: a move is one 32-bit word, and every bit above `nbits` is zero. -/
def decodeTableWord (nbits w : Nat) : Option Instr :=
  match decodeMove (w % 2 ^ nbits % 2 ^ 32) with
  | .ok i => some i
  | .error _ => none

end Sys2Proof
end

