-- ==== Sys2Proof/Config.lean ====
section
/-! DEFINITION. What an implementation fixes and the spec leaves open: free values, each an opaque constant. -/
namespace Sys2Proof

/-- Whether the reference oscillator completes a nanosecond in a core cycle: the spec fixes no number of nanoseconds for
a number of cycles (R220); a cycle lasts at most 2/3 ns (R423), so at most one. Arguments: stretch level, which sets the cycle's length (R423), and cycle
number. (DESIGN CHOICE, log 36) -/
opaque Config.nsTick : Nat → Nat → Bool

/-- Nanoseconds from power-good to the end of the boot (R420: not fixed). (DESIGN CHOICE, log 85) -/
opaque Config.bootNs : Nat

/-- Cycles of the parts of the boot whose length the spec does not give: image read, checks and training of the ring and
host links (R420). (DESIGN CHOICE, log 85) -/
opaque Config.bootCycles : Nat

/-- Whether the firmware image's two signatures verify (R421): the image is the host's. (DESIGN CHOICE, log 85) -/
opaque Config.imageVerifies : Bool

/-- Whether a self-test passes (R416, R421): one value for each number. (DESIGN CHOICE, log 85) -/
opaque Config.selfTestPasses : Nat → Bool

/-- Bytes of the SHA-384 measurement of the firmware image (R420, R421): the image is the host's. (DESIGN CHOICE, log 85) -/
opaque Config.measureByte : Nat → BitVec 8

/-- Bytes of the two signatures of an attestation report (R421): report number, byte. (DESIGN CHOICE, log 85) -/
opaque Config.attestByte : Nat → Nat → BitVec 8

/-- Whether a WATCHDOG kills the holder, as R358 and R376 say, or stops it until its manager acts, as R237 and R365 say. (DESIGN CHOICE, log 34) -/
opaque Config.watchdogKills : Bool

/-- Cycles from a request for an attestation report to the report: the spec gives no figure. (DESIGN CHOICE, log 85) -/
opaque Config.attestCycles : Nat → Nat

/-- Quotient and remainder of a division by 0 in a shadow lane, which raises no ARITH (R114, R112 gives none): signed, dividend. (DESIGN CHOICE, log 97) -/
opaque Config.divByZero : Bool → BitVec 32 → BitVec 32 × BitVec 32

/-- Result and status of a dot of two widths in a shadow lane, which raises no ARITH (R143, R148): the widths, the two packed words and the addend.
(DESIGN CHOICE, log 120) -/
opaque Config.dotOfUnequal : Nat → Nat → BitVec 32 → BitVec 32 → BitVec 32 → BitVec 32 × BitVec 32

/-- Words a pop delivers from a ring slot that is no longer mapped (R471), and the trailing words of an operation whose
result the spec leaves unspecified: one value for each number. (DESIGN CHOICE, log 23, 45, 52, 84) -/
opaque Config.freeWord : Nat → BitVec 32

end Sys2Proof
end

