-- ==== Sys2Proof/Machine/Format.lean ====
section
/-! DEFINITION. Number formats, conversions, exact sums and block scales (04_number_formats.md). -/
namespace Sys2Proof.Machine

/-- The element and scale formats of R80. -/
inductive Fmt | fp32 | bf16 | fp16 | e4m3 | e5m2 | e2m1 | int8 | int4 | e8m0
deriving DecidableEq, Repr

/-- The two rounding modes (R91). -/
inductive Rnd | rne | rtz
deriving DecidableEq, Repr

/-- An exact real number: the sign, and the magnitude `num / den` with `den` positive. Zero keeps its sign. -/
structure Exact where
  neg : Bool
  num : Nat
  den : Nat
deriving DecidableEq, Repr

/-- An operand of a conversion: an FP32 NaN, an infinity or an exact real (R86, R87). -/
inductive XVal
  | nan (code : Word)
  | inf (neg : Bool)
  | fin (x : Exact)
deriving DecidableEq, Repr

/-- What CVT_DN returns: the code and the two event bits (R86, R90). -/
structure Cvt where
  code : Nat
  inx : Bool
  ovf : Bool
deriving DecidableEq, Repr

/-- The format a 4-bit code names (R80); reserved codes name none. -/
def Fmt.ofCode : Nat → Option Fmt
  | 0 => some .fp32 | 1 => some .bf16 | 2 => some .fp16 | 3 => some .e4m3 | 4 => some .e5m2
  | 5 => some .e2m1 | 6 => some .int8 | 7 => some .int4 | 8 => some .e8m0 | _ => none

/-- Element width in bits (R80). -/
def Fmt.width : Fmt → Nat
  | .fp32 => 32 | .bf16 => 16 | .fp16 => 16 | .e4m3 => 8 | .e5m2 => 8 | .e2m1 => 4 | .int8 => 8 | .int4 => 4 | .e8m0 => 8

/-- Whether the codes are integers (R84). -/
def Fmt.isInt : Fmt → Bool
  | .int8 | .int4 => true
  | _ => false

/-- Number of fraction bits p (R81). -/
def Fmt.frac : Fmt → Nat
  | .fp32 => 23 | .bf16 => 7 | .fp16 => 10 | .e4m3 => 3 | .e5m2 => 2 | .e2m1 => 1 | .int8 => 0 | .int4 => 0 | .e8m0 => 0

/-- Exponent of the smallest normal value (R81). -/
def Fmt.emin : Fmt → Int
  | .fp32 => -126 | .bf16 => -126 | .fp16 => -14 | .e4m3 => -6 | .e5m2 => -14 | .e2m1 => 0 | _ => 0

/-- The code of MAX, without its sign (R82). -/
def Fmt.maxCode : Fmt → Nat
  | .fp32 => 0x7F7FFFFF | .bf16 => 0x7F7F | .fp16 => 0x7BFF | .e4m3 => 0x7E | .e5m2 => 0x7B | .e2m1 => 0x7
  | .int8 => 127 | .int4 => 7 | .e8m0 => 0xFE

/-- The code of infinity, without its sign, in a format that has one (R82). -/
def Fmt.infCode? : Fmt → Option Nat
  | .fp32 => some 0x7F800000 | .bf16 => some 0x7F80 | .fp16 => some 0x7C00 | .e5m2 => some 0x7C | _ => none

/-- EMAX of R102. -/
def Fmt.emax : Fmt → Int
  | .e4m3 => 8 | .e5m2 => 15 | .e2m1 => 2 | .int8 => 6 | .int4 => 2 | _ => 0

/-- The default NaN, the only one the device creates (R82). -/
def defaultNan : Word := 0x7FC00000#32

def Exact.zero (neg : Bool) : Exact := ⟨neg, 0, 1⟩

/-- `x × 2^e`, exactly. -/
def Exact.scale (x : Exact) (e : Int) : Exact :=
  if 0 ≤ e then { x with num := x.num * 2 ^ e.toNat } else { x with den := x.den * 2 ^ (-e).toNat }

/-- The real number of an integer (zero is +0). -/
def Exact.ofInt (i : Int) : Exact := ⟨decide (i < 0), i.natAbs, 1⟩

/-- The signed numerator. -/
def Exact.signed (x : Exact) : Int := if x.neg then -(x.num : Int) else x.num

def Exact.isZero (x : Exact) : Bool := x.num == 0

/-- `x × y`; a zero product has the exclusive OR of the signs (R132). -/
def Exact.mul (x y : Exact) : Exact := ⟨x.neg != y.neg, x.num * y.num, x.den * y.den⟩

def Exact.negate (x : Exact) : Exact := { x with neg := !x.neg }

/-- `x + y` under the zero-sign rules of R132: two zeros of one sign keep it, every other exact zero sum is +0. -/
def Exact.add (x y : Exact) : Exact :=
  let n : Int := x.signed * y.den + y.signed * x.den
  if n = 0 then
    (if x.isZero && y.isZero then .zero (x.neg && y.neg) else .zero false)
  else ⟨decide (n < 0), n.natAbs, x.den * y.den⟩

/-- `|x| < 2^e`. -/
def Exact.absLt (x : Exact) (e : Int) : Bool :=
  let b : Exact := (⟨false, 1, 1⟩ : Exact).scale e
  decide (x.num * b.den < b.num * x.den)

/-- `x < y` for exact reals (+0 = -0). -/
def Exact.lt (x y : Exact) : Bool := decide (x.signed * y.den < y.signed * x.den)

def Exact.eq (x y : Exact) : Bool := decide (x.signed * y.den = y.signed * x.den)

/-- floor(log2(num / den)) for positive `num` and `den`. -/
def floorLog2 (num den : Nat) : Int :=
  let k : Int := (Nat.log2 num : Int) - (Nat.log2 den : Int)
  let b : Exact := (⟨false, 1, 1⟩ : Exact).scale k
  if b.num * den ≤ num * b.den then k else k - 1

/-- Rounds the non-negative quotient `num / den` to an integer (R86): to nearest with ties to even, or down. -/
def roundQuot (rnd : Rnd) (num den : Nat) : Nat :=
  let n := num / den
  let r := num % den
  match rnd with
  | .rtz => n
  | .rne => if 2 * r < den then n else if den < 2 * r then n + 1 else if n % 2 = 0 then n else n + 1

/-- Takes an FP32 code apart (R81, R82). -/
def ofFp32 (v : Word) : XVal :=
  let n := v.toNat
  let s := v.getLsbD 31
  let e : Nat := (n / 2 ^ 23) % 256
  let m : Nat := n % 2 ^ 23
  if e = 255 then (if m = 0 then .inf s else .nan v)
  else if e = 0 then .fin ((⟨s, m, 1⟩ : Exact).scale (-149))
  else .fin ((⟨s, 2 ^ 23 + m, 1⟩ : Exact).scale ((e : Int) - 150))

/-- The signed zero, MAX or infinity patterns of an FP32 sign bit. -/
def signBit (neg : Bool) (w : Nat) : Nat := if neg then 2 ^ (w - 1) else 0

/-- The FP32 infinity of a sign. -/
def fpInf (neg : Bool) : Word := BitVec.ofNat 32 (signBit neg 32 + 0x7F800000)

/-- The FP32 zero of a sign. -/
def fpZero (neg : Bool) : Word := BitVec.ofNat 32 (signBit neg 32)

def isNan (v : Word) : Bool := decide ((v.toNat / 2 ^ 23) % 256 = 255 ∧ v.toNat % 2 ^ 23 ≠ 0)

/-- A signalling NaN: M[22] is 0 (R82). -/
def isSnan (v : Word) : Bool := isNan v && !v.getLsbD 22

/-- The NaN with M[22] set to 1 (R100, R133). -/
def quiet (v : Word) : Word := v ||| 0x00400000#32

def isInf (v : Word) : Bool := decide (v.toNat % 2 ^ 31 = 0x7F800000)

/-- Rounds a finite, non-zero magnitude to a format of R81; the magnitude code has no upper exponent limit (R86). -/
def roundMag (f : Fmt) (rnd : Rnd) (num den : Nat) : Nat × Bool :=
  let k := max (floorLog2 num den) f.emin
  let q : Exact := (⟨false, num, den⟩ : Exact).scale ((f.frac : Int) - k)
  let n := roundQuot rnd q.num q.den
  ((k - f.emin).toNat * 2 ^ f.frac + n, decide (n * q.den ≠ q.num))

/-- CVT_DN of a finite, non-zero real to a floating-point format (R86). An overflow sets INX as well: the result's
value differs from x (R90). (DEDUCED, log 5) -/
def cvtDnFinite (x : Exact) (f : Fmt) (rnd : Rnd) (sat : Bool) : Cvt :=
  let (c, inx) := roundMag f rnd x.num x.den
  let s := signBit x.neg f.width
  if c ≤ f.maxCode then ⟨s + c, inx, false⟩
  else if rnd = .rtz ∨ sat ∨ f = .e2m1 then ⟨s + f.maxCode, true, true⟩
  else match f.infCode? with
    | some i => ⟨s + i, true, true⟩
    | none => ⟨s + 0x7F, true, true⟩

/-- CVT_DN to INT8 or INT4 (R88). -/
def cvtDnInt (x : XVal) (f : Fmt) (rnd : Rnd) : Cvt :=
  let hi : Int := f.maxCode
  let lo : Int := -hi - 1
  let enc (i : Int) : Nat := (i % (2 : Int) ^ f.width).toNat
  match x with
  | .nan _ => ⟨0, false, true⟩
  | .inf neg => ⟨enc (if neg then lo else hi), false, true⟩
  | .fin r =>
    let m := roundQuot rnd r.num r.den
    let n : Int := if r.neg then -(m : Int) else m
    let c := max lo (min hi n)
    ⟨enc c, decide (m * r.den ≠ r.num), decide (c ≠ n)⟩

/-- CVT_DN to E8M0 (R89). -/
def cvtDnE8m0 (x : XVal) : Nat :=
  match x with
  | .nan _ => 0xFF
  | .inf _ => 0xFF
  | .fin r => if r.isZero || r.absLt (-127) then 0
              else (min (floorLog2 r.num r.den + 127) 254).toNat

/-- A NaN entering a format with a payload (R92), E4M3 or E2M1 (R87). -/
def cvtDnNan (v : Word) (f : Fmt) : Cvt :=
  let mx := v.toNat % 2 ^ 23
  let s := v.getLsbD 31
  let keep (p expo : Nat) : Cvt :=
    let m := mx / 2 ^ (23 - p)
    ⟨signBit s f.width + expo + (if m = 0 then 1 else m), false, false⟩
  match f with
  | .fp32 => ⟨v.toNat, false, false⟩
  | .bf16 => keep 7 0x7F80
  | .fp16 => keep 10 0x7C00
  | .e5m2 => keep 2 0x7C
  | .e4m3 => ⟨signBit s 8 + 0x7F, false, false⟩
  | .e2m1 => ⟨signBit s 4 + 7, false, true⟩
  | _ => ⟨0, false, true⟩

/-- An infinity entering a floating-point format (R87). -/
def cvtDnInf (neg : Bool) (f : Fmt) (sat : Bool) : Cvt :=
  let s := signBit neg f.width
  match f.infCode? with
  | some i => ⟨s + i, false, false⟩
  | none => match f with
    | .e4m3 => ⟨s + (if sat then 0x7E else 0x7F), false, true⟩
    | _ => ⟨s + f.maxCode, false, true⟩

/-- CVT_DN(x, f, rnd, sat) (R86 to R92). -/
def cvtDn (x : XVal) (f : Fmt) (rnd : Rnd) (sat : Bool) : Cvt :=
  if f = .e8m0 then ⟨cvtDnE8m0 x, false, false⟩
  else if f.isInt then cvtDnInt x f rnd
  else match x with
    | .nan v => cvtDnNan v f
    | .inf neg => cvtDnInf neg f sat
    | .fin r => if r.isZero then ⟨signBit r.neg f.width, false, false⟩ else cvtDnFinite r f rnd sat

/-- RNE_FP32(x) (R9). -/
def rneFp32 (x : Exact) : Word := BitVec.ofNat 32 (cvtDn (.fin x) .fp32 .rne false).code

/-- Reads a small floating-point code with `p` fraction bits and smallest normal exponent `emin`, as an exact real. -/
def smallFin (width p : Nat) (emin : Int) (v : Nat) : Exact :=
  let s := decide (2 ^ (width - 1) ≤ v)
  let a := v % 2 ^ (width - 1)
  let e := a / 2 ^ p
  let m := a % 2 ^ p
  if e = 0 then (⟨s, m, 1⟩ : Exact).scale (emin - p)
  else (⟨s, 2 ^ p + m, 1⟩ : Exact).scale (emin + (e : Int) - 1 - p)

/-- CVT_UP(v, f) (R85): the FP32 code, exactly; NaNs keep their state. -/
def cvtUp (v : Nat) (f : Fmt) : Word :=
  match f with
  | .fp32 => BitVec.ofNat 32 v
  | .bf16 => BitVec.ofNat 32 ((v % 2 ^ 16) * 2 ^ 16)
  | .fp16 =>
    let v := v % 2 ^ 16
    let s := decide (2 ^ 15 ≤ v)
    if v / 2 ^ 10 % 32 = 31 then BitVec.ofNat 32 (signBit s 32 + 0x7F800000 + (v % 2 ^ 10) * 2 ^ 13)
    else rneFp32 (smallFin 16 10 (-14) v)
  | .e4m3 =>
    let v := v % 256
    if v % 128 = 127 then BitVec.ofNat 32 (signBit (decide (128 ≤ v)) 32 + 0x7FC00000) else rneFp32 (smallFin 8 3 (-6) v)
  | .e5m2 =>
    let v := v % 256
    if v / 4 % 32 = 31 then BitVec.ofNat 32 (signBit (decide (128 ≤ v)) 32 + 0x7F800000 + (v % 4) * 2 ^ 21)
    else rneFp32 (smallFin 8 2 (-14) v)
  | .e2m1 => rneFp32 (smallFin 4 1 0 (v % 16))
  | .int8 => rneFp32 (Exact.ofInt (BitVec.ofNat 8 v).toInt)
  | .int4 => rneFp32 (Exact.ofInt (BitVec.ofNat 4 v).toInt)
  | .e8m0 =>
    let e := v % 256
    if e = 255 then defaultNan else if e = 0 then 0x00400000#32 else BitVec.ofNat 32 (e * 2 ^ 23)

/-- The integer an INT8 or INT4 code stands for (R84). -/
def intCode (f : Fmt) (v : Nat) : Int :=
  match f with
  | .int4 => (BitVec.ofNat 4 v).toInt
  | _ => (BitVec.ofNat 8 v).toInt

/-- Element `k` of a packed value: bits [k×W+W−1 : k×W] (R96). -/
def element (f : Fmt) (v k : Nat) : Nat := (v / 2 ^ (f.width * k)) % 2 ^ f.width

/-- Elements in a 32-bit word (R96). -/
def Fmt.perWord (f : Fmt) : Nat := 32 / f.width

/-- The slot descriptor fields of R93 that the operations read. -/
structure FmtSlot where
  afmt : Fmt
  bfmt : Fmt
  scaled : Bool
  accInt : Bool
  ofmt : Fmt
  sat : Bool
  rnd : Rnd
  trl : Bool
deriving DecidableEq, Repr

/-- The bits [hi:lo] of a natural number. -/
def bitsOf (v hi lo : Nat) : Nat := (v / 2 ^ lo) % 2 ^ (hi - lo + 1)

/-- Reads a valid slot descriptor (R93); an element code it reserves reads as FP32 (a valid slot holds none, R94). -/
def FmtSlot.ofBits (d : Dword) : FmtSlot :=
  let v := d.toNat
  let fmt (c : Nat) : Fmt := (Fmt.ofCode c).getD .fp32
  { afmt := fmt (bitsOf v 3 0), bfmt := fmt (bitsOf v 7 4), scaled := bitsOf v 11 8 == 8, accInt := bitsOf v 15 14 == 1,
    ofmt := fmt (bitsOf v 19 16), sat := bitsOf v 20 20 == 1, rnd := if bitsOf v 22 21 = 1 then .rtz else .rne,
    trl := bitsOf v 23 23 == 1 }

/-- The slot rules of R94, with NARROW4 of R422 as `narrow4`. -/
def slotValid (d : Dword) (narrow4 : Bool) : Bool :=
  let v := d.toNat
  let a := bitsOf v 3 0
  let b := bitsOf v 7 4
  let o := bitsOf v 19 16
  let isInt (c : Nat) : Bool := c == 6 || c == 7
  let isFour (c : Nat) : Bool := c == 5 || c == 7
  bitsOf v 63 24 == 0 && a ≤ 7 && b ≤ 7 && o ≤ 7
    && (bitsOf v 11 8 == 0 || bitsOf v 11 8 == 8) && bitsOf v 13 12 ≤ 1 && bitsOf v 15 14 ≤ 1 && bitsOf v 22 21 ≤ 1
    && ((bitsOf v 11 8 == 8) == (bitsOf v 13 12 == 1))
    && (bitsOf v 15 14 == 0 || (isInt a && isInt b && bitsOf v 11 8 == 0))
    && (bitsOf v 23 23 == 0 || (3 ≤ o && o ≤ 7))
    && (narrow4 || !(isFour a || isFour b || isFour o))

/-- The result of DOTSUM with what cv.dot's status word needs: whether row 3 of R100 decided, and the rounding events. -/
structure DotOut where
  code : Word
  invalid : Bool
  inx : Bool
  ovf : Bool
  unf : Bool
deriving DecidableEq, Repr

/-- One term of an exact sum: two element codes and their scale codes (R98). -/
structure Term where
  a : Nat
  b : Nat
  sa : Nat
  sb : Nat
deriving DecidableEq, Repr

/-- The first NaN of a term in the order a, b, sa, sb, as its CVT_UP image (R100 row 2). -/
def Term.nan? (fa fb : Fmt) (t : Term) : Option Word :=
  [cvtUp t.a fa, cvtUp t.b fb, if t.sa = 255 then defaultNan else 0#32, if t.sb = 255 then defaultNan else 0#32].find? isNan

/-- The product of a term with no NaN: an infinity, 0 × infinity (none), or an exact real. -/
def Term.product (fa fb : Fmt) (t : Term) : Option XVal :=
  match ofFp32 (cvtUp t.a fa), ofFp32 (cvtUp t.b fb) with
  | .fin x, .fin y => some (.fin ((x.mul y).scale ((t.sa : Int) + t.sb - 254)))
  | .inf s, .inf u => some (.inf (s != u))
  | .inf s, .fin y => if y.isZero then none else some (.inf (s != y.neg))
  | .fin x, .inf u => if x.isZero then none else some (.inf (x.neg != u))
  | _, _ => none

/-- The exponent of the fixed point in which exact sums are formed: every term of R98 is a multiple of 2^−600. -/
def dotPoint : Nat := 600

/-- An exact term as an integer multiple of 2^−600. -/
def Exact.fixed (x : Exact) : Int :=
  let n := x.num * 2 ^ dotPoint / x.den
  if x.neg then -(n : Int) else n

/-- DOTSUM(C, a, b, sa, sb, K) (R98, R100). -/
def dotSum (fa fb : Fmt) (c : Word) (ts : List Term) : DotOut :=
  let plain (w : Word) : DotOut := ⟨w, false, false, false, false⟩
  if isNan c then plain (quiet c)
  else match ts.findSome? (Term.nan? fa fb) with
  | some n => plain (quiet n)
  | none =>
    let ps := ts.map (Term.product fa fb)
    let infs : List Bool := (ps.filterMap fun p => match p with | some (.inf s) => some s | _ => none)
      ++ (match ofFp32 c with | .inf s => [s] | _ => [])
    let bad := ps.any (· == none) || (infs.contains true && infs.contains false)
    if bad then { plain defaultNan with invalid := true }
    else match infs with
    | s :: _ => plain (fpInf s)
    | [] =>
      let fins : List Exact := ps.filterMap fun p => match p with | some (.fin r) => some r | _ => none
      let c0 : Exact := match ofFp32 c with | .fin r => r | _ => .zero false
      let sum := fins.foldl (fun acc r => acc + r.fixed) c0.fixed
      if sum = 0 then plain (fpZero (c0.isZero && c0.neg && fins.all fun r => r.isZero && r.neg))
      else
        let x : Exact := ⟨decide (sum < 0), sum.natAbs, 2 ^ dotPoint⟩
        let r := cvtDn (.fin x) .fp32 .rne false
        ⟨BitVec.ofNat 32 r.code, false, r.inx, r.ovf, r.inx && x.absLt (-126)⟩

/-- The integer sum of R101, modulo 2^32. -/
def dotInt (fa fb : Fmt) (c : Word) (ts : List Term) : Word :=
  BitVec.ofInt 32 (ts.foldl (fun acc t => acc + intCode fa t.a * intCode fb t.b) c.toInt)

/-- The codes of one group of a quantised tile (R102): the scale byte, the element codes and how many set OVF. -/
structure GroupOut where
  scale : Nat
  codes : List Nat
  sat : Nat
deriving DecidableEq, Repr

/-- The largest magnitude of the finite values of a list. -/
def maxMag : List Word → Nat
  | [] => 0
  | v :: t => max (v.toNat % 2 ^ 31) (maxMag t)

/-- Converts one group of 32 columns under a slot (R102). A clamp of the block scale counts once for each element (R90). -/
def convGroup (sl : FmtSlot) (vs : List Word) : GroupOut :=
  let bad := vs.any fun v => isNan v || isInf v
  let m := maxMag vs
  let mx : Exact := match ofFp32 (BitVec.ofNat 32 m) with | .fin r => r | _ => .zero false
  let t : Int := floorLog2 mx.num mx.den - sl.ofmt.emax + 127
  let (es, clamp) : Nat × Bool :=
    if !sl.scaled then (127, false) else if bad then (255, false) else if m = 0 then (127, false)
    else ((max 0 (min 254 t)).toNat, decide (254 < t))
  let conv (v : Word) : Cvt :=
    let x := match ofFp32 v with
      | .fin r => if es = 255 then .fin r else .fin (r.scale (127 - (es : Int)))
      | y => y
    cvtDn x sl.ofmt sl.rnd sl.sat
  let cs := vs.map conv
  { scale := es, codes := cs.map (·.code), sat := (cs.filter fun c => c.ovf || clamp).length }

/-- MAXABS of the trailer (R104). -/
def maxAbs (vs : List Word) : Word :=
  if vs.any isNan then defaultNan else BitVec.ofNat 32 (maxMag vs)

/-- SUM1 and SUM2 of the trailer over the words of the elements and scales regions (R104). -/
def trailerSums (ws : List Word) : Word × Word :=
  let r := ws.foldl (fun (acc : Nat × Nat × Nat) w => (acc.1 + w.toNat, acc.2.1 + (acc.2.2 + 1) * w.toNat, acc.2.2 + 1)) (0, 0, 0)
  (BitVec.ofNat 32 r.1, BitVec.ofNat 32 r.2.1)

end Sys2Proof.Machine
end

