-- ==== Sys2Proof/Machine/Records.lean ====
section
/-! DEFINITION. The records State is made of: register contexts, fragments, accesses, windows, traps, waves, teams,
caches, cores, clovers, queues, engine commands, links, dies, launches, partitions and host requests. All of it is plain
data. A field's docstring names the rule that gives the machine that piece of state; a field marked MODEL is the model's
own bookkeeping of an operation in progress. -/
namespace Sys2Proof.Machine

/-- A level of a loop stack (R26). -/
structure Level where
  start : Dword
  fin : Dword
  count : Word
  index : Word
deriving DecidableEq, Repr

/-- What a fragment waits for beside R57 (R175, R189, R193, R369). -/
inductive Hold
  | none
  /-- ct.wait: limits on LDC, STC, CPC and TLC (R193). -/
  | counters (l s c t : Nat)
  /-- bar.meet or bar.hold on barrier `k` for lanes `m` (R189). -/
  | barrier (k : Nat) (m : Mask)
  /-- Stopped at a yield or safe point, waiting for the team's swap (R369). -/
  | stopped
deriving DecidableEq, Repr

/-- Progress of the fetch of a fragment's next bundle (R46). -/
inductive Fetch
  | need
  /-- A page of it is being looked up (R324), or its time has not come (R61). -/
  | look
  /-- It waits at translation for an invalidation: another handler owns a POOL entry, or a page is changing its bias (R331, R334). -/
  | held
  /-- Lines that are on their way to the instruction cache. -/
  | busy (lines : List Nat)
  | ready
  /-- The fetch faulted: the trap cause and its address (R46). -/
  | bad (cause : Nat) (addr : Dword)
deriving DecidableEq, Repr

/-- What a page walk or a TLB look-up found for a 64 KiB page (R321, R322, R325). -/
structure Page where
  /-- VA[63:16] of the page; a 512 MiB page has its low 13 bits zero. -/
  vpn : Nat
  big : Bool
  part : Nat
  /-- PA of the frame. -/
  pa : Nat
  r : Bool
  w : Bool
  x : Bool
  supo : Bool
  coh : Nat
  dis : Bool
  hb : Bool
  flip : Bool
  /-- It is the 64 KiB part of a 512 MiB page that a last-page register holds (R324, R325). -/
  whole : Bool := false
deriving DecidableEq, Repr

/-- The outcome of translating one page (R322, R331). -/
inductive Xlate
  | page (p : Page)
  | fault
  | pool
  /-- A POOL leaf another handler owns: the lanes wait (R331). -/
  | claimed
deriving DecidableEq, Repr

/-- A capture block: the bundle's words and what was read at bundle start (R359). -/
structure Capture where
  /-- Address of the bundle. -/
  addr : Dword
  header : Nat
  words : List Nat
  longs : List Word
  /-- Length in bytes (R43). -/
  len : Nat
  /-- The fragment's mask. -/
  mask : Mask
  /-- Enabled lanes of each slot. -/
  en : Map Mask
  /-- Source values: key 32 × slot + lane. -/
  src : Map Dword
  /-- MODEL: records each head latch held when the bundle started: A of R218. -/
  avail : List Nat
  /-- MODEL: a ct.yield that takes effect has committed in it, and its end is still to come (R194). -/
  yielded : Bool := false
  /-- MODEL: lengths of END bundles that its committed slots have read, by slot (R180, R182, R363). -/
  ends : Map Nat := []
deriving DecidableEq, Repr

/-- A bundle whose phases 4 to 7 are still to come: delayed by R60, by a hold-back (R153) or by re-entry (R363). -/
structure Partial where
  cap : Capture
  /-- First slot that takes effect; slots below it committed before a trap (R363). -/
  first : Nat
  /-- MODEL: page translations found for it so far, by VA[63:16]. -/
  pages : List (Nat × Xlate)
  /-- MODEL: pages that are being looked up for it, by VA[63:16] (R324). -/
  look : List Nat := []
  /-- MODEL: the state of R31's merge trap or of a walk in progress: cycle from which it may go on. -/
  due : Nat
deriving DecidableEq, Repr

/-- A sequencer record (R26) with what the sequencer holds of the fragment. -/
structure Seq where
  pc : Dword
  mask : Mask
  /-- STATE 2 and PTOK: the token on which the fragment is parked. -/
  parked : Option Nat
  /-- The loop stack, innermost level first; DEPTH is its length. -/
  loops : List Level
  hold : Hold
  fetch : Fetch
  /-- MODEL: page translations that the fetch of its next bundle has found, by VA[63:16] (R46). -/
  pages : List (Nat × Xlate) := []
  /-- MODEL: earliest cycle of its next issue (R61). -/
  due : Nat
  /-- MODEL: r of R355, the cycle since which it has been ready. -/
  since : Nat
  /-- MODEL: cycle of its parking, spilling or filling, for the ages of R32. -/
  stamp : Nat
  /-- A bundle begun and not finished. -/
  part : Option Partial
  /-- The last bundle issued was END of the innermost loop, ending an iteration (R368). -/
  safe : Bool
  /-- A fragment of the program, held while a handler runs (R361). -/
  kept : Bool
  /-- MODEL: a swap it had stopped for found no free area: it issues once more before it stops again (R352, R369). -/
  go : Bool
  /-- MODEL: its number in the wave: 64 × the cycle of its creation + its lowest lane then (R355). -/
  fid : Nat
  /-- MODEL: its merge raised STACK, which is still to be delivered at its bundle (R31). -/
  stacked : Bool
  /-- MODEL: sy.sret has made its bundle re-enter, and the bundle has not completed (R358, R363). -/
  reenter : Bool
  /-- MODEL: first of the consecutive cycles in which it has been held in a counted wait (R351). -/
  waiting : Option Nat
deriving DecidableEq, Repr

/-- A join-table entry with ACT = 1 (R30). -/
structure Join where
  expect : Mask
  arrived : Mask
deriving DecidableEq, Repr

/-- A full record F0 to F7 (R210). -/
abbrev QRec := List Word

/-- A head latch (R22). -/
structure Head where
  handle : Dword
  spread : Bool
  bound : Bool
  /-- The bound queue was destroyed (R219). -/
  stale : Bool
  /-- Position: index of the first record held. -/
  pos : Word
  recs : List QRec
  /-- MODEL: number of the bind that is to fill it, 0 when none is under way (R217). -/
  wait : Nat := 0
deriving DecidableEq, Repr

/-- An entry of a result FIFO (R15). -/
structure FifoEntry where
  /-- MODEL: number of the access that fills it. -/
  id : Nat
  mask : Mask
  vals : Map Word
  filled : Bool
deriving DecidableEq, Repr

/-- The architectural context of a wave (R35): what a checkpoint or a trap saves. Registers are 32 lanes of 32 bits;
key 32 × vector + lane of `vec`, with the vectors of R284 numbered as in R367. -/
structure Ctx where
  vec : Map Word
  /-- Lanes of each result port whose ready bit is 0 (R12). -/
  busy : Map Mask
  /-- Guards g1 to g7 (R11). -/
  guards : Map Mask
  /-- b0 to b15 (R17). -/
  base : Map Dword
  wstat : Word
  vac : Mask
  heads : Map Head
  ldc : Nat
  stc : Nat
  cpc : Nat
  tlc : Nat
  /-- ETAG, the engine command counter (R221). -/
  etag : Word
  /-- The ls policy word (R164). -/
  pol : Word
  lsFifo : List FifoEntry
  spFifo : List FifoEntry
  /-- Values received from the last FIFO entry that named the lane (R15), ls then sp. -/
  lsLast : Map Word
  spLast : Map Word
  seqs : Map Seq
  spill : Map Seq
  join : Map Join
  /-- MODEL: most recent operation of each unit and lane (R58), key 32 × unit + lane. -/
  last : Map Nat
deriving DecidableEq, Repr

/-- MODEL: an operation of a lane unit in flight (R58): what it will write, to which ports. -/
structure Pending where
  unit : FuncUnit
  lanes : Mask
  /-- Key 32 × port vector + lane. -/
  vals : Map Word
  ports : List Nat
deriving DecidableEq, Repr

/-- The kinds of access of ls and sp (R150). -/
inductive AccKind
  | load (w : Nat) (signed : Bool)
  | store (w : Nat)
  | atomic (op : Nat)
  | cwb | cinvWb | cinvDis
  | fence (scope : Nat)
deriving DecidableEq, Repr

/-- Where a line of an access lies: in memory, or in a live scratchpad (R305, R316). -/
inductive Place
  | mem (line : Nat)
  | scratch (team : Nat) (line : Nat)
deriving DecidableEq, Repr

/-- One line that an access names. -/
structure LineUse where
  place : Place
  /-- Its line number by physical address; for sp, none is used. -/
  line : Nat
  coh : Nat
  hb : Bool
  lanes : Mask
  /-- The value has been taken, the write made or the line obtained. -/
  done : Bool
  /-- A load's value is on its way back; a store has arrived at the holder; a held store's line is writable (R286). -/
  ready : Bool
  /-- Cycle in which its result reaches the wave (R318). -/
  due : Nat
  /-- It takes a miss slot of the core on its way to the line's home (R319). -/
  slot : Bool := false
deriving DecidableEq, Repr

/-- An ls or sp access in flight, or held in a window's store buffer (R286). -/
structure Access where
  id : Nat
  sp : Bool
  kind : AccKind
  /-- The enabled lanes, and those of them that are no shadow lanes. -/
  en : Mask
  lanes : Mask
  /-- Address or scratchpad offset of each lane. -/
  addr : Map Dword
  /-- Physical byte address of each lane. -/
  pa : Map Nat
  data : Map Word
  data2 : Map Word
  lines : List LineUse
  vals : Map Word
  /-- Issued inside the open window. -/
  win : Bool
  /-- TL of R155. -/
  tl : Nat
  issued : Nat
  /-- A load of the window has bound its value (R288). -/
  arrived : Bool
  /-- Performed (R282). -/
  done : Bool
  /-- A write-back it asked for is not yet accepted by the drawer (R166). -/
  wbs : Nat
  /-- Lanes whose data were poisoned (R156). -/
  poison : Mask
  /-- The policy word at its trigger (R164). -/
  pol : Word := 0
  /-- LINK_STALL was raised for it (R403). -/
  stalled : Bool
  /-- Since which cycle it waits on a DOWN link, and the cycles it did so before (R403). -/
  downFrom : Option Nat := none
  downSum : Nat := 0
deriving DecidableEq, Repr

/-- A trap's delivery (R358, R361). -/
structure Trap where
  cause : Nat
  slot : Nat
  mask : Mask
  info : Dword
  /-- The bundle at which it is delivered, where its rule names one (R31). -/
  pc : Option Dword
  /-- It delivers pending marks: their PEND bits clear at its entry (R123). -/
  pend : Bool := false
deriving DecidableEq, Repr

/-- The saved trap area of a wave (R361, R365). -/
structure TrapArea where
  saved : Ctx
  /-- The sequencer of the trapped fragment. -/
  seq : Nat
  cap : Option Capture
  /-- Register vectors in the handler's undo log (R362). -/
  logged : List Nat
  /-- MODEL: operations from this number on are the handler's. -/
  firstOp : Nat
deriving DecidableEq, Repr

/-- An open run-ahead window (R283). -/
structure Window where
  ckpt : Ctx
  /-- MODEL: operations and accesses from this number on belong to the window. -/
  firstOp : Nat
  /-- Register vectors in the undo log (R284). -/
  logged : List Nat
  /-- Accesses issued in the window (R297). -/
  count : Nat
  /-- Lines from which a load of the window has bound a value (R289). -/
  read : List Place
  /-- Bits of ABN that barrier releases of the window have reported (R191, R291). -/
  abn : Mask
  /-- Armed injections and last-page registers when it opened (R291). -/
  inject : List Nat
  lastPage : Map Page
deriving DecidableEq, Repr

/-- The region snapshot (R370). -/
structure Region where
  seqs : Map Seq
  spill : Map Seq
  join : Map Join
  guards : Map Mask
  base : Map Dword
  rm : Bool
  pol : Word
deriving DecidableEq, Repr

/-- Why a wave or team has stopped (R358, R361, R369). -/
inductive Stop
  | running | trapfail | timeout | watchdog | killed | swapping
deriving DecidableEq, Repr

/-- A resident wave. -/
structure Wave where
  ctx : Ctx
  team : Nat
  /-- Index within the team (R264). -/
  index : Nat
  launch : Nat
  part : Nat
  placed : Nat
  /-- First cycle in which its bundles may issue. -/
  from_ : Nat
  stop : Stop
  pend : Map Pending
  accs : Map Access
  /-- MODEL: number of the next operation or access. -/
  nextOp : Nat
  win : Option Window
  /-- Bundles still to issue without windows (R293). -/
  noWin : Nat
  /-- A rollback runs until this cycle (R291). -/
  rollTill : Nat
  /-- TSTATE (R265). -/
  tstate : Word
  tmask : Mask
  tpc : Dword
  tinfo : Dword
  trap : Option TrapArea
  /-- Pending bundle-delivered traps, oldest first (R358). -/
  traps : List Trap
  region : Option Region
  /-- Last-page registers (R16). -/
  lastPage : Map Page
  /-- Armed TWIN injections, key 32 × unit + lane (R275). -/
  inject : List Nat
  /-- The wave's last 16 engine commands: tag, code and detail (R228). -/
  cmds : List (Word × Nat × Nat)
  /-- A pending mx.req that a swap has taken out of the table: operation, lanes, priority (R237). -/
  mxReq : Option (Nat × Mask × Nat)
  /-- MODEL: numbers of the qu and POP operations not yet carried out at their controller, and of the stores of sy.pmap not yet performed (R282). -/
  quOut : List Nat
  escStamp : Nat
  /-- POOL entries its walks have claimed (R331): PA of the entry, VA[63:16]. -/
  claims : List (Nat × Nat)
  /-- It has been killed. -/
  dead : Bool
deriving DecidableEq, Repr

/-- The bundle in progress, while a step runs it (R56). MODEL. -/
structure Issue where
  wave : Nat
  seq : Nat
  slot : Nat
  /-- Slots from this one on do not take effect (R63). -/
  stop : Nat
  first : Nat
  cap : Capture
  pages : List (Nat × Xlate)
  /-- Outcomes of control moves (R29): key lane. -/
  outs : Map (Option (Dword × Nat))
  /-- A loop level to push (R180). -/
  push : Option Level
  /-- A loop whose COUNT is 0: the next pc (R180). -/
  skip : Option Dword
  /-- A trap taken after its slot commits (R195). -/
  after : Option Trap
  /-- sy.sret stands in the bundle (R270). -/
  sret : Bool
  /-- Hold of the fragment after the bundle. -/
  hold : Hold
  /-- A special register that sy.wrsr writes: it takes effect from the next bundle (R19, R263). -/
  wrsr : Option (Nat × Dword)
deriving DecidableEq, Repr

/-- A line held in an L1 (R303, R307): its lease's last cycle for SI, and the waves whose windows read it (R290). -/
structure L1Line where
  line : Nat
  lease : Option Nat
  spec : List Nat
deriving DecidableEq, Repr

/-- A processor core. -/
structure Core where
  /-- First cycle in which the issue slot is free (R60). -/
  free : Nat
  /-- Wave and fragment number of the previous bundle (R355). -/
  prev : Option (Nat × Nat)
  /-- L1 data cache: lists of lines by set, most recent first (R303). -/
  l1 : Map (List L1Line)
  /-- Instruction cache: lines by set, most recent first (R303). -/
  ic : Map (List Nat)
  /-- MODEL: lines on their way to it (R318). -/
  icDue : List Nat := []
  /-- Core TLB, most recent first (R324). -/
  tlb : List Page
  polign : Dword
  rollbk : Dword
  swaps : Dword
  /-- Free scratchpad by 128-byte granules: the allocations, as start and length in granules (R345). -/
  alloc : List (Nat × Nat)
deriving DecidableEq, Repr

/-- A request in a clover's reservation table (R234). -/
structure MxReq where
  wave : Nat
  /-- MODEL: number of the operation in its unit, and its lanes (R58). -/
  op : Nat
  lanes : Mask
  prio : Nat
  entered : Nat
  /-- Cycle since which it has waited at its priority (R235). -/
  since : Nat
deriving DecidableEq, Repr

/-- ABFT state of an accumulator (R255, R256): checksums as multiples of 2^-600 and modulo 2^32, and tolerances, key
64 × chunk + column. -/
structure Abft where
  on : Bool
  cs : Map Int
  csI : Map Word
  tau : Map Int
  /-- The ACC kinds of the operations so far, INT32 as true; two kinds end the checking (R256). -/
  kinds : List Bool
  /-- MODEL: columns whose checksum has met a value that is no number: the spec gives it none. -/
  bad : List Nat
  /-- Chunks with an injected one-shot failure (R275). -/
  inject : List Nat
deriving DecidableEq, Repr

/-- An mx operation in flight (R248). -/
structure MxOp where
  /-- The issuing wave, while it lives. -/
  wave : Option Nat
  /-- 0 mma or mms, 1 ret, 2 epi. -/
  kind : Nat
  acc : Nat
  /-- MODEL: number of the operation in its unit (R58). -/
  op : Nat
  lanes : Mask
  /-- s of R248. -/
  start : Nat
  /-- Words to write (mma, mms), or words read (ret, epi): key 64 × row + column. -/
  vals : Map Word
  base : Nat
  /-- Of an epilogue: format slot, CTL, DSTR, scales and biases, the checksums, the command of its stores (R251, R254). -/
  slot : Dword
  ctl : Word
  dstr : Nat
  scales : List Word
  biases : List Word
  check : Option Abft
  cmd : Nat
  /-- Conversions that set OVF, chunks stored, and its state (R253). -/
  ovf : Nat
  chunks : Nat
  status : Nat
  /-- Conversions that set OVF, chunk by chunk (R253). -/
  parts : List Nat := []
deriving DecidableEq, Repr

/-- A 32-byte mailbox message (R364). -/
structure Msg where
  bytes : List (BitVec 8)
  /-- Core whose reserved slots it may take. -/
  core : Nat
deriving DecidableEq, Repr

/-- A clover's shared parts: the matrix engine, the mailbox and the B-store. -/
structure Clover where
  /-- CMACT, as the manager last wrote it (R365). -/
  cmact : Dword := 0
  /-- The partition that last held it (R415). -/
  owner : Option Nat := none
  /-- The baton: holder, launch and grant cycle (R234). -/
  baton : Option (Nat × Nat × Nat)
  /-- MODEL: a release or a grant is on the agenda (R235, R236). -/
  releasing : Bool
  granting : Bool
  table : List MxReq
  waiting : List MxReq
  /-- Accumulators: key 2,048 × k + 64 × row + column (R238). -/
  acc : Map Word
  live : List Nat
  abft : Map Abft
  ops : Map MxOp
  nextOp : Nat
  /-- Issue cycle of the previous mma, mms or epi (R247). -/
  lastMx : Option Nat
  /-- Completion of the latest mma or mms on each accumulator (R248). -/
  accTill : Map Nat
  bstore : List Host.Cell
  /-- MODEL: first cycle in which an engine may issue again: 0 copy reads, 1 gather elements, 2 copy writes; lines outstanding (R230). -/
  eng : Map Nat
  engOut : Nat
  /-- Mailbox: slots 0 to 15 reserved (core × 4 + i), 16 to 31 shared (R364). -/
  mail : Map Msg
  mailWait : List Msg
deriving DecidableEq, Repr

/-- Progress of a team (R352). -/
inductive TeamState
  | waiting | resident | swapping | swapped | moving | gone
deriving DecidableEq, Repr

/-- A placed, pending-task or swapped team. -/
structure Team where
  launch : Nat
  number : Word
  task : Bool
  waves : Nat
  state : TeamState
  /-- Core of residence. -/
  core : Nat
  /-- Wave slots by wave index. -/
  slots : Map Nat
  /-- Waves killed, and waves retired. -/
  killed : List Nat
  retired : List Nat
  scratch : Nat
  /-- First granule of the allocation (R345). -/
  granule : Nat
  /-- The scratchpad's bytes (R37). -/
  bytes : List Host.Cell
  /-- Mapping entries of its scratch window (R316): first PA, offset, length. -/
  window : List (Nat × Nat × Nat)
  /-- Waves whose windows read each scratchpad line (R290). -/
  spec : Map (List Nat)
  /-- ARR[w] of barrier k: key 4 × w + k; PH; timers as accumulated cycles and the start of the running count (R188, R192). -/
  arr : Map Mask
  ph : Map Word
  timer : Map Nat
  timing : Map Nat
  /-- The barrier whose time-out has stopped the team (R365, R377). -/
  timedOut : Option Nat := none
  abn : Map Mask
  /-- Owning die and die of residence (R344). -/
  owner : Nat
  placed : Nat
  /-- YREQ's deadline (R369). -/
  deadline : Option Nat
  past : Bool
  lastIssue : Nat
  /-- The saved waves, and the context area (R366). -/
  saved : Map Wave
  area : Option Dword
  args : Map Dword
  /-- Threads of a task wave: entry and six words (R349). -/
  entry : Dword
  threads : List (List Word)
  moved : Bool
  /-- MODEL: how far a swap or its end has come: 0 none or draining, 1 the context is being written, 2 the scratchpad is being copied,
  3 the lazy write-back of a backed scratchpad is under way (R317, R352). -/
  stage : Nat
  /-- MODEL: one more than the cycle in which a swap last found no free area (R352). -/
  tested : Nat
deriving DecidableEq, Repr

/-- A launch record (R337). -/
structure LaunchRec where
  entry : Dword
  teams : Nat
  waves : Nat
  scratch : Nat
  cohort : Bool
  shadow : Bool
  prio : Nat
  scrwin : Dword
  backed : Bool
  args : List Dword
  fmt : List Dword
  complq : Dword
  ydl : Nat
  maxpass : Nat
  waitswap : Nat
  barto : Nat
  utag : Word
deriving DecidableEq, Repr

/-- What a core has in use: its number on the package, occupied wave slots, and scratchpad allocations (R345, R346). -/
structure Load where
  core : Nat
  used : Nat
  alloc : List (Nat × Nat)
deriving DecidableEq, Repr

/-- A team of a cohort that has been assigned and not placed yet (R346): its number, die, core and first granule; the team, where it is
one that resumes. -/
structure Assign where
  number : Nat
  die : Nat
  core : Nat
  granule : Nat
  team : Option Nat
deriving DecidableEq, Repr

/-- A launch in progress. -/
structure Launch where
  addr : Dword
  part : Nat
  lrec : LaunchRec
  /-- Accepting distributor (R339). -/
  die : Nat
  killed : Nat
  started : Option Dword
  finished : Option Dword
  status : Nat
  /-- Teams not yet retired. -/
  left : Nat
  tasks : Nat
  moved : Nat
  posting : Bool
  done : Bool
  /-- The co-residency check of a cohort (R346): the dies' reports, and the teams assigned. -/
  reports : Map (List Load)
  plan : List Assign
deriving DecidableEq, Repr

/-- An item of a distributor's pending list (R344). -/
structure Item where
  launch : Nat
  prio : Nat
  /-- Unstarted teams next, next + step, …: none for a swapped team or task wave. -/
  next : Nat
  step : Nat
  count : Nat
  /-- The swapped team or task wave. -/
  team : Option Nat
  task : Bool
  since : Nat
  first : Bool
  /-- A swapped team becomes placeable in this cycle (R345). -/
  ready : Nat
  /-- Cycle of a swapped team's swap (R344). -/
  swap : Nat := 0
deriving DecidableEq, Repr

/-- A spawn bin (R349). -/
structure Bin where
  launch : Nat
  entry : Dword
  threads : List (List Word)
  stamp : Nat
deriving DecidableEq, Repr

/-- A spawned thread on its way to the bins (R186). -/
structure Thread where
  launch : Nat
  entry : Dword
  words : List Word
  flush : Bool
deriving DecidableEq, Repr

/-- A queue context cached by a controller (R205, R206). -/
structure QCtx where
  part : Nat
  index : Nat
  ring : Dword
  head : Word
  tail : Word
  claim : Word
  pmap : Word
  ctl : Word
  allow : BitVec 16
  dbase : QRec
  used : Nat
deriving DecidableEq, Repr

/-- The operations a queue controller carries out (R209, R219). -/
inductive QuKind | enq | claim | pub | bindU | bindS | avail | create | destroy | pop | device
deriving DecidableEq, Repr

/-- A queue operation on its way to a controller or back (R220). -/
structure QuOp where
  kind : QuKind
  /-- Issuing wave and lanes; the device's own operations name none. -/
  wave : Option Nat
  lanes : Mask
  handle : Dword
  part : Nat
  count : Nat
  arg : Nat
  /-- Stored forms of an enq, each as its words; the eight words of a device's record (R210). -/
  forms : List (List Word)
  /-- MODEL: number of the operation in its unit (R58). -/
  op : Nat
  unit : FuncUnit
  res : Word
  st : Word
  /-- Ring distance to the home (R220). -/
  dist : Nat
  /-- What a bind delivers to the latch: position and records (R217). -/
  pos : Word
  recs : List QRec
  /-- Whose completion record it carries: a launch, or an engine command's wave and tag; or a host's doorbell (R228, R338, R342). -/
  launch : Option Nat
  cmd : Option (Nat × Word)
  door : Bool
  /-- A peer's enqueue: die of entry, package, and the peer's number of the transfer (R301, R404). -/
  peer : Option (Nat × Nat × Nat) := none
deriving DecidableEq, Repr

/-- A copy or gather command (R221). -/
structure Cmd where
  launch : Nat
  wave : Nat
  /-- The issuing wave is still the one that issued it. -/
  alive : Bool
  ident : Dword
  team : Nat
  part : Nat
  clover : Nat
  op : Nat
  tag : Word
  flags : Word
  /-- Decoded operands: source, destination, lengths and strides. -/
  src : Dword
  dst : Dword
  a : Nat
  b : Nat
  c : Int
  d : Int
  complq : Dword
  /-- Progress: row or element, and byte within it, of the next piece; pieces issued, in flight and written. -/
  row : Nat
  off : Nat
  seq : Nat
  out : Nat
  wrote : Nat
  /-- Time base at the first access. -/
  started : Option Dword
  code : Nat
  detail : Nat
  fault : Dword
  pages : List (Nat × Xlate)
  /-- Sums of the tiles of a checked copy, less their trailers' (R105): key 2 × tile, and + 1. -/
  sums : Map Word
  done : Bool
  /-- Commands that must release first (R226). -/
  after : List Nat
  /-- MODEL: bytes read of a destination word that two pieces share, by the number of the first of the two: address, length and bytes (R299). -/
  halves : Map (Nat × Nat × Nat) := []
deriving DecidableEq, Repr

/-- Coherence state of a line (R307, R310, R313). A line with none listed has no holder and no copy. -/
structure Line where
  holder : Option Nat
  dirty : Bool
  poison : Bool
  /-- Last cycle of the latest SI lease (R308). -/
  lease : Nat
  /-- The home has a drawer read of it under way: its request (R310). -/
  fetching : Option Nat
  /-- Watch entries: the waves to be told (R290). -/
  watch : List Nat
  /-- The host has granted the line: shared or exclusive (R332). -/
  grant : Option Bool
  /-- A correctable error sits in the line (R275). -/
  soft : Bool
  /-- Last cycle in which a write waits at the holder, for leases or for watches (R282, R308). -/
  waits : Nat := 0
deriving DecidableEq, Repr

/-- Who waits for a line from the drawer. -/
inductive Waiter
  | lane (w k part : Nat)
  | own (w k part : Nat)
  /-- A die whose write-back counts (R417). -/
  | die (d : Nat)
  /-- A host access: the operands of its next step (R280). -/
  | host (args : List Nat)
  /-- A line transfer of an engine: whether the request is its own, and the operands of its next step. -/
  | eng (own : Bool) (args : List Nat)
  /-- The store of a page-table entry by sy.pmap: whether the request is its own, and the operands of its next step (R269). -/
  | sys (own : Bool) (args : List Nat)
  /-- A read of a page table, of an instruction or of a structure of the device's own: whether the request is its own, the die that reads, and what
  follows (R318, R472). -/
  | read (own : Bool) (q : Nat) (args : List Nat)
deriving DecidableEq, Repr

/-- A drawer request (R386, R387). -/
structure Req where
  line : Nat
  write : Bool
  part : Nat
  /-- The die that made it. -/
  die : Nat
  /-- Its link; none while it waits for a new home table (R417). -/
  link : Option Nat
  group : Nat
  far : Bool
  bytes : List (BitVec 8)
  waiters : List Waiter
  /-- Core whose miss slot it takes (R319). -/
  core : Option Nat
  /-- Sent in this swath, and not answered. -/
  swath : Option Nat
  low : Bool
  /-- The inbound swath that answers a read from a write-back at the link (R387). -/
  back : Option Nat := none
  /-- The drawer's ECC could not correct the line: its response carries POISON (R390). -/
  poison : Bool := false
  /-- A write that the drawer has performed: sent again, it is not performed again (R398, R402). -/
  performed : Bool := false
deriving DecidableEq, Repr

/-- For whom a page is walked (R324, R472). -/
inductive WalkUse
  /-- The held bundle of a wave's fragment: wave, sequencer. -/
  | bundle (w q : Nat)
  /-- The fetch of a fragment's next bundle: wave, sequencer. -/
  | fetch (w q : Nat)
  /-- An engine command, with the steps of it that wait. -/
  | cmd (id : Nat) (steps : List (List Nat))
  /-- A piece of a device task: the task, the end of the piece, and its kind. -/
  | task (id last mode : Nat)
deriving DecidableEq, Repr

/-- A page walk (R323, R324). -/
structure PageWalk where
  die : Nat
  part : Nat
  va : Nat
  /-- It has one of the die's 32 walkers. -/
  busy : Bool
  /-- Entries read so far. -/
  step : Nat
  use : WalkUse
deriving DecidableEq, Repr

/-- An access that the device makes to structures of its own (R472). MODEL: what follows once its pages are translated and its lines read. -/
structure Task where
  /-- Pages and lines that it still waits for. -/
  left : Nat
  /-- Cycle in which the first of its lines has come. -/
  first : Option Nat
  go : Instr
  args : List Nat
deriving DecidableEq, Repr

/-- State of a link (R396). -/
inductive LinkState | run | waking | retrain | down | offline
deriving DecidableEq, Repr

/-- A Lumrax link (R379 to R406). Key 72 × die + n: memory links 0 to 63, peer links 64 to 71. -/
structure Link where
  width : Nat
  state : LinkState
  rtwl : Nat
  rtdir : Nat
  lctl : Word
  berO : Word
  berI : Word
  fecsel : Word
  fecCnt : Map Nat
  fecPrv : Map Nat
  unccnt : Nat
  bgCnt : Nat
  fullCnt : Nat
  /-- The live and shadow swath tables (R383, R384); an unlisted entry has its reset value. -/
  table : Map Word
  shadow : Map Word
  swstat : Nat
  /-- The first swath of the frame in which a committed table goes live (R384). -/
  commit : Nat := 0
  /-- Queued requests in arrival order, by bank group; and those waiting at the entry (R387). -/
  queues : Map (List Nat)
  entry : List Nat
  /-- Beat count: at beat `beat` in cycle `t0` the width became `width` (R391). -/
  t0 : Nat
  beat : Nat
  /-- Next swath to be considered outbound. -/
  next : Nat
  /-- Swaths sent and unanswered. -/
  sent : List (Nat × List Nat)
  /-- Requested width to take effect at a frame boundary, and one held during a wake (R393). -/
  want : Option Nat
  heldWant : Option Nat
  wakeTill : Option Nat
  /-- Recorded crossings, in the order in which they are taken: cycle, direction and wavelength (R400). -/
  crossings : List (Nat × Nat × Nat)
  retrainTill : Option Nat
  downSince : Option Nat
  /-- Beats of its own that each wavelength had carried in its window of FEC counting at cycle `fecFrom`, from which the active ones of a link that
  is up carry one in each cycle (R399, R449). -/
  fecAge : Map Nat := []
  fecFrom : Nat := 0
  /-- First cycle in which a narrowing that was asked for may take effect (R448). -/
  wantAt : Nat := 0
  /-- Wavelengths, outbound 0 to 7 and inbound 8 to 15, that have crossed in their present window (R400). -/
  crossed : List Nat := []
  /-- By direction, the codeword after the last uncorrectable one, and how many in a row they were (R402). -/
  badRun : Map (Nat × Nat) := []
  /-- Swath tables of dies in warm reset that serve this link: die, first swath, table (R406, R417). -/
  lent : List (Nat × Nat × Map Word) := []
deriving DecidableEq, Repr

/-- State of a die (R416). -/
inductive DieState | run | quiescing | offline | resetting | selftest
deriving DecidableEq, Repr

/-- A compute die. -/
structure Die where
  state : DieState
  failed : Bool
  items : List Item
  /-- Round-robin pointer (R345). -/
  rr : Nat
  /-- Co-residency checks that have frozen its placement (R346). -/
  frozen : Nat
  preempting : Option Nat
  emptySince : Nat
  stealAt : Nat
  stealing : Option Nat
  bins : Map Bin
  nextBin : Nat
  threads : Map (List Thread)
  /-- Its copy of the home table (R306). -/
  home : Map Nat
  tlb : Map (List Page)
  /-- Die-cache sets, most recent first (R303). -/
  cache : Map (List Nat)
  qctx : Map QCtx
  /-- Cycle in which its last reset ended (R263). -/
  cycleBase : Nat
  phase : Nat
  /-- MODEL: cycle of its latest placement decision (R345). -/
  stepAt : Option Nat
  /-- MODEL: cycle of its next one. -/
  placeAt : Option Nat := none
deriving DecidableEq, Repr

/-- A partition's registers (R274, R336, R411, R414). -/
structure Part where
  psched : Dword
  lqh : Dword
  ctxbase : Dword
  ctxlen : Dword
  /-- CLVHI:CLVLO. -/
  clovers : BitVec 96
  lostcq : Dword
  pcap : Dword
  qtbase : Dword
  qtlen : Dword
  ttbase : Dword
  ptbase : Dword
  lnkstall : Dword
  mwbase : Map Dword
  mwlim : Map Dword
  intbind : Map Dword
  resize : Nat
  /-- Context areas in use: offset and length (R366). -/
  areas : List (Nat × Nat)
  /-- MODEL: the distributor of the launch queue is accepting an entry (R339). -/
  accepting : Bool
deriving DecidableEq, Repr

/-- A host access over CXL.mem (R280). -/
structure HostReq where
  die : Nat
  write : Bool
  addr : Nat
  bytes : List (BitVec 8)
  len : Nat
  /-- A line it has read was poisoned. -/
  poison : Bool
  /-- The answer, once given: bytes read, poison, or an error (R386, R417). -/
  answer : Option (List (BitVec 8) × Bool × Bool)
deriving DecidableEq, Repr

/-- A packet of a peer link (R404). -/
structure Packet where
  pkg : Nat
  op : Option Nat
  cmd : Option Nat
  link : Nat
  /-- What the transfer does next, when its answer comes; of a reply to a peer, the peer's number of the transfer, the status or fault cause, and the
  result or the bytes read. -/
  args : List Nat
  /-- Bytes of data that it carries. -/
  size : Nat := 0
  /-- It answers a peer's packet. -/
  reply : Bool := false
  /-- The first of the flits in which it has left and is unanswered (R402, R404). -/
  flit : Option Nat := none
  /-- MODEL: cycles from its leaving to the earliest answer, and the cycle of that, once it has left (R405). -/
  due : Nat := 0
  earliest : Nat := 0
deriving DecidableEq, Repr

/-- A bias flip in progress (R334). -/
structure Flip where
  part : Nat
  page : Nat
  toHost : Bool
  stage : Nat
deriving DecidableEq, Repr

/-- A clover on its way from one partition to another (R354). -/
structure Resize where
  source : Nat
  target : Nat
  clover : Nat
  stage : Nat
deriving DecidableEq, Repr

end Sys2Proof.Machine
end

