-- ==== Sys2Proof/Machine/State.lean ====
section
/-! DEFINITION. The machine's state, its faults and refusals, and the state after power-good. A table of records lists
only what differs from its reset record: `Part.reset`, `Die.reset`, `Link.reset` and so on are the values of what is not
listed. -/
namespace Sys2Proof.Machine

/-- Why the machine stops. -/
inductive Fault
  /-- Raised by `step` once the package has stopped at 115 °C (R424): safe, the spec lets nothing go on. -/
  | packageStopped
deriving DecidableEq, Repr

/-- What the model does not answer. -/
inductive Refusal
  /-- Raised by `exec` for an instruction that has no meaning yet: safe. -/
  | notModelled (mnemonic : String)
deriving DecidableEq, Repr

/-- A partition's registers after a cold start (R274, R336, R403, R414). -/
def Part.reset : Part :=
  { psched := 0, lqh := 0, ctxbase := 0, ctxlen := 0, clovers := 0, lostcq := 0, pcap := 0, qtbase := 0, qtlen := 0, ttbase := 0,
    ptbase := 0, lnkstall := 0, mwbase := [], mwlim := [], intbind := [], resize := 0, areas := [], accepting := false }

/-- A core after reset: empty caches, a free issue slot, counters at 0. -/
def Core.reset : Core :=
  { free := 0, prev := none, l1 := [], ic := [], tlb := [], polign := 0, rollbk := 0, swaps := 0, alloc := [] }

/-- A clover after reset: the baton is free, every accumulator word +0 (R235, R238), the B-store zero (R418). (DESIGN CHOICE, log 4) -/
def Clover.reset : Clover :=
  { baton := none, releasing := false, granting := false, table := [], waiting := [], acc := [], live := [],
    abft := [], ops := [], nextOp := 1, lastMx := none, accTill := [], bstore := [], eng := [], engOut := 0, mail := [], mailWait := [] }

/-- A die after reset (R306: home entry k names die k). -/
def Die.reset : Die :=
  { state := .run, failed := false, items := [], rr := 0, frozen := 0, preempting := none, emptySince := 0, stealAt := 0,
    stealing := none, bins := [], nextBin := 0, threads := [], home := [], tlb := [], cache := [], qctx := [],
    cycleBase := 0, phase := 0, stepAt := none, placeAt := none }

/-- A link's registers after reset (R383, R396, R397, R400): width 8, state DOWN, thresholds 4,096. -/
def Link.reset : Link :=
  { width := 8, state := .down, rtwl := 0, rtdir := 0, lctl := 0, berO := 4096, berI := 4096, fecsel := 0, fecCnt := [], fecPrv := [],
    unccnt := 0, bgCnt := 0, fullCnt := 0, table := [], shadow := [], swstat := 0, queues := [], entry := [], t0 := 0, beat := 0,
    next := 0, sent := [], want := none, heldWant := none, wakeTill := none, crossings := [], retrainTill := none,
    downSince := none }

/-- A line with no holder and no copy (R310). -/
def Line.reset : Line :=
  { holder := none, dirty := false, poison := false, lease := 0, fetching := none, watch := [], grant := none, soft := false }

/-- The machine. -/
structure State where
  /-- MODEL: cycles since power-good; every time is counted in cycles (R7). -/
  now : Nat
  /-- MODEL: steps due at a cycle, in order of that cycle; equal cycles keep their order. Host and environment events,
  too, stand here until they happen. -/
  agenda : List (Nat × Instr × List Nat)
  /-- MODEL: operands of the event being carried out. -/
  ev : List Nat
  /-- MODEL: the bundle whose slots are being carried out. -/
  cur : Option Issue
  /-- Waves by global slot number G (R361). -/
  waves : Map Wave
  teams : Map Team
  launches : Map Launch
  /-- MODEL: the next number for a team, launch, command, request or packet. -/
  nextId : Nat
  /-- Cores by die × 96 + core of the die. -/
  cores : Map Core
  /-- Clovers by global clover number (R3). -/
  clovers : Map Clover
  dies : Map Die
  links : Map Link
  parts : Map Part
  /-- Bytes of physical memory as the coherence protocol gives them (R279, R310). -/
  mem : List Host.Cell
  /-- The drawer's own bytes: the values last written back (R314). -/
  drawer : List Host.Cell
  /-- Coherence state of the lines (R307). -/
  lines : Map Line
  qops : Map QuOp
  cmds : Map Cmd
  reqs : Map Req
  host : Map HostReq
  packets : Map Packet
  /-- Answers to peers that have left, latest first: peer link, and the peer's number of the transfer, status, and result or bytes (R404). -/
  peerSent : List (Nat × List Nat)
  /-- Page walks in progress, by number (R323, R324). -/
  walks : Map PageWalk
  /-- MODEL: accesses of the device to structures of its own that wait for pages or lines (R472). -/
  tasks : Map Task
  flips : List Flip
  resizes : List Resize
  /-- Which latch each bound queue is bound to (R217): partition, index, wave, latch. -/
  bound : List (Nat × Nat × Nat × Nat)
  /-- MODEL: number of the next free value. -/
  free : Nat
  /-- The device time base in nanoseconds (R220). -/
  time : Dword
  bootstat : Nat
  featack : Dword
  featSet : Bool
  attNonce : List Host.Cell
  /-- ATTCTL bit 1, and the report's bytes and number (R421). -/
  attReady : Bool
  attRep : List Host.Cell
  attCount : Nat
  /-- Stretch level, the sensed sag level, and the count of events (R410, R423). -/
  stretch : Nat
  sag : Nat
  stretchStamp : Nat
  stretchCount : Nat
  temps : Map Nat
  hot : Bool
  stopped : Bool
  /-- The host has received a CXL.io fatal error (R424). -/
  fatal : Bool
  /-- MSI-X table words, pending bits, function mask; and the vectors sent to the host, latest first (R413). -/
  msix : Map Dword
  msixPend : List Nat
  msixMasked : Bool
  sent : List Nat
  /-- Answers posted to the host as CXL.io completions (R338), latest first. -/
  answers : List Nat
deriving DecidableEq, Repr

/-- The machine at power-good (R420): nothing has run, and the cold start is due. (DESIGN CHOICE, log 86; DESIGN CHOICE, log 88) -/
def State.reset : State :=
  { now := 0, agenda := [(0, .coldStart, [])], ev := [], cur := none, waves := [], teams := [], launches := [], nextId := 1, cores := [],
    clovers := [], dies := [], links := [], parts := [], mem := [], drawer := [], lines := [], qops := [], cmds := [],
    reqs := [], host := [], packets := [], peerSent := [], walks := [], tasks := [], flips := [], resizes := [], bound := [], free := 0, time := 0, bootstat := 0,
    featack := 0, featSet := false, attNonce := [], attReady := false, attRep := [], attCount := 0, stretch := 0, sag := 0,
    stretchStamp := 0, stretchCount := 0, temps := [], hot := false, stopped := false, fatal := false, msix := [], msixPend := [],
    msixMasked := false, sent := [], answers := [] }

end Sys2Proof.Machine
end

