-- ==== Sys2Proof/Machine/Basic.lean ====
section
/-! DEFINITION. Access to the state: bit fields, register vectors, guards, wave status, the records of State and the agenda. -/
namespace Sys2Proof.Machine

/-- Field [hi:lo] of a word. -/
def wfield (w : Word) (hi lo : Nat) : Nat := bitsOf w.toNat hi lo

/-- Field [hi:lo] of a 64-bit value. -/
def dfield (d : Dword) (hi lo : Nat) : Nat := bitsOf d.toNat hi lo

/-- A word with field [hi:lo] replaced. -/
def setField (w : Word) (hi lo v : Nat) : Word :=
  (w &&& ~~~(BitVec.ofNat 32 ((2 ^ (hi - lo + 1) - 1) * 2 ^ lo))) ||| BitVec.ofNat 32 ((v % 2 ^ (hi - lo + 1)) * 2 ^ lo)

/-- Bits [31:0] of a 64-bit value (R52). -/
def lowWord (d : Dword) : Word := d.setWidth 32
/-- Bits [63:32] of a 64-bit value. -/
def highWord (d : Dword) : Word := (d >>> 32).setWidth 32
/-- Sign extension of a word to 64 bits (R52). -/
def sextWord (w : Word) : Dword := w.signExtend 64
/-- The 64-bit value hi:lo. -/
def joinWords (hi lo : Word) : Dword := (hi ++ lo : BitVec 64)
/-- Whether an address is canonical (R151): bits [63:54] all equal bit 54. -/
def canonical (a : Dword) : Bool := (a >>> 54) == 0 || (a >>> 54) == 1023

/-! Register vectors, numbered in the order of R367: m0 to m191, o0 to o7, 46 latch vectors, 39 port vectors. -/

/-- Vector number of an operand-file register. -/
def opndVec (i : Nat) : Nat := 192 + i

/-- Vector number of a latch's low word; a 64-bit latch has its high word in the next (R367). -/
def latchVec (u : FuncUnit) (k : LatchNo) : Nat :=
  let o (b n : Nat) : Nat := 200 + b + n
  let i : Nat := match k with | .o1 => 0 | .o2 => 1 | .o3 => 2
  match u with
  | .ia => o 0 i | .ib => o 2 i | .ma => o 4 i | .mb => o 6 i | .sa => o 8 i | .sb => o 10 i | .ck => o 12 i | .fa => o 14 i
  | .fb => o 16 i | .xf => o 18 i | .cv => o 19 i | .cx => o 21 i
  | .ls => o 22 (if i = 0 then 0 else i + 1)
  | .sp => o 26 i | .xl => o 28 i | .qu => o 30 i
  | .en => o 33 (2 * i)
  | .mx => o 38 i
  | .ct => o 41 (2 * i)
  | .sy => o 44 i

/-- Vector number of a result port; ls.res and sp.res are FIFOs and have none (R367). -/
def portVec (u : FuncUnit) (p : PortNo) : Nat :=
  let o (b : Nat) : Nat := 246 + b
  let i : Nat := match p with | .res => 0 | .hi => 1 | .st => 2
  let two : Nat := match p with | .res => 0 | _ => 1
  match u with
  | .ia => o (0 + i) | .ib => o (2 + i) | .ma => o (4 + i) | .mb => o (7 + i) | .sa => o 10 | .sb => o 11 | .ck => o 12
  | .fa => o (13 + two) | .fb => o (15 + two) | .xf => o (17 + two) | .cv => o (19 + i) | .cx => o (22 + i) | .ls => o 25
  | .sp => o 26 | .xl => o (27 + i) | .qu => o (29 + two) | .en => o (31 + two) | .mx => o (33 + two) | .ct => o (35 + two)
  | .sy => o (37 + two)

/-- The result ports of a unit, without the two FIFOs. -/
def portsOf (u : FuncUnit) : List PortNo :=
  match u with
  | .ls | .sp => [.st]
  | _ => [PortNo.res, .hi, .st].filter (hasPort u)

/-! Contexts. -/

/-- A wave's context at its start (R34), without its fragments. -/
def Ctx.start : Ctx :=
  { vec := [], busy := [], guards := [], base := [], wstat := 0, vac := 0, heads := [], ldc := 0, stc := 0, cpc := 0, tlc := 0,
    etag := 0, pol := 0, lsFifo := [], spFifo := [], lsLast := [], spLast := [], seqs := [], spill := [], join := [], last := [] }

/-- Lane `l` of register vector `v`. -/
def Ctx.reg (c : Ctx) (v l : Nat) : Word := Map.get 0 c.vec (32 * v + l)

/-- The context with lane `l` of vector `v` set. -/
def Ctx.setReg (c : Ctx) (v l : Nat) (x : Word) : Ctx := { c with vec := Map.set 0 c.vec (32 * v + l) x }

/-- The context with lanes `ls` of vector `v` set to `f`. -/
def Ctx.setLanes (c : Ctx) (v : Nat) (ls : List Nat) (f : Nat → Word) : Ctx := ls.foldl (fun c l => c.setReg v l (f l)) c

/-- Guard `g` in lane `l`; g0 reads 1 (R11). -/
def Ctx.guard (c : Ctx) (g l : Nat) : Bool := if g = 0 then true else (Map.get 0 c.guards g).getLsbD l

/-- Writes guard `g` in lane `l`; a write to g0 is discarded (R49). -/
def Ctx.setGuard (c : Ctx) (g l : Nat) (b : Bool) : Ctx :=
  if g = 0 then c else
  let m := Map.get 0 c.guards g
  let bit := BitVec.ofNat 32 (2 ^ l)
  { c with guards := Map.set 0 c.guards g (if b then m ||| bit else m &&& ~~~bit) }

/-- Base register `i`. -/
def Ctx.baseReg (c : Ctx) (i : Nat) : Dword := Map.get 0 c.base i
def Ctx.setBase (c : Ctx) (i : Nat) (d : Dword) : Ctx := { c with base := Map.set 0 c.base i d }

/-- An unbound head latch (R22). -/
def Head.reset : Head := { handle := 0, spread := false, bound := false, stale := false, pos := 0, recs := [], wait := 0 }
def Ctx.head (c : Ctx) (q : Nat) : Head := Map.get Head.reset c.heads q
def Ctx.setHead (c : Ctx) (q : Nat) (h : Head) : Ctx := { c with heads := Map.set Head.reset c.heads q h }

/-- Whether port vector `v` is ready in every lane of `m` (R12). -/
def Ctx.ready (c : Ctx) (v : Nat) (m : Mask) : Bool := (Map.get 0 c.busy v &&& m) == 0
def Ctx.setBusy (c : Ctx) (v : Nat) (m : Mask) : Ctx := { c with busy := Map.set 0 c.busy v (Map.get 0 c.busy v ||| m) }
def Ctx.clearBusy (c : Ctx) (v : Nat) (m : Mask) : Ctx := { c with busy := Map.set 0 c.busy v (Map.get 0 c.busy v &&& ~~~m) }

/-- A latch's value in a lane; a 32-bit latch is sign-extended to 64 bits. -/
def Ctx.latch (c : Ctx) (u : FuncUnit) (k : LatchNo) (l : Nat) : Dword :=
  let v := latchVec u k
  if wideLatch u k then joinWords (c.reg (v + 1) l) (c.reg v l) else sextWord (c.reg v l)

/-- Writes a latch in a lane. -/
def Ctx.setLatch (c : Ctx) (u : FuncUnit) (k : LatchNo) (l : Nat) (d : Dword) : Ctx :=
  let v := latchVec u k
  let c := c.setReg v l (lowWord d)
  if wideLatch u k then c.setReg (v + 1) l (highWord d) else c

/-- Value of a result port in a lane. -/
def Ctx.port (c : Ctx) (u : FuncUnit) (p : PortNo) (l : Nat) : Word := c.reg (portVec u p) l

/-! Queue handles (R204). -/
def handleIdx (h : Dword) : Nat := dfield h 19 0
def handleGen (h : Dword) : Nat := dfield h 31 20
def handleHome (h : Dword) : Nat := dfield h 33 32
def handlePart (h : Dword) : Nat := dfield h 37 34
def handlePkg (h : Dword) : Nat := dfield h 47 38
def handleRem (h : Dword) : Bool := h.getLsbD 48

/-! WSTAT (R18). -/
def Ctx.esc (c : Ctx) : Nat := wfield c.wstat 1 0
def Ctx.rm (c : Ctx) : Rnd := if c.wstat.getLsbD 2 then .rtz else .rne
def Ctx.shd (c : Ctx) : Bool := c.wstat.getLsbD 3
def Ctx.sup (c : Ctx) : Bool := c.wstat.getLsbD 4
def Ctx.winBit (c : Ctx) : Bool := c.wstat.getLsbD 5
def Ctx.regn (c : Ctx) : Bool := c.wstat.getLsbD 6
def Ctx.yreq (c : Ctx) : Bool := c.wstat.getLsbD 7
def Ctx.prio (c : Ctx) : Nat := wfield c.wstat 9 8
def Ctx.rbcnt (c : Ctx) : Nat := wfield c.wstat 23 16
def Ctx.setWstat (c : Ctx) (hi lo v : Nat) : Ctx := { c with wstat := setField c.wstat hi lo v }

/-- The shadow lanes (R374). -/
def Ctx.shadows (c : Ctx) : Mask :=
  if c.shd then maskWhere fun l => c.vac.getLsbD l && !c.vac.getLsbD (l ^^^ 16) else 0

/-- The lanes of a move's enable mask that are not shadows. -/
def Ctx.real (c : Ctx) (en : Mask) : Mask := en &&& ~~~c.vac

/-- The enabled lanes of a move (R24, R375): non-vacant lanes of the mask, and shadow lanes whose partner is in it, whose
guard after NEG reads 1. -/
def Ctx.enabled (c : Ctx) (mask : Mask) (gd : Guard) : Mask :=
  let sh := c.shadows
  maskWhere fun l => (c.guard gd.g.val l != gd.neg) &&
    ((mask.getLsbD l && !c.vac.getLsbD l) || (sh.getLsbD l && mask.getLsbD (l ^^^ 16)))

/-! Fragments. -/
def Seq.active (q : Seq) : Bool := q.parked.isNone

/-- The number of a fragment created in cycle `now` with lanes `m` (R355). -/
def fragNo (now : Nat) (m : Mask) : Nat := 64 * now + (lowest m).getD 0

/-- A fresh fragment (R34). -/
def Seq.start (pc : Dword) (mask : Mask) (due : Nat) : Seq :=
  { pc := pc, mask := mask, parked := none, loops := [], hold := .none, fetch := .need, due := due, since := due, stamp := due, part := none, safe := false, kept := false, go := false, fid := fragNo due mask, stacked := false, reenter := false, waiting := none }

/-- A fragment for which what was under way is given up: look-ups and a fetch in progress begin again. -/
def Seq.anew (q : Seq) : Seq :=
  { q with
    fetch := match q.fetch with | .ready => .ready | .bad c a => .bad c a | _ => .need
    part := q.part.map fun p => { p with look := [] } }

/-- The same for all fragments of a context. -/
def Ctx.anew (c : Ctx) : Ctx :=
  let all (m : Map Seq) : Map Seq := m.map fun (i, q) => (i, q.anew)
  { c with seqs := all c.seqs, spill := all c.spill }

/-! Records of State. -/

/-- A wave slot that holds no wave. -/
def Wave.blank : Wave :=
  { ctx := Ctx.start, team := 0, index := 0, launch := 0, part := 0, placed := 0, from_ := 0, stop := .running, pend := [],
    accs := [], nextOp := 1, win := none, noWin := 0, rollTill := 0, tstate := 0, tmask := 0, tpc := 0, tinfo := 0,
    trap := none, traps := [], region := none, lastPage := [], inject := [], cmds := [], mxReq := none, quOut := [],
    escStamp := 0, claims := [], dead := false }

def State.wave? (s : State) (w : Nat) : Option Wave := Map.find? s.waves w
def State.wave (s : State) (w : Nat) : Wave := (s.wave? w).getD Wave.blank
def State.setWave (s : State) (w : Nat) (x : Wave) : State := { s with waves := Map.put s.waves w x }
/-- Changes a wave, if the slot holds one. -/
def State.modWave (s : State) (w : Nat) (f : Wave → Wave) : State :=
  match s.wave? w with
  | some x => s.setWave w (f x)
  | none => s
def State.modCtx (s : State) (w : Nat) (f : Ctx → Ctx) : State := s.modWave w fun x => { x with ctx := f x.ctx }

/-- An unlisted core, clover, die, link, line or partition has its reset record. -/
def State.core (s : State) (k : Nat) : Core := Map.get Core.reset s.cores k
def State.setCore (s : State) (k : Nat) (x : Core) : State := { s with cores := Map.set Core.reset s.cores k x }
def State.modCore (s : State) (k : Nat) (f : Core → Core) : State := s.setCore k (f (s.core k))
/-- Frees a wave slot; no fragment of the next wave there is the one that issued the core's previous bundle (R355). -/
def State.dropWave (s : State) (w : Nat) : State :=
  { s.modCore (w / 16) fun k => { k with prev := k.prev.filter fun (v, _) => v != w } with waves := Map.erase s.waves w }
def State.clover (s : State) (k : Nat) : Clover := Map.get Clover.reset s.clovers k
def State.setClover (s : State) (k : Nat) (x : Clover) : State := { s with clovers := Map.set Clover.reset s.clovers k x }
def State.modClover (s : State) (k : Nat) (f : Clover → Clover) : State := s.setClover k (f (s.clover k))
def State.die (s : State) (k : Nat) : Die := Map.get Die.reset s.dies k
def State.setDie (s : State) (k : Nat) (x : Die) : State := { s with dies := Map.set Die.reset s.dies k x }
def State.modDie (s : State) (k : Nat) (f : Die → Die) : State := s.setDie k (f (s.die k))
def State.link (s : State) (k : Nat) : Link := Map.get Link.reset s.links k
def State.setLink (s : State) (k : Nat) (x : Link) : State := { s with links := Map.set Link.reset s.links k x }
def State.modLink (s : State) (k : Nat) (f : Link → Link) : State := s.setLink k (f (s.link k))
def State.part (s : State) (k : Nat) : Part := Map.get Part.reset s.parts k
def State.setPart (s : State) (k : Nat) (x : Part) : State := { s with parts := Map.set Part.reset s.parts k x }
def State.modPart (s : State) (k : Nat) (f : Part → Part) : State := s.setPart k (f (s.part k))
def State.line (s : State) (k : Nat) : Line := Map.get Line.reset s.lines k
def State.setLine (s : State) (k : Nat) (x : Line) : State := { s with lines := Map.set Line.reset s.lines k x }
def State.modLine (s : State) (k : Nat) (f : Line → Line) : State := s.setLine k (f (s.line k))
def State.team? (s : State) (k : Nat) : Option Team := Map.find? s.teams k
def State.setTeam (s : State) (k : Nat) (x : Team) : State := { s with teams := Map.put s.teams k x }
def State.modTeam (s : State) (k : Nat) (f : Team → Team) : State :=
  match s.team? k with
  | some x => s.setTeam k (f x)
  | none => s
def State.launch? (s : State) (k : Nat) : Option Launch := Map.find? s.launches k
def State.modLaunch (s : State) (k : Nat) (f : Launch → Launch) : State :=
  match s.launch? k with
  | some x => { s with launches := Map.put s.launches k (f x) }
  | none => s
def State.cmd? (s : State) (k : Nat) : Option Cmd := Map.find? s.cmds k
def State.setCmd (s : State) (k : Nat) (x : Cmd) : State := { s with cmds := Map.put s.cmds k x }
def State.qop? (s : State) (k : Nat) : Option QuOp := Map.find? s.qops k
def State.setQop (s : State) (k : Nat) (x : QuOp) : State := { s with qops := Map.put s.qops k x }
def State.req? (s : State) (k : Nat) : Option Req := Map.find? s.reqs k
def State.setReq (s : State) (k : Nat) (x : Req) : State := { s with reqs := Map.put s.reqs k x }

/-! Places on the package: G = ((die × 24 + clover) × 4 + core) × 16 + slot (R361). -/
def coreOf (w : Nat) : Nat := w / 16
def slotOfWave (w : Nat) : Nat := w % 16
def cloverOf (w : Nat) : Nat := w / 64
def dieOf (w : Nat) : Nat := w / 1536

/-- The number a swapped wave goes by: its team's number and its index, above every wave slot. MODEL. -/
def awayBase : Nat := 1000000
def awaySlot (team i : Nat) : Nat := awayBase + 16 * team + i

/-- Ring distance on 0–1–3–2–0 (R407). -/
def ringDist (x y : Nat) : Nat :=
  if x = y then 0 else if x + y = 3 then 2 else 1

/-! The agenda. -/

/-- Inserts a step behind every step due no later. -/
def insAgenda (t : Nat) (i : Instr) (a : List Nat) : List (Nat × Instr × List Nat) → List (Nat × Instr × List Nat)
  | [] => [(t, i, a)]
  | (u, j, b) :: r => if t < u then (t, i, a) :: (u, j, b) :: r else (u, j, b) :: insAgenda t i a r

/-- Puts a step on the agenda, `d` cycles from now. -/
def State.after (s : State) (d : Nat) (i : Instr) (a : List Nat) : State := { s with agenda := insAgenda (s.now + d) i a s.agenda }

/-- Puts a step on the agenda at cycle `t`, or now when `t` has passed. -/
def State.at_ (s : State) (t : Nat) (i : Instr) (a : List Nat) : State := { s with agenda := insAgenda (max s.now t) i a s.agenda }

/-- Operand `n` of the event being carried out. -/
def State.arg (s : State) (n : Nat) : Nat := s.ev.getD n 0

/-- Takes a fresh number. -/
def State.fresh (s : State) : Nat × State := (s.nextId, { s with nextId := s.nextId + 1 })

/-- Takes a free value (the spec leaves it open). (DESIGN CHOICE, log 87) -/
def State.freeWord (s : State) : Word × State := (Config.freeWord s.free, { s with free := s.free + 1 })

/-- Runs `f` over the numbers below `n`. -/
def upto {α : Type} (n : Nat) (f : α → Nat → α) (a : α) : α := (List.range n).foldl f a

end Sys2Proof.Machine
end

