-- ==== Sys2Proof/Machine/Mem.lean ====
section
/-! DEFINITION. Physical memory, scratch windows, the home table, the swath clock, page walks and the TLBs
(13_memory_hierarchy_and_translation.md, 16_lumrax_link_and_drawer.md). -/
namespace Sys2Proof.Machine

abbrev Memory := List Host.Cell

/-- What a byte that nothing has written reads as: zero (the start-up contents of the drawer are open). (DESIGN CHOICE, log 3) -/
def emptyByte : BitVec 8 := 0

/-- Reads a byte. -/
def Memory.read (m : Memory) (a : Nat) : BitVec 8 := Map.get emptyByte m a
/-- Writes a byte; a byte that equals what an unlisted address reads as is not listed. -/
def Memory.write (m : Memory) (a : Nat) (b : BitVec 8) : Memory := Map.set emptyByte m a b
/-- The canonical form of a memory. -/
def Memory.wf (m : Memory) : Bool := Map.wf emptyByte m
/-- Writes consecutive bytes from `a`. -/
def Memory.writeAll (m : Memory) (a : Nat) : List (BitVec 8) → Memory
  | [] => m
  | b :: t => Memory.writeAll (m.write a b) (a + 1) t
/-- Reads `n` bytes from `a`. -/
def Memory.readAll (m : Memory) (a n : Nat) : List (BitVec 8) := (List.range n).map fun k => m.read (a + k)

/-- The little-endian number of a list of bytes (R5). -/
def ofBytes : List (BitVec 8) → Nat
  | [] => 0
  | b :: t => b.toNat + 256 * ofBytes t

/-- The `n` little-endian bytes of a number (R5). -/
def toBytes (n v : Nat) : List (BitVec 8) := (List.range n).map fun k => BitVec.ofNat 8 (v / 256 ^ k)

/-- The team whose scratchpad a physical address reaches through a live scratch window, and the offset there (R316). -/
def State.scratchAt (s : State) (pa : Nat) : Option (Nat × Nat) :=
  s.teams.findSome? fun (k, t) => t.window.findSome? fun (a, o, n) =>
    if a ≤ pa ∧ pa < a + n then some (k, o + (pa - a)) else none

/-- A byte of the scratchpad of a team. -/
def State.scrByte (s : State) (team off : Nat) : BitVec 8 :=
  match s.team? team with
  | some t => Memory.read t.bytes off
  | none => emptyByte
/-- Writes a byte of a team's scratchpad. -/
def State.putScr (s : State) (team off : Nat) (b : BitVec 8) : State :=
  s.modTeam team fun t => { t with bytes := Memory.write t.bytes off b }
/-- `n` bytes of a team's scratchpad, as a number. -/
def State.scrRead (s : State) (team off n : Nat) : Nat := ofBytes ((List.range n).map fun k => s.scrByte team (off + k))

/-- A byte at a physical address, as a program sees it: a live scratchpad through its window, or memory (R316). (DESIGN CHOICE, log 43) -/
def State.byte (s : State) (pa : Nat) : BitVec 8 :=
  match s.scratchAt pa with
  | some (t, o) => s.scrByte t o
  | none => Memory.read s.mem pa
/-- Writes a byte at a physical address. -/
def State.putByte (s : State) (pa : Nat) (b : BitVec 8) : State :=
  match s.scratchAt pa with
  | some (t, o) => s.putScr t o b
  | none => { s with mem := Memory.write s.mem pa b }
/-- `n` bytes at a physical address, as a number. -/
def State.read (s : State) (pa n : Nat) : Nat := ofBytes ((List.range n).map fun k => s.byte (pa + k))
/-- Writes the bytes of a list at a physical address. -/
def State.write (s : State) (pa : Nat) : List (BitVec 8) → State
  | [] => s
  | b :: t => State.write (s.putByte pa b) (pa + 1) t

/-! Physical addresses (R305, R306). -/

/-- First PA of a line. -/
def linePa (line : Nat) : Nat := 128 * line

/-- 2^51: the first host PA. -/
def hostBit : Nat := 2 ^ 51
def isHostPa (pa : Nat) : Bool := decide (hostBit ≤ pa)
def isNearPa (pa : Nat) : Bool := decide (pa < 1024 * 10 ^ 9)
def isFarPa (pa : Nat) : Bool := decide (2 ^ 41 ≤ pa ∧ pa < 2 ^ 41 + 6144 * 10 ^ 9)
/-- A PA that names memory (R305). -/
def namesMemory (pa : Nat) : Bool := isNearPa pa || isFarPa pa || isHostPa pa

/-- Bounds of memory window `k`, with the reset values of R414. -/
def Part.windowBase (p : Part) (k : Nat) : Nat := (Map.get 0x000FFFFFFFFF0000#64 p.mwbase k).toNat
def Part.windowLim (p : Part) (k : Nat) : Nat := (Map.get 0#64 p.mwlim k).toNat
/-- Whether a PA lies in a memory window of the partition (R414). -/
def Part.inWindow (p : Part) (pa : Nat) : Bool :=
  (List.range 8).any fun k => decide (p.windowBase k ≤ p.windowLim k ∧ p.windowBase k ≤ pa ∧ pa ≤ p.windowLim k + 0xFFFF)
/-- The partition whose window holds a PA (R386). -/
def State.partOf (s : State) (pa : Nat) : Option Nat := (List.range 16).find? fun p => (s.part p).inWindow pa

/-- The home die of a PA in die `d`'s copy of the home table (R306). -/
def State.home (s : State) (d pa : Nat) : Nat :=
  let k := pa / 2 ^ 12 % 4
  Map.get k (s.die d).home k
/-- The memory link of a PA at its home (R386). -/
def linkNo (pa : Nat) : Nat := (pa / 2 ^ 14 % 64) ^^^ (pa / 2 ^ 20 % 64)
/-- Key of the link that carries a PA's drawer traffic. (DEDUCED, log 31) -/
def State.linkOf (s : State) (d pa : Nat) : Nat := 72 * s.home d pa + linkNo pa
/-- The drawer bank group of a PA (R386). -/
def bankGroup (pa : Nat) : Nat := pa / 2 ^ 26 % 16
/-- The HBM4 stack of a near-tier PA (R386). -/
def drawerStack (pa : Nat) : Nat := pa / 2 ^ 30 % 16

/-- The header of a request, a write or a response (R382): valid, POISON in a response, and PA[51:7]. -/
def swathHeader (line : Nat) (poison : Bool) : Nat := 1 + (if poison then 2 else 0) + line % 2 ^ 45 * 2 ^ 8
/-- The valid bit, the line and the POISON bit of a header (R382, R390). -/
def headerValid (h : Nat) : Bool := h % 2 == 1
def headerLine (h : Nat) : Nat := h / 2 ^ 8 % 2 ^ 45
def headerPoison (h : Nat) : Bool := h / 2 % 2 == 1

/-- Flit 0 of a swath (R382): bytes 0 to 7 are the read request, or inbound the response header; bytes 8 to 15 the write header, or inbound the write
acknowledgement; bytes 16 to 31 are zero. An empty part is zero. -/
def flitZero (first second : Option Nat) : List (BitVec 8) := toBytes 8 (first.getD 0) ++ toBytes 8 (second.getD 0) ++ List.replicate 16 0
/-- The header in bytes 0 to 7 of a flit 0, and the one in bytes 8 to 15. -/
def flitFirst (f : List (BitVec 8)) : Nat := ofBytes (f.take 8)
def flitSecond (f : List (BitVec 8)) : Nat := ofBytes ((f.drop 8).take 8)

/-! The swath clock of a link (R381, R391). -/

/-- Cycle that carries beat `b`. -/
def Link.beatCycle (k : Link) (b : Nat) : Nat := k.t0 + (b - k.beat) / max 1 k.width
/-- First cycle of swath `n`. -/
def Link.swathCycle (k : Link) (n : Nat) : Nat := k.beatCycle (40 * n)
/-- The first swath that begins at or after cycle `t`. -/
def Link.swathAt (k : Link) (t : Nat) : Nat := (max 1 k.width * (t - k.t0) + k.beat + 39) / 40
/-- The table that governs swath `n`: a committed one from its frame onward (R384). -/
def Link.tableAt (k : Link) (n : Nat) : Map Word := if k.swstat = 1 ∧ k.commit ≤ n then k.shadow else k.table
/-- Entry of the table for swath `n` (R383); where it is idle, the share of a die in warm reset that the link serves (R406, R417). (DEDUCED, log 31) -/
def Link.entryOf (k : Link) (n : Nat) : Word :=
  let e := Map.get 0x60#32 (k.tableAt n) (n % 256)
  if wfield e 6 5 != 3 then e
  else ((k.lent.findSome? fun (_, f, t) => let e := Map.get 0x60#32 t (n % 256); if f ≤ n ∧ wfield e 6 5 ≠ 3 then some e else none)).getD e
/-- The active wavelengths of a link's channels; the one that retrains is idle in both (R391, R400). -/
def Link.active (k : Link) : List Nat :=
  match k.width with
  | 7 => (List.range 8).filter (· != k.rtwl)
  | w => List.range w
/-- The wavelength that carries beat `b` (R391). -/
def Link.wavelength (k : Link) (b : Nat) : Nat := k.active.getD ((b - k.beat) % max 1 k.width) 0
/-- Whether a table entry carries requests of a partition, tier and bank group: reads, or writes (R383). -/
def entryCarries (e : Word) (part : Nat) (far : Bool) (bg : Nat) (write : Bool) : Bool :=
  wfield e 3 0 == part && (wfield e 4 4 == 1) == far && wfield e 10 7 == bg &&
    (wfield e 6 5 == 0 || wfield e 6 5 == (if write then 2 else 1))
/-- The first swath at or after `t` that can carry a request. -/
def Link.nextOwned (k : Link) (t part : Nat) (far : Bool) (bg : Nat) (write : Bool) : Option Nat :=
  let n := k.swathAt t
  ((List.range 256).find? fun i => entryCarries (k.entryOf (n + i)) part far bg write).map fun i => n + i
/-- Swaths from a request to its answer (R385). -/
def answerSwaths (far : Bool) : Nat := if far then 448 else 192
/-- Whether a link carries swaths now (R402, R406). -/
def Link.up (k : Link) : Bool := match k.state with | .run | .waking | .retrain => true | _ => false

/-! Waits on a DOWN link (R403). -/

/-- The access that a waiter belongs to: wave and number. -/
def Waiter.access : Waiter → Option (Nat × Nat)
  | .own w k _ => some (w, k)
  | .lane w k _ => some (w, k)
  | _ => none

/-- Changes an access, if the wave still has it. -/
def State.modAcc (s : State) (w k : Nat) (f : Access → Access) : State :=
  s.modWave w fun x => match Map.find? x.accs k with
    | some a => { x with accs := Map.put x.accs k (f a) }
    | none => x

/-- LINK_STALL is tested once an access has waited on a DOWN link for more than LNKSTALL cycles in all (R403). -/
def State.stallArm (s : State) (w k : Nat) : State :=
  match (s.wave? w).bind fun x => (Map.find? x.accs k).bind fun a => a.downFrom.map fun t => (x, a, t) with
  | some (x, a, t) =>
    let n := (s.part x.part).lnkstall.toNat
    if n = 0 || a.stalled then s else s.at_ (t + n + 1 - a.downSum) .linkStall [w, k]
  | none => s

/-- An access begins to wait on a DOWN link (R403). -/
def State.stallFrom (s : State) (w k : Nat) : State :=
  (s.modAcc w k fun a => if a.downFrom.isSome then a else { a with downFrom := some s.now }).stallArm w k

/-- The accesses that wait for a request begin to count (R403). -/
def State.stallWatch (s : State) (r : Req) : State := (r.waiters.filterMap Waiter.access).foldl (fun s (w, k) => State.stallFrom s w k) s

/-- Whether a link keeps a request, in a queue or behind a full one. -/
def Link.keeps (k : Link) (id : Nat) : Bool := k.entry.contains id || k.queues.any (·.2.contains id)

/-- Whether a request waits on a DOWN link. -/
def State.reqDown (s : State) (id : Nat) (r : Req) : Bool := r.link.any fun l => (s.link l).state == .down && ((s.link l).keeps id || r.back.isSome)

/-- A link is no longer DOWN: the accesses that wait on no other such link stop counting (R403). -/
def State.stallEnd (s : State) : State :=
  let waits (w k : Nat) : Bool := s.reqs.any fun (id, r) => s.reqDown id r && r.waiters.any fun v => v.access == some (w, k)
  { s with waves := s.waves.map fun ((w, x) : Nat × Wave) => (w, { x with accs := x.accs.map fun ((k, a) : Nat × Access) => (k, match a.downFrom with
    | some t => if waits w k then a else { a with downFrom := none, downSum := a.downSum + (s.now - t) }
    | none => a) }) }

/-- LNKSTALL of a partition is written: the accesses that wait are held against it (R274, R403). -/
def State.lnkstallWrite (s : State) (p : Nat) (v : Dword) : State :=
  let s := s.modPart p fun k => { k with lnkstall := v }
  s.waves.foldl (fun s (w, x) => if x.part = p then x.accs.foldl (fun s (k, _) => State.stallArm s w k) s else s) s

/-- The same for an access whose request's link is DOWN now. -/
def State.stallJoin (s : State) (r : Req) (v : Waiter) : State :=
  match r.link, v.access with
  | some l, some (w, k) => if s.reqs.any fun (id, q) => q == r && s.reqDown id r && r.link == some l then s.stallFrom w k else s
  | _, _ => s

/-! Drawer requests (R386, R389). -/

/-- Sends a request to the link of a line's home; it arrives `d` cycles from now. The home's table in die `q` decides. The home counts as the
holder of a line that is read from here on (R310). -/
def State.drawerSend (s : State) (q line : Nat) (write : Bool) (bytes : List (BitVec 8)) (ws : List Waiter) (core : Option Nat)
    (low : Bool) (d : Nat) : State :=
  let pa := linePa line
  let (id, s) := s.fresh
  let r : Req := { line := line, write := write, part := (s.partOf pa).getD 0, die := q, link := some (s.linkOf q pa), group := bankGroup pa,
                   far := isFarPa pa, bytes := bytes, waiters := ws, core := core, swath := none, low := low }
  let s := s.setReq id r
  let s := if write then s else s.modLine line fun e => { e with fetching := some id }
  s.after d .drawerRequest [id]

/-- Adds a waiter to the fetch of a line that is under way (R310). -/
def State.joinFetch (s : State) (id : Nat) (w : Waiter) : State :=
  match s.req? id with
  | some r => (s.setReq id { r with waiters := r.waiters ++ [w] }).stallJoin r w
  | none => s

/-! Miss slots (R3, R319). -/

/-- The bank groups on which a core's miss slots wait, slot by slot: of its drawer requests, and of accesses on their way to a line's home. -/
def State.missSlots (s : State) (core : Nat) : List Nat :=
  (s.reqs.filterMap fun (_, r) => if r.core == some core then some r.group else none) ++
    s.waves.flatMap fun (w, x) => if coreOf w != core then [] else
      x.accs.flatMap fun (_, a) => (a.lines.filter (·.slot)).map fun u => bankGroup (linePa u.line)

/-- Whether a core has a miss slot for one more line: 320 in all, 64 on a bank group. -/
def State.slotFor (s : State) (core line : Nat) : Bool :=
  let taken := s.missSlots core
  decide (taken.length < 320) && decide ((taken.filter (· == bankGroup (linePa line))).length < 64)

/-! The die cache as its readers see it (R303, R311). -/

def dieSet (line : Nat) : Nat := line % 131072

/-- Whether a die's cache holds a line, be it as the copy of an RO line (R311). -/
def State.roCopy (s : State) (q line : Nat) : Bool := (Map.get [] (s.die q).cache (dieSet line)).contains line

/-- The other lines of a line's set. -/
def State.setLines (s : State) (die line : Nat) : List Nat := (Map.get [] (s.die die).cache (dieSet line)).filter (· != line)

/-- A read of a line that a die's cache holds makes it the most recently used of its set (R303). -/
def State.touchLine (s : State) (die line : Nat) : State :=
  if s.roCopy die line then s.modDie die fun d => { d with cache := Map.set [] d.cache (dieSet line) (line :: s.setLines die line) } else s

/-- The attach die of host requests of die `q` (R408). -/
def State.attach (s : State) (q : Nat) : Nat :=
  if (s.die 1).state = .run ∧ ringDist q 1 < ringDist q 0 then 1 else 0
/-- Cycles of a host-bias grant to die `q` (R408). -/
def State.hostCost (s : State) (q : Nat) : Nat := 1296 + 360 * ringDist q (s.attach q)

/-- The cycles of a request between dies: requester to home to holder (R318). -/
def hopsTo (q h d : Nat) : Nat := ringDist q h + ringDist h d

/-! Reads of the device (R318, R323, R472). WALK_COMPLETE carries what follows them, by its first operand: 0 an entry of a page walk has been read, or
its walk tries to end again; 1 a read reaches the line's home; 2 a line of a task has come; 3 a task looks a page up again; 4 a line of
instructions has come; 5 a prefetched line is at hand; 6 a claim is to be undone; 7 nothing more follows; 8 a line that a peer reads has come. -/

/-- A read by die `q` has reached its line's home, die `h`: `args` follows when the line has come (R310, R318). A home that serves no longer answers
HOME_OFFLINE (R417). A prefetch that finds no miss slot ends here (R161, R319). -/
def State.readAtHome (s : State) (q pa coh h : Nat) (args : List Nat) : State :=
  let line := pa / 128
  let past := 180 * ringDist q h
  let core : Option Nat := match args with | 5 :: c :: _ => some c | _ => none
  let low : Bool := match args with | [5, _, _, pol, _] => pol / 4 % 2 == 1 | _ => false
  if s.home h pa ≠ h then s.after (180 * ringDist h q) .homeOffline ([3, h, q, pa, coh] ++ args)
  else match (s.line line).fetching with
    | some id => s.joinFetch id (.read false q args)
    | none => match (s.line line).holder with
      | some d => (s.touchLine d line).after (96 + 180 * (hopsTo q h d + ringDist d q) - past) .walkComplete args
      | none =>
        if (core.map fun c => !s.slotFor c line).getD false then s
        else s.drawerSend q line false [] [.read true q args] core low (80 + 360 * ringDist q h - past)

/-- A read of a line by die `q`, of a page table, a structure of the device's own or an instruction: `args` follows when the line has come, along the
load path of R318 (R323). (DEDUCED, log 16) -/
def State.readLine (s : State) (q pa coh : Nat) (hb : Bool) (args : List Nat) : State :=
  let h := s.home q pa
  let line := pa / 128
  match s.scratchAt pa with
  | some (k, _) =>
    let d := ((s.team? k).map (·.core / 96)).getD h
    s.after (120 + 180 * (hopsTo q h d + ringDist d q)) .walkComplete args
  | none =>
    if hb || isHostPa pa then s.after (s.hostCost q) .walkComplete args
    else if (coh = 3 && s.roCopy q line) || ((s.line line).holder == some q && (s.line line).fetching.isNone) then
      (s.touchLine q line).after 96 .walkComplete args
    else if q = h then s.readAtHome q pa coh h args
    else s.after (180 * ringDist q h) .walkComplete ([1, q, pa, coh, h] ++ args)

/-! Page tables (R320 to R322). -/

/-- A walk's result: the outcome, and the PAs of the entries read, the leaf last. -/
structure Walk where
  out : Xlate
  reads : List Nat
deriving DecidableEq, Repr

/-- Whether an entry is a valid TABLE entry (R321). -/
def isTable (e : Nat) : Bool := bitsOf e 0 0 == 1 && bitsOf e 2 1 == 0 && bitsOf e 15 3 == 0 && bitsOf e 63 52 == 0

/-- The page of a PAGE entry. -/
def pageOf (part va e : Nat) (big : Bool) : Page :=
  let vpn := va / 2 ^ 16 % 2 ^ 48
  { vpn := if big then vpn / 2 ^ 13 * 2 ^ 13 else vpn, big := big, part := part, pa := bitsOf e 51 16 * 2 ^ 16,
    r := bitsOf e 3 3 == 1, w := bitsOf e 4 4 == 1, x := bitsOf e 5 5 == 1, supo := bitsOf e 6 6 == 1, coh := bitsOf e 8 7,
    dis := bitsOf e 9 9 == 1, hb := bitsOf e 10 10 == 1, flip := bitsOf e 11 11 == 1 }

/-- The physical address of a VA within a page. -/
def Page.addr (p : Page) (va : Nat) : Nat := p.pa + va % (if p.big then 2 ^ 29 else 2 ^ 16)

/-- Whether a page holds a VA of a partition. -/
def Page.holds (p : Page) (part va : Nat) : Bool :=
  p.part == part && (if p.big then p.vpn / 2 ^ 13 == va / 2 ^ 29 % 2 ^ 35 else p.vpn == va / 2 ^ 16 % 2 ^ 48)

/-- A leaf entry's outcome (R322, R331, R414, R422). -/
def State.leaf (s : State) (part va e : Nat) (big : Bool) : Xlate :=
  if bitsOf e 0 0 = 0 ∨ bitsOf e 15 13 ≠ 0 ∨ bitsOf e 63 52 ≠ 0 then .fault
  else match bitsOf e 2 1 with
  | 1 =>
    let p := pageOf part va e big
    let pa := p.addr va
    if big && bitsOf e 28 16 != 0 then .fault
    else if !namesMemory pa || !((s.part part).inWindow pa || isHostPa pa) then .fault
    else if (p.hb || isHostPa pa) && !s.featack.getLsbD 8 then .fault
    else .page p
  | 2 => if bitsOf e 51 36 ≠ 0 then .fault else if bitsOf e 12 12 = 1 then .claimed else .pool
  | _ => .fault

/-- The page walk of a VA in a partition (R320 to R322). -/
def State.walk (s : State) (part : Nat) (va : Nat) : Walk :=
  let a1 := (s.part part).ptbase.toNat + 8 * (va / 2 ^ 42 % 8192)
  let e1 := s.read a1 8
  if !isTable e1 then ⟨.fault, [a1]⟩ else
  let a2 := bitsOf e1 51 16 * 2 ^ 16 + 8 * (va / 2 ^ 29 % 8192)
  let e2 := s.read a2 8
  if bitsOf e2 0 0 = 1 ∧ bitsOf e2 2 1 ≠ 0 then ⟨s.leaf part va e2 true, [a1, a2]⟩
  else if !isTable e2 then ⟨.fault, [a1, a2]⟩ else
  let a3 := bitsOf e2 51 16 * 2 ^ 16 + 8 * (va / 2 ^ 16 % 8192)
  ⟨s.leaf part va (s.read a3 8) false, [a1, a2, a3]⟩

/-- The walks of a die that have a walker (R324). -/
def State.walkers (s : State) (die : Nat) : Nat := (s.walks.filter fun (_, k) => k.die == die && k.busy).length

/-- A walk reads its next entry, or, with none left to read, comes to its end (R323). -/
def State.walkRead (s : State) (id : Nat) (k : PageWalk) : State :=
  match (s.walk k.part k.va).reads[k.step]? with
  | some a => s.readLine k.die a 2 false [0, id]
  | none => s.after 0 .walkComplete [0, id]

/-- The oldest walk of a die that waits takes a walker, if one is free (R324). -/
def State.walkersGo (s : State) (die : Nat) : State :=
  if 32 ≤ s.walkers die then s else
  match List.find? (fun ((_, k) : Nat × PageWalk) => k.die == die && !k.busy) s.walks with
  | some (id, k) => State.walkRead { s with walks := Map.put s.walks id { k with busy := true } } id k
  | none => s

/-- A page is to be walked by a die (R324). -/
def State.beginWalk (s : State) (die part va : Nat) (use : WalkUse) : State :=
  let (id, s) := s.fresh
  State.walkersGo { s with walks := Map.put s.walks id { die := die, part := part, va := va, busy := false, step := 0, use := use } } die

/-! TLBs: lists with the most recently used entry first (R324). -/

/-- Looks a VA up in a list of pages and moves the entry found to the front. -/
def tlbFind (ps : List Page) (part va : Nat) : Option (Page × List Page) :=
  match ps.find? (·.holds part va) with
  | some p => some (p, p :: ps.erase p)
  | none => none
/-- Enters a page, the least recently used entry making room. -/
def tlbAdd (ps : List Page) (n : Nat) (p : Page) : List Page := (p :: ps.filter (· != p)).take n

/-- The die-TLB set of a page: 512 sets of 16 ways, by the low bits of the page number. (DESIGN CHOICE, log 8) -/
def tlbSet (vpn : Nat) (big : Bool) : Nat := if big then vpn / 2 ^ 13 % 512 else vpn % 512
def Die.tlbFind (d : Die) (part va : Nat) : Option (Page × Die) :=
  let look (k : Nat) : Option (Page × Die) :=
    match Machine.tlbFind (Map.get [] d.tlb k) part va with
    | some (p, l) => some (p, { d with tlb := Map.set [] d.tlb k l })
    | none => none
  match look (tlbSet (va / 2 ^ 16 % 2 ^ 48) false) with
  | some r => some r
  | none => look (tlbSet (va / 2 ^ 16 % 2 ^ 48) true)
def Die.tlbAdd (d : Die) (p : Page) : Die :=
  let k := tlbSet p.vpn p.big
  { d with tlb := Map.set [] d.tlb k (Machine.tlbAdd (Map.get [] d.tlb k) 16 p) }

/-- What a cached page gives for a VA: every translation tests the PA against the memory and the partition's windows as they stand (R305, R414, R471). -/
def State.pageAt (s : State) (p : Page) (va : Nat) : Xlate :=
  if namesMemory (p.addr va) && ((s.part p.part).inWindow (p.addr va) || isHostPa (p.addr va)) then .page p else .fault

/-- How a VA translates for an access that the device makes on its own behalf (R471): as its die TLB holds the page, or else as a walk finds it. -/
def State.devXlate (s : State) (die part va : Nat) : Xlate :=
  if !canonical (BitVec.ofNat 64 va) then .fault else
  match (s.die die).tlbFind part va with
  | some (p, _) => s.pageAt p va
  | none => (s.walk part va).out

/-- The PA of a device access that needs read or write permission, if it translates (R471). -/
def State.devAddr (s : State) (die part va : Nat) (write : Bool) : Option Nat :=
  match s.devXlate die part va with
  | .page p => if (if write then p.w && p.coh != 3 else p.r) then some (p.addr va) else none
  | _ => none

/-- The first addresses, page by page, of `n` bytes from a VA. -/
def pagesOf (va n : Nat) : List Nat :=
  if n = 0 then [] else (List.range ((va + n - 1) / 2 ^ 16 - va / 2 ^ 16 + 1)).map fun k => max va ((va / 2 ^ 16 + k) * 2 ^ 16)

/-- Whether a page that `n` bytes lie in is changing its bias: a device access waits at its translation (R334). -/
def State.devFlips (s : State) (die part va n : Nat) : Bool :=
  (pagesOf va n).any fun v => match s.devXlate die part v with
  | .page p => p.flip
  | _ => false

/-! Tasks of the device (R472). A piece of a task is a stretch of virtual memory: partition, first address, length, and its kind: 0 its pages are
translated; 1 its lines are asked for too, within the figure of the operation that needs them; 2 its lines are waited for. -/

/-- The lines of a task's piece, in a page that is at hand: how many of them it waits for, and the state in which they are read. -/
def State.taskLines (s : State) (id die : Nat) (p : Page) (va last mode : Nat) : Nat × State :=
  let fin := min last (va / 2 ^ 16 * 2 ^ 16 + 2 ^ 16)
  let n := if mode = 0 then 0 else (fin - 1) / 128 - va / 128 + 1
  (if mode = 2 then n else 0, (List.range n).foldl (fun s k =>
    State.readLine s die (p.addr ((va / 128 + k) * 128)) p.coh p.hb (if mode = 2 then [2, id] else [7])) s)

/-- A page of a task's piece is looked up: nothing is added where the die TLB holds it, and a walk where it does not; a page whose bias is changing is
looked up again until it is done (R334, R472). The answer is how much the task waits for. (DEDUCED, log 105) -/
def State.taskPage (s : State) (id die part va last mode : Nat) : Nat × State :=
  if !canonical (BitVec.ofNat 64 va) then (0, s) else
  match (s.die die).tlbFind part va with
  | some (p, d) =>
    let s := s.setDie die d
    (match s.pageAt p va with
     | .page p => if p.flip then (1, s.after 1 .walkComplete [3, id, die, part, va, last, mode]) else s.taskLines id die p va last mode
     | _ => (0, s))
  | none => (1, s.beginWalk die part va (.task id last mode))

/-- The device is to read or write stretches of its own: whether it may go on at once; if not, `go` follows with `args` and the cycle in which the first
line came, once all is at hand (R472). -/
def State.devTask (s : State) (die : Nat) (as : List (Nat × Nat × Nat × Nat)) (go : Instr) (args : List Nat) : Bool × State :=
  let id := (s.tasks.map (·.1)).foldl max 0 + 1
  let (left, s) := as.foldl (fun ((left, s) : Nat × State) (part, va, n, mode) => (pagesOf va n).foldl (fun ((left, s) : Nat × State) v =>
    let (k, s) := s.taskPage id die part v (va + n) mode
    (left + k, s)) (left, s)) (0, s)
  if left = 0 then (true, s) else (false, { s with tasks := Map.put s.tasks id { left := left, first := none, go := go, args := args } })

/-- One of the things that a task waits for has come; `more` take its place. `line`: it was a line. -/
def State.taskStep (s : State) (id more : Nat) (line : Bool) : State :=
  match Map.find? s.tasks id with
  | none => s
  | some t =>
    let t := { t with left := t.left + more - 1, first := if line && t.first.isNone then some s.now else t.first }
    if t.left = 0 then State.after { s with tasks := Map.erase s.tasks id } 0 t.go (t.args ++ [t.first.getD s.now])
    else { s with tasks := Map.put s.tasks id t }

/-- Reads `n` bytes at a VA of a partition with supervisor rights, byte by byte (R471). -/
def State.devRead (s : State) (die part va n : Nat) : Option (List (BitVec 8)) :=
  (List.range n).mapM fun k =>
    match s.devAddr die part (va + k) false with
    | some pa => some (s.byte pa)
    | none => none

/-- Whether `n` bytes at a VA translate with the permission needed (R471). -/
def State.devOk (s : State) (die part va n : Nat) (write : Bool) : Bool :=
  (pagesOf va n).all fun v => (s.devAddr die part v write).isSome

/-- Writes bytes at a VA of a partition, where they translate (R471). -/
def State.devWrite (s : State) (die part va : Nat) : List (BitVec 8) → State
  | [] => s
  | b :: t =>
    let s := match s.devAddr die part va true with
      | some pa => s.putByte pa b
      | none => s
    State.devWrite s die part (va + 1) t

/-- Drops the translations of a VA, or all of a partition's, from every TLB and last-page register (R267). -/
def State.dropPages (s : State) (keep : Page → Bool) : State :=
  { s with
    cores := s.cores.map fun (k, c) => (k, { c with tlb := c.tlb.filter keep })
    dies := s.dies.map fun (k, d) => (k, { d with tlb := (d.tlb.map fun (i, l) => (i, l.filter keep)).filter fun (_, l) => l != [] })
    waves := s.waves.map fun (k, w) => (k, { w with
      lastPage := w.lastPage.filter fun (_, p) => keep p
      win := w.win.map fun v => { v with lastPage := v.lastPage.filter fun (_, p) => keep p } })
    cmds := s.cmds.map fun (k, c) => (k, { c with pages := c.pages.filter fun (_, x) => match x with | .page p => keep p | _ => false }) }

/-- Whether a page's answer makes its access wait: another handler owns the entry (R331), or the page's bias is changing (R334). -/
def Xlate.waits : Xlate → Bool
  | .claimed => true
  | .page p => p.flip
  | _ => false

/-- Forgets what was looked up for a fragment's held bundle, or for a fetch that is still under way, so that they look again (R267, R331, R334). -/
def Seq.dropFound (q : Seq) (gone : Nat → Xlate → Bool) : Seq :=
  let left (ps : List (Nat × Xlate)) : List (Nat × Xlate) := ps.filter fun (v, o) => !gone v o
  { q with
    part := q.part.map fun p => { p with pages := left p.pages }
    pages := match q.fetch with | .ready => q.pages | .busy _ => q.pages | _ => left q.pages
    fetch := if q.fetch == .held && !(left q.pages).any (·.2.waits) then .need else q.fetch }

/-- The same for every fragment of a wave, those that a rollback or a return from a trap would bring back among them. -/
def Wave.dropFound (x : Wave) (gone : Nat → Xlate → Bool) : Wave :=
  let all (m : Map Seq) : Map Seq := m.map fun (i, q) => (i, q.dropFound gone)
  let each (c : Ctx) : Ctx := { c with seqs := all c.seqs, spill := all c.spill }
  { x with ctx := each x.ctx, win := x.win.map fun v => { v with ckpt := each v.ckpt }, trap := x.trap.map fun t => { t with saved := each t.saved } }

/-- Whether an invalidation of the page of a VA drops a cached page: one that holds it, or a part of the 512 MiB page that holds it (R267, R325). -/
def Page.covers (p : Page) (part va : Nat) : Bool :=
  p.holds part va || (p.part == part && p.whole && p.vpn / 2 ^ 13 == va / 2 ^ 29 % 2 ^ 35)

/-- tlbinv (R267): drops the page that holds a VA, a whole 512 MiB page's range, or every page of the partition. -/
def State.tlbInv (s : State) (part : Nat) (all : Bool) (va : Nat) (l2 : Bool) : State :=
  let same (v : Nat) : Bool := v / 2 ^ 13 == va / 2 ^ 29 % 2 ^ 35
  let gone (v : Nat) (o : Xlate) : Bool := all || (if l2 then same v else v == va / 2 ^ 16 % 2 ^ 48) ||
    (match o with | .page p => p.big && same v | _ => false)
  let s := s.dropPages fun p => !(p.part == part && (all || (if l2 then same p.vpn else p.covers part va)))
  { s with waves := s.waves.map fun ((k, x) : Nat × Wave) => (k, if x.part = part then x.dropFound gone else x) }

end Sys2Proof.Machine
end

