-- ==== Sys2Proof/Machine/Wave.lean ====
section
/-! DEFINITION. A wave's operations in flight, its undo log and the tracking of its reads, and the rollback of its window (R283 to R293). -/
namespace Sys2Proof.Machine

/-! Operations in flight write their results into the context and into whichever saved contexts still expect them. -/

/-- Changes the context, the checkpoint of an open window and a handler's saved context, as `f` says (R291: an operation
triggered before the checkpoint writes its results as if nothing had followed it). -/
def Wave.mapCtx (x : Wave) (f : Ctx → Ctx) : Wave :=
  { x with
    ctx := f x.ctx
    win := x.win.map fun v => { v with ckpt := f v.ckpt }
    trap := x.trap.map fun t => { t with saved := f t.saved } }

/-- Writes an operation's results into the lanes where it is still the unit's most recent operation (R58). -/
def Ctx.deliver (c : Ctx) (k : Nat) (p : Pending) : Ctx :=
  let ls := (lanesOf p.lanes).filter fun l => Map.get 0 c.last (32 * unitCode p.unit + l) = k
  let m := maskOf ls
  p.ports.foldl (fun c v => (ls.foldl (fun c l => c.setReg v l (Map.get 0 p.vals (32 * v + l))) c).clearBusy v m) c

/-- An access not yet performed (R282); fences and prefetches are no accesses. -/
def Access.open (a : Access) : Bool := !a.done && (match a.kind with | .fence _ => false | _ => true)

/-- An access that the wave still waits for: it is open, or it is a load whose value is on its way back, as the printed run of R437 has it.
(DEDUCED, log 107) -/
def Access.awaited (a : Access) : Bool := a.open || (match a.kind with | .load _ _ => true | _ => false)

/-- Some older program memory operation of the wave has not performed (R283, R295, R437). (DEDUCED, log 107) -/
def Wave.unperformed (x : Wave) : Bool := !x.quOut.isEmpty || x.accs.any fun (_, a) => a.awaited

/-- Records register vectors in the undo log of an open window or of a handler (R284, R362). -/
def Wave.log (x : Wave) (vs : List Nat) : Wave :=
  let add (l : List Nat) : List Nat := vs.foldl (fun l v => if l.contains v then l else l ++ [v]) l
  match x.win with
  | some w => { x with win := some { w with logged := add w.logged } }
  | none => match x.trap with
    | some t => { x with trap := some { t with logged := add t.logged } }
    | none => x

/-! Tracking of window reads (R290). -/

/-- Clears every mask and watch entry of a wave (R288, R291). -/
def State.clearSpec (s : State) (w : Nat) (read : List Place) : State :=
  let c := coreOf w
  let gone : List Nat := read.filterMap fun p => match p with | .mem l => some l | _ => none
  let s := if gone.isEmpty then s else
    s.modCore c fun k => { k with l1 := k.l1.map fun (i, ls) => (i, ls.map fun e => { e with spec := e.spec.filter (· != slotOfWave w) }) }
  let s := gone.foldl (fun s l => if (s.line l).watch.contains w then s.modLine l fun e => { e with watch := e.watch.filter (· != w) } else s) s
  { s with teams := s.teams.map fun (k, t) => (k, { t with spec := (t.spec.map fun (i, ws) => (i, ws.filter (· != w))).filter fun (_, ws) => ws != [] }) }

/-- Whether a fragment of a context has STACK to deliver at its bundle (R31). -/
def Ctx.stacks (c : Ctx) : Bool := (c.seqs ++ c.spill).any fun (_, q) => q.stacked

/-! Rollback and commit (R288 to R293, R297). -/

/-- ESC falls once the wave has been resident for 4,096 cycles with no rollback; it does not change while a rollback forced by a trap keeps
windows shut (R293, R297). -/
def Wave.escOver (x : Wave) (now : Nat) : Bool :=
  x.ctx.esc != 0 && x.noWin == 0 && x.stop != .swapping && decide (x.escStamp + 4096 ≤ now)

/-- The pending traps that outlast a rollback: STACK at a merge the rollback undoes is raised again when the merge is (R31, R292, R373).
(DEDUCED, log 56) -/
def Wave.keptTraps (x : Wave) (v : Window) : List Trap := x.traps.filter fun t => t.pc.isNone || v.ckpt.stacks

/-- Rolls an open window back (R291). Causes: 0 conflict, 1 watch table full, 2 trap, 3 swap. -/
def State.rollback (s : State) (w cause : Nat) : State :=
  match s.wave? w with
  | none => s
  | some x => match x.win with
    | none => s
    | some v =>
      let s := s.clearSpec w v.read
      let counted := decide (cause ≤ 1)
      let rb := if counted then min 255 (x.ctx.rbcnt + 1) else x.ctx.rbcnt
      let esc := if counted then (if 8 ≤ rb then 2 else if 4 ≤ rb then max 1 x.ctx.esc else x.ctx.esc) else x.ctx.esc
      let c := { v.ckpt.anew with heads := x.ctx.heads }
      let c := ((c.setWstat 23 16 rb).setWstat 1 0 esc).setWstat 5 5 0
      let c := c.setWstat 7 7 (if x.ctx.yreq then 1 else 0)
      let till := s.now + 10 + v.logged.length
      let s := s.setWave w { x with
        ctx := c, win := none, rollTill := till,
        accs := x.accs.filter fun (k, _) => decide (k < v.firstOp),
        pend := x.pend.filter fun (k, _) => decide (k < v.firstOp),
        noWin := if cause = 2 then 256 else x.noWin,
        traps := x.keptTraps v
        inject := v.inject ++ x.inject.filter fun i => !v.inject.contains i
        lastPage := v.lastPage
        escStamp := s.now }
      let s := if v.abn = 0 then s else s.modTeam x.team fun t => { t with abn := Map.set 0 t.abn x.index (Map.get 0 t.abn x.index ||| v.abn) }
      let s := s.modCore (coreOf w) fun k => { k with rollbk := k.rollbk + 1 }
      let s := if esc = 0 then s else s.after 4096 .escDecay [w, s.now]
      s.at_ till .rollbackEnd [w]

/-- A conflict reaches a wave (R289). -/
def State.conflict (s : State) (w : Nat) : State := s.rollback w 0

end Sys2Proof.Machine
end

