-- ==== Sys2Proof/Machine/Hier.lean ====
section
/-! DEFINITION. Caches, holders, leases and watches of lines, and the requests they send to the drawer
(12_memory_model.md, 13_memory_hierarchy_and_translation.md). -/
namespace Sys2Proof.Machine

/-- The 128 bytes of a line, as programs see them. -/
def State.lineBytes (s : State) (line : Nat) : List (BitVec 8) := Memory.readAll s.mem (linePa line) 128

/-! The L1 (R303, R307, R308): 128 sets of 8 ways, most recently used first. -/

def l1Set (line : Nat) : Nat := line % 128

/-- A valid L1 copy: no lease, or a lease that has not expired (R308). -/
def L1Line.valid (e : L1Line) (now : Nat) : Bool := match e.lease with | none => true | some t => decide (now ≤ t)

def Core.l1Find (c : Core) (now line : Nat) : Option L1Line :=
  (Map.get [] c.l1 (l1Set line)).find? fun e => e.line == line && e.valid now

/-- Changes the entry of a line, if the L1 holds it. -/
def Core.l1Mod (c : Core) (line : Nat) (f : L1Line → L1Line) : Core :=
  if (Map.get [] c.l1 (l1Set line)).any (·.line == line) then
    { c with l1 := Map.set [] c.l1 (l1Set line) ((Map.get [] c.l1 (l1Set line)).map fun e => if e.line = line then f e else e) }
  else c

/-- Moves the entry of a line to the most recently used place. -/
def Core.l1Touch (c : Core) (line : Nat) : Core :=
  match (Map.get [] c.l1 (l1Set line)).find? (·.line == line) with
  | some e => { c with l1 := Map.set [] c.l1 (l1Set line) (e :: (Map.get [] c.l1 (l1Set line)).filter (·.line != line)) }
  | none => c

/-- Drops the entry of a line. -/
def Core.l1Drop (c : Core) (line : Nat) : Core :=
  if (Map.get [] c.l1 (l1Set line)).any (·.line == line) then
    { c with l1 := Map.set [] c.l1 (l1Set line) ((Map.get [] c.l1 (l1Set line)).filter (·.line != line)) }
  else c

/-- The die in whose watch table a line's entries stand: its holder's, or its home's while no die keeps the line (R290, R312). (DEDUCED, log 110) -/
def State.watchDie (s : State) (line : Nat) : Nat := (s.line line).holder.getD (s.home 0 (linePa line))

/-- The entries in use in a die's watch table (R290). -/
def State.watchCount (s : State) (die : Nat) : Nat :=
  ((s.lines.filter fun (l, e) => e.watch != [] && s.watchDie l == die).map fun (_, e) => e.watch.length).foldl (· + ·) 0

/-- Records watch entries of waves at a line, or rolls back the waves for which the table has no room (R290). -/
def State.watchLine (s : State) (line : Nat) (ws : List Nat) : State :=
  ws.foldl (fun s w =>
    if (State.line s line).watch.contains w then s
    else if s.watchCount (s.watchDie line) < 16384 then s.modLine line fun e => { e with watch := e.watch ++ [w] }
    else s.rollback w 1) s

/-- The holder of a line changes. Its watch entries move with it, as far as the table they come to has room (R290, R312). -/
def State.setHolder (s : State) (line : Nat) (d : Option Nat) : State :=
  let ws := (s.line line).watch
  (s.modLine line fun e => { e with holder := d, watch := [] }).watchLine line ws

/-- Enters a line in a core's L1 (R164, R307); the evicted line's tracking moves to the watch table (R290). -/
def State.l1Enter (s : State) (core line : Nat) (lease : Option Nat) (evf : Bool) : State :=
  let c := s.core core
  let others := (Map.get [] c.l1 (l1Set line)).filter (·.line != line)
  let old := ((Map.get [] c.l1 (l1Set line)).find? (·.line == line)).map (·.spec)
  let e : L1Line := ⟨line, lease, old.getD []⟩
  let kept := others.take 7
  let gone := others.drop 7
  let s := s.setCore core { c with l1 := Map.set [] c.l1 (l1Set line) (if evf then kept ++ [e] else e :: kept) }
  gone.foldl (fun s g => s.watchLine g.line (g.spec.map (core * 16 + ·))) s

/-- The cores that hold an L1 copy of a line. -/
def State.l1Holders (s : State) (line : Nat) : List Nat :=
  (s.cores.filter fun (_, c) => (Map.get [] c.l1 (l1Set line)).any (·.line == line)).map (·.1)

/-- The directory invalidates every L1 copy of a line: a conflict for the windows that read it (R289), the writer's own
excepted. -/
def State.dropCopies (s : State) (line : Nat) (writer : Option Nat) : State :=
  (s.l1Holders line).foldl (fun s k =>
    let spec := ((Map.get [] (State.core s k).l1 (l1Set line)).find? (·.line == line)).map (·.spec)
    let s := s.modCore k (·.l1Drop line)
    ((spec.getD []).map (k * 16 + ·)).foldl (fun s w => if some w = writer then s.watchLine line [w] else s.conflict w) s) s

/-! Drawer requests (R386, R389). -/

/-- Writes a dirty line back to the drawer (R309, R310). -/
def State.writeBack (s : State) (die line : Nat) (ws : List Waiter) : State :=
  let bytes := s.lineBytes line
  let s := s.modLine line fun e => { e with dirty := false }
  s.drawerSend die line true bytes ws none false (80 + 180 * ringDist die (s.home die (linePa line)))

/-! The die cache (R303, R309): 131,072 sets of 16 ways. -/

/-- A die keeps no copy of the line any more. -/
def State.uncache (s : State) (die line : Nat) : State :=
  if (Map.get [] (s.die die).cache (dieSet line)).contains line then
    s.modDie die fun d => { d with cache := Map.set [] d.cache (dieSet line) ((Map.get [] d.cache (dieSet line)).filter (· != line)) }
  else s

/-- No die keeps a copy of the line any more. -/
def State.uncacheAll (s : State) (line : Nat) : State := upto 4 (fun s d => s.uncache d line) s

/-- Evicts a line from a die's cache (R309): its L1 copies go first, their tracking moves to the watch table, a dirty line is
written back, and the line has no holder. Eviction alone is no conflict (R312). -/
def State.evict (s : State) (die line : Nat) : State :=
  let s := (s.l1Holders line).foldl (fun s k =>
    if k / 96 = die then
      let spec := ((Map.get [] (State.core s k).l1 (l1Set line)).find? (·.line == line)).map (·.spec)
      (s.modCore k (·.l1Drop line)).watchLine line ((spec.getD []).map (k * 16 + ·))
    else s) s
  let s := s.uncache die line
  let e := s.line line
  if e.holder = some die then
    let s := if e.dirty then s.writeBack die line [] else s
    s.setHolder line none
  else s

/-- The line that makes room in a full set: the least recently used without a live lease (R309). -/
def State.spare (s : State) (die line : Nat) : Option Nat := (s.setLines die line).reverse.find? fun l => decide ((s.line l).lease < s.now)

/-- Cycles until a line can enter a die's cache, 0 when it can: the earliest end of a lease where every way has one, or the write-back of a dirty
victim, which sets off here (R309). -/
def State.makeRoom (s : State) (die line : Nat) : Nat × State :=
  if (s.setLines die line).length < 16 then (0, s) else
  match s.spare die line with
  | some v =>
    if (s.line v).dirty && (s.line v).holder == some die then (1, s.writeBack die v [])
    else if s.reqs.any fun (_, r) => r.write && r.line == v then (1, s)
    else (0, s)
  | none => ((s.setLines die line).foldl (fun m l => min m (s.line l).lease) (s.now + 511) + 1 - s.now, s)

/-- Keeps a line in a die's cache, the least recently used line without a live lease making room; without room it is not kept (R309). -/
def State.cacheLine (s : State) (die line : Nat) (low : Bool) : State :=
  let s := if (s.setLines die line).length < 16 then s else
    match s.spare die line with
    | some v => s.evict die v
    | none => s
  let rest := s.setLines die line
  if rest.length < 16 then s.modDie die fun d => { d with cache := Map.set [] d.cache (dieSet line) (if low then rest ++ [line] else line :: rest) } else s

/-- A line arrives from the drawer at its home, which is its holder, unless a write has moved it on the way (R310, R473). -/
def State.install (s : State) (home line : Nat) (poison low : Bool) : State :=
  let d := (s.line line).holder.getD home
  let s := (s.modLine line fun e => { e with fetching := none, poison := e.poison || poison }).setHolder line (some d)
  s.cacheLine d line low

/-- A die takes a line over as its holder (R310): the previous holder drops its copy. (DEDUCED, log 30) -/
def State.own (s : State) (die line : Nat) : State :=
  let s := match (s.line line).holder with
    | some d => if d = die then s else (s.dropCopies line none).uncache d line
    | none => s
  (s.setHolder line (some die)).cacheLine die line false

/-- The waves, other than the writer, that watch a line (R289, R290). -/
def State.watchers (s : State) (line : Nat) (writer : Option Nat) : List Nat := (s.line line).watch.filter fun w => some w != writer

/-- A write of a line by a party of die `q` takes effect there (R307, R310): every L1 copy is invalidated, the die is the
holder, and the line is dirty. The bytes are written by the caller. -/
def State.writeLine (s : State) (q line : Nat) (writer : Option Nat) : State :=
  let s := s.dropCopies line writer
  let s := if isHostPa (linePa line) then s else (s.own q line).modLine line fun e => { e with dirty := true }
  (s.watchers line writer).foldl (fun s w => s.conflict w) s

/-- Sends the notices a write owes to the watches it meets, and gives the cycles until the last has been told (R289). -/
def State.notify (s : State) (q line : Nat) (writer : Option Nat) : Nat × State :=
  (s.watchers line writer).foldl (fun (d, s) w =>
    let t := 180 * ringDist q (dieOf w)
    if t = 0 then (d, s.conflict w) else (max d t, s.after t .watchNotice [w, line])) (0, s)

/-- WATCH_NOTICE: a write is told to a watching wave, as a conflict (R289). -/
def State.watchNotice (s : State) (w line : Nat) : State :=
  if (s.line line).watch.contains w then s.conflict w else s

/-- Asks the host for a line, shared or exclusive, for die `q`, on behalf of a part of an access (R332, R408). -/
def State.hostAsk (s : State) (q line : Nat) (excl : Bool) (w k i : Nat) : State :=
  s.after (s.hostCost q) .hostGrant [line, if excl then 1 else 0, q, w, k, i]

/-- Cycles until the line of a write by a party of die `q` is writable at the holder: it waits for leases, for room at its own die, and, where something
is to be written (`tell`), for watches of other parties, to which the notices are sent (R282, R289, R308, R309). `none`: the line is on its way from the drawer, but for a request of the writer's
own, or the host has not granted it. (DEDUCED, log 29; DEDUCED, log 37) -/
def State.lineWait (s : State) (q line : Nat) (hb : Bool) (writer : Option Nat) (mine : Bool) (tell : Bool := true) : Option Nat × State :=
  let e := s.line line
  let note (s : State) (t : Nat) : State := s.modLine line fun e => { e with waits := max e.waits t }
  if hb && e.grant != some true then (none, s)
  else if e.fetching.isSome && !mine then (none, s)
  else if e.lease != 0 && decide (s.now < e.lease + 8) then (some (e.lease + 8 - s.now), note s (e.lease + 8))
  else match (if isHostPa (linePa line) then (0, s) else s.makeRoom q line) with
    | (d + 1, s) => (some (d + 1), s)
    | (0, s) =>
      let (d, s) := if tell then s.notify q line writer else (0, s)
      (some d, if d = 0 then s else note s (s.now + d))

/-- As `lineWait`, for a write that the device makes of its own to memory: cycles until it looks again, 0 when it may write. The host is asked
for a line it has not granted (R332). -/
def State.frameReady (s : State) (q line : Nat) (hb : Bool) (writer : Option Nat := none) : Nat × State :=
  match s.lineWait q line hb writer false with
  | (some d, s) => (d, s)
  | (none, s) =>
    let asked := s.agenda.any fun (_, i, a) => i == .hostGrant && a.take 3 == [line, 1, q]
    (1, if hb && (s.line line).grant != some true && !asked then s.hostAsk q line true 0 0 0 else s)

/-- As `frameReady`, where a live scratch window stands before memory and takes the write at once (R316). -/
def State.lineReady (s : State) (q line : Nat) (hb : Bool) (writer : Option Nat := none) : Nat × State :=
  if (s.scratchAt (linePa line)).isSome then (0, s) else s.frameReady q line hb writer

/-- Whether the device may write `n` bytes of its own at a VA of a partition now, as `lineReady` answers: 0, or the cycles until it looks again.
A page whose bias is changing makes it wait at translation (R334). -/
def State.devReady (s : State) (die part va n : Nat) : Nat × State :=
  (pagesOf va n).foldl (fun ((d, s) : Nat × State) v =>
    match s.devXlate die part v with
    | .page p =>
      if p.flip then (max d 1, s)
      else if !p.w || p.coh == 3 then (d, s)
      else
        let last := min (va + n) (v / 2 ^ 16 * 2 ^ 16 + 2 ^ 16)
        (List.range ((last - 1) / 128 - v / 128 + 1)).foldl (fun ((d, s) : Nat × State) k =>
          let pa := p.addr ((v / 128 + k) * 128)
          let (e, s) := s.lineReady die (pa / 128) (p.hb || isHostPa pa)
          (max d e, s)) (d, s)
    | _ => (d, s)) (0, s)

/-- Cycles until a page-table entry may be written by a party of die `q`, on behalf of wave `writer` if of any; 0 when it may (R289, R307, R332). -/
def State.pteReady (s : State) (q a : Nat) (writer : Option Nat) : Nat × State := s.lineReady q (a / 128) (isHostPa a) writer

/-- A page-table entry is written by a party of die `q`, which may be done (`pteReady`) (R289, R331, R334). -/
def State.writePte (s : State) (q a e : Nat) (writer : Option Nat) : State := (s.writeLine q (a / 128) writer).write a (toBytes 8 e)

/-- The POOL entries that a killed wave of die `q` has claimed are to be written back with CLAIM = 0 and invalidated (R331). -/
def State.unclaim (s : State) (q part : Nat) (claims : List (Nat × Nat)) : State :=
  claims.foldl (fun s ((a, vpn) : Nat × Nat) => State.after s 0 .walkComplete [6, q, part, a, vpn]) s

/-- A claimed POOL entry is written back with CLAIM = 0 and invalidated, once its line may be written; an entry that a pmap has replaced meanwhile stays
(R331). -/
def State.unclaimAt (s : State) (q part a vpn : Nat) : State :=
  let e := s.read a 8
  if bitsOf e 0 0 ≠ 1 ∨ bitsOf e 2 1 ≠ 2 ∨ bitsOf e 12 12 ≠ 1 then s else
  match s.pteReady q a none with
  | (d + 1, s) => s.after (d + 1) .walkComplete [6, q, part, a, vpn]
  | (0, s) =>
    let big := (s.walk part (vpn * 2 ^ 16)).reads.length == 2
    (s.writePte q a (e - 2 ^ 12) none).tlbInv part false (vpn * 2 ^ 16) big

/-- A write waits at the line's holder: a store or atomic has arrived there, or some write waits for leases or watches (R287, R308). -/
def State.writerWaits (s : State) (line : Nat) : Bool :=
  (decide (s.now ≤ (s.line line).waits) && (s.line line).waits != 0) || s.waves.any fun (_, x) => x.accs.any fun (_, a) =>
    !a.done && (match a.kind with | .store _ => true | .atomic _ => true | .cinvDis => true | _ => false) &&
      a.lines.any fun u => u.ready && !u.done && u.place == .mem line

/-- LEASE_EXPIRY: SI leases end: their copies are invalid, a window that read one is in conflict when a writer waits, and
otherwise its lease is renewed. Each L1 has a lease of its own (R287, R308). -/
def State.leaseExpiry (s : State) (line : Nat) : State :=
  (s.l1Holders line).foldl (fun s k =>
    let c := State.core s k
    match (Map.get [] c.l1 (l1Set line)).find? (·.line == line) with
    | some l =>
      if l.lease.isNone || l.valid s.now then s
      else if l.spec.isEmpty then s.modCore k (·.l1Drop line)
      else if s.writerWaits line = false then
        ((s.modCore k (·.l1Mod line fun l => { l with lease := some (s.now + 511) })).modLine line fun e =>
          { e with lease := max e.lease (s.now + 511) }).after 512 .leaseExpiry [line]
      else (l.spec.map (k * 16 + ·)).foldl (fun s w => s.conflict w) (s.modCore k (·.l1Drop line))
    | none => s) s

/-- The bytes the drawer holds of a line, a write-back in flight included (R314). -/
def State.drawerBytes (s : State) (line : Nat) : List (BitVec 8) :=
  match (s.reqs.filter fun (_, r) => r.write && r.line == line).getLast? with
  | some (_, r) => r.bytes
  | none => Memory.readAll s.drawer (linePa line) 128

/-- Discards a line (R314): every copy is dropped, the bytes revert to the drawer's, poison clears, and every other wave's
window that read it sees a store. -/
def State.discard (s : State) (line : Nat) (writer : Option Nat) : State :=
  let bytes := s.drawerBytes line
  let s := s.dropCopies line writer
  let s := s.uncacheAll line
  let s := (s.watchers line writer).foldl (fun s w => s.conflict w) s
  let s := (s.modLine line fun e => { e with dirty := false, poison := false }).setHolder line none
  { s with mem := Memory.writeAll s.mem (linePa line) bytes }

/-- Drops every copy of a line, a dirty one written back first (R162). -/
def State.dropLine (s : State) (line : Nat) (ws : List Waiter) : State :=
  let e := s.line line
  let s := if e.dirty then (match e.holder with | some d => s.writeBack d line ws | none => s) else s
  let s := (s.l1Holders line).foldl (fun s k =>
    let spec := ((Map.get [] (State.core s k).l1 (l1Set line)).find? (·.line == line)).map (·.spec)
    (s.modCore k (·.l1Drop line)).watchLine line ((spec.getD []).map (k * 16 + ·))) s
  ((s.uncacheAll line).modLine line fun e => { e with dirty := false }).setHolder line none

/-- HOST_RECALL: the host takes a line away: a conflict for every window that read it (R289, R332). -/
def State.hostRecall (s : State) (line : Nat) : State :=
  let s := (s.watchers line none).foldl (fun s w => s.conflict w) s
  let s := match (s.line line).holder with | some d => s.uncache d line | none => s
  (s.modLine line fun e => { e with grant := none, dirty := false }).setHolder line none

end Sys2Proof.Machine
end

