-- ==== Sys2Proof/Machine/Life.lean ====
section
/-! DEFINITION. What happens to a whole wave: the mailbox (R364), barriers (R188 to R192), merges and sequencers (R30 to R32), the baton,
vacancy, retirement and kills (R25, R376), region restart (R372). -/
namespace Sys2Proof.Machine

/-! Mailbox messages (R364). -/

/-- IDENT of a wave (R264). -/
def State.ident (s : State) (w : Nat) : Dword :=
  let x := s.wave w
  let t := (s.team? x.team)
  let no : Word := match t with | some t => if t.task then 0xFFFFFFFF#32 else t.number | none => 0
  let lo := (if (t.map (·.task)).getD false then 0 else x.index) + (coreOf w % 4) * 2 ^ 4 + (cloverOf w % 24) * 2 ^ 6
    + dieOf w * 2 ^ 11 + x.part * 2 ^ 13
  joinWords no (BitVec.ofNat 32 lo)

/-- A device-generated message about a wave. -/
def deviceMsg (core kind cause : Nat) (ident : Dword) (mask : Mask) (pc info : Dword) : Msg :=
  { core := core % 4,
    bytes := toBytes 1 kind ++ [0] ++ toBytes 1 cause ++ [0] ++ toBytes 4 (lowWord ident).toNat ++ toBytes 4 (highWord ident).toNat
      ++ toBytes 4 mask.toNat ++ toBytes 8 pc.toNat ++ toBytes 8 info.toNat }

/-- Sends a message on its way to a clover's manager; it takes a slot in a step of its own. -/
def State.postMsg (s : State) (clover : Nat) (m : Msg) : State :=
  (s.modClover clover fun c => { c with mailWait := c.mailWait ++ [m] }).after 0 .mailboxPost [clover]

/-- The free mailbox slot a message from a core takes: its reserved slots first, then the shared ones (R271). (DESIGN CHOICE, log 6) -/
def Clover.freeSlot (c : Clover) (core : Nat) : Option Nat :=
  ((List.range 4).map (core * 4 + ·) ++ (List.range 16).map (16 + ·)).find? fun k => (Map.find? c.mail k).isNone

/-- The slot number of R271 for a mailbox slot: 0 to 3 a core's reserved ones, 4 to 19 the shared ones. -/
def mailNumber (n : Nat) : Nat := if n < 16 then n % 4 else n - 12

/-! Barriers (R188 to R192). -/

/-- Lanes of wave `i` of a team that count as vacant at its barriers. -/
def State.barVacant (s : State) (t : Team) (i : Nat) : Mask :=
  if t.killed.contains i || t.retired.contains i then BitVec.allOnes 32
  else match t.state with
  | .resident | .swapping => match Map.find? t.slots i with
    | some w => (s.wave w).ctx.vac
    | none => BitVec.allOnes 32
  | _ => ((Map.find? t.saved i).map fun x => x.ctx.vac).getD 0

/-- Whether a fragment is held at barrier `k`. -/
def Seq.atBar (q : Seq) (k : Nat) : Bool := match q.hold with | .barrier j _ => j == k | _ => false

/-- Releases a context's fragments held at barrier `k`, in sequencers and in the spill area: PH into res, a status into st. -/
def Ctx.releaseBar (c : Ctx) (k : Nat) (ph st : Word) : Ctx :=
  let freed (m : Map Seq) : Map Seq := m.map fun (i, q) => (i, if q.atBar k then { q with hold := .none } else q)
  let held : List Seq := (c.seqs ++ c.spill).filterMap fun (_, q) => if q.atBar k then some q else none
  let c := held.foldl (fun c q => match q.hold with
    | .barrier _ m =>
      let c := (c.setLanes (portVec .ct .res) (lanesOf m) fun _ => ph).setLanes (portVec .ct .st) (lanesOf m) fun _ => st
      (c.clearBusy (portVec .ct .res) m).clearBusy (portVec .ct .st) m
    | _ => c) c
  { c with seqs := freed c.seqs, spill := freed c.spill }

/-- Releases the fragments of a wave held at barrier `k`: PH into res, the status of R191 into st. -/
def Wave.releaseBar (x : Wave) (k : Nat) (ph st : Word) : Wave := x.mapCtx (·.releaseBar k ph st)

/-- Whether a context has a fragment held at barrier `k`, in a sequencer or spilled. -/
def Ctx.atBar (c : Ctx) (k : Nat) : Bool := (c.seqs ++ c.spill).any fun (_, q) => q.atBar k

/-- Whether a wave has a fragment held at barrier `k`. -/
def Wave.atBar (x : Wave) (k : Nat) : Bool := x.ctx.atBar k || (x.trap.map fun t => t.saved.atBar k).getD false

/-- Whether a release of barrier `k` belongs to the open window alone: the checkpoint is not held there. -/
def Wave.winBar (x : Wave) (k : Nat) : Bool := (x.win.map fun v => !v.ckpt.atBar k).getD false

/-- Bits of ABN that a barrier release in an open window reports: a rollback gives them back (R191, R291). -/
def Wave.noteAbn (x : Wave) (bits : Mask) : Wave := { x with win := x.win.map fun v => { v with abn := v.abn ||| bits } }

/-- Status of a barrier release (R191): the lowest killed sibling not yet reported, and the mask without it. -/
def abnStatus (m : Mask) : Word × Mask :=
  match lowest m with
  | some i => (BitVec.ofNat 32 (1 + i * 2 ^ 8), m &&& ~~~(BitVec.ofNat 32 (2 ^ i)))
  | none => (0, m)

/-- Tests whether barrier `k` of a team completes, and completes it (R190); with no non-vacant lane it completes at once. -/
def State.barTest (s : State) (team k : Nat) : State :=
  match s.team? team with
  | none => s
  | some t =>
    let ws := List.range t.waves
    let all := ws.all fun i => (Map.get 0 t.arr (4 * i + k) ||| s.barVacant t i) == BitVec.allOnes 32
    if all then
      let ph := Map.get 0 t.ph k + 1
      let t := { t with ph := Map.set 0 t.ph k ph, arr := t.arr.filter fun (j, _) => j % 4 != k,
                        timer := Map.erase t.timer k, timing := Map.erase t.timing k }
      let (t, s) := ws.foldl (fun (t, s) i => match Map.find? t.slots i with
        | some w =>
          if (State.wave s w).atBar k then
            let a : Mask := Map.get 0 t.abn i
            let (st, m) := abnStatus a
            ({ t with abn := Map.set 0 t.abn i m }, s.modWave w fun x => (if x.winBar k then x.noteAbn (a &&& ~~~m) else x).releaseBar k ph st)
          else (t, s)
        | none => (t, s)) (t, s)
      s.setTeam team t
    else s

/-- Tests the four barriers of a team (R190: after every change of VAC). -/
def State.barTests (s : State) (team : Nat) : State := (((s.barTest team 0).barTest team 1).barTest team 2).barTest team 3

/-! Sequencers (R26 to R32). -/

def Ctx.freeSeq (c : Ctx) : Option Nat := (List.range 8).find? fun i => (Map.find? c.seqs i).isNone

/-- The lowest-numbered free record of the spill area. (DESIGN CHOICE, log 93) -/
def Ctx.freeSpill (c : Ctx) : Nat := ((List.range 24).find? fun i => (Map.find? c.spill i).isNone).getD 0

/-- The sequencer whose fragment parked earliest (R32). -/
def Ctx.oldestParked (c : Ctx) : Option (Nat × Seq) :=
  c.seqs.foldl (fun b (i, q) => if q.parked.isSome then
      (match b with | some (_, p) => if q.stamp < p.stamp then some (i, q) else b | none => some (i, q)) else b) none

/-- Gives a newly created or merged fragment a sequencer, or a place in the spill area (R29, R32). A fragment's stamp is the cycle in which
it was last filled, or, where it never was, that of its creation or merge. A spill or a fill adds 16 cycles to its earliest issue (R61); `fill` is what a
free sequencer costs it. (DESIGN CHOICE, log 92) -/
def Ctx.place (c : Ctx) (now fill : Nat) (q : Seq) : Ctx :=
  match c.freeSeq with
  | some i => { c with seqs := Map.put c.seqs i { q with due := q.due + fill } }
  | none => match c.oldestParked with
    | some (i, p) =>
      { c with spill := Map.put c.spill c.freeSpill p, seqs := Map.put c.seqs i { q with due := q.due + 16, stamp := now } }
    | none => { c with spill := Map.put c.spill c.freeSpill { q with stamp := now } }

/-- The spilled active fragment that has waited longest (R32). -/
def Ctx.longestSpilled (c : Ctx) : Option (Nat × Seq) :=
  c.spill.foldl (fun b (i, q) => if q.parked.isNone then
      (match b with | some (_, p) => if q.stamp < p.stamp then some (i, q) else b | none => some (i, q)) else b) none

/-- Merges the fragments parked on a token (R31); one whose parts had all been spilled is filled first (R32). The answer tells of unequal
loop stacks: the merged mask and pc. -/
def Ctx.merge (c : Ctx) (now t : Nat) : Ctx × Option (Mask × Dword) :=
  let isP (q : Seq) : Bool := q.parked == some t && !q.kept
  let inSeq := c.seqs.filter fun (_, q) => isP q
  let inSpill := c.spill.filter fun (_, q) => isP q
  let all : List Seq := (inSeq ++ inSpill).map (·.2)
  let mask := (all.foldl (fun m q => m ||| q.mask) 0) &&& ~~~c.vac
  let c := { c with seqs := c.seqs.filter (fun (_, q) => !isP q), spill := c.spill.filter (fun (_, q) => !isP q), join := Map.erase c.join t }
  if mask = 0 then (c, none) else
  let low := (lowest mask).getD 0
  match all.find? fun q => q.mask.getLsbD low with
  | none => (c, none)
  | some q0 =>
    let bad := all.any fun q => q.loops != q0.loops
    let q := { q0 with mask := mask, parked := none, due := now + 1, since := now + 1, stamp := now, fetch := .ready, hold := .none, part := none,
                       fid := fragNo now mask, stacked := bad, reenter := false }
    let c := match inSeq with
      | (i, _) :: _ => { c with seqs := Map.put c.seqs i q }
      | [] => c.place now 16 { q with due := now }
    (c, if bad then some (mask, q.pc) else none)

/-- The trap of a merge whose loop stacks differ (R31, R358). -/
def stackTrap (m : Mask) (pc : Dword) : Trap := { cause := 0x11, slot := 0, mask := m, info := 0, pc := some pc }

/-- Holds a pending bundle-delivered trap, or reports that one of its cause is already pending (R358). (DEDUCED, log 56) -/
def State.pendTrap (s : State) (w : Nat) (t : Trap) : State :=
  let x := s.wave w
  if x.traps.any fun u => u.cause == t.cause then
    s.postMsg (cloverOf w) (deviceMsg (coreOf w) 7 t.cause (s.ident w) t.mask x.tpc t.info)
  else s.setWave w { x with traps := x.traps ++ [t] }

/-- The fragment of lanes `m` has no STACK to deliver: one is pending already, and the event goes to the manager (R358). -/
def Ctx.unstack (c : Ctx) (m : Mask) : Ctx :=
  let f (ss : Map Seq) : Map Seq := ss.map fun (i, q) => (i, if q.mask = m then { q with stacked := false } else q)
  { c with seqs := f c.seqs, spill := f c.spill }

/-- Tests every join-table entry of a wave and merges where all expected lanes have arrived (R30). -/
def State.joinTests (s : State) (w : Nat) : State :=
  (List.range 16).foldl (fun s t =>
    let x := State.wave s w
    match Map.find? x.ctx.join t with
    | some j =>
      if j.expect &&& ~~~x.ctx.vac &&& ~~~j.arrived = 0 then
        let (c, bad) := x.ctx.merge s.now t
        match bad with
        | some (m, pc) =>
          let held := x.traps.any fun u => u.cause == 0x11
          (s.setWave w { x with ctx := if held then c.unstack m else c }).pendTrap w (stackTrap m pc)
        | none => s.setWave w { x with ctx := c }
      else s
    | none => s) s

/-! The baton (R234 to R237). -/

/-- Zeroes the accumulators and frees the baton (R236, R237); a grant follows 4 cycles later when a request stands in the table
(R235). Checking survives, checksums and tolerances as they stand (R255). (DESIGN CHOICE, log 126) -/
def State.freeBaton (s : State) (c : Nat) : State :=
  let some_ := !(s.clover c).table.isEmpty
  let s := s.modClover c fun k =>
    { k with
      baton := none, releasing := false, acc := [], live := [], granting := some_
      ops := k.ops.map fun ((i, o) : Nat × MxOp) => (i, if o.kind = 0 then { o with vals := [] } else o) }
  if some_ then s.after 4 .batonGrant [c] else s

/-- Lets waiting requests into the table while it has room; each begins to age (R234, R235). -/
def State.mxAdmit (s : State) (c : Nat) : State :=
  let k := s.clover c
  let n := 16 - k.table.length
  let come := (k.waiting.take n).map fun (r : MxReq) => { r with entered := s.now, since := s.now }
  if come.isEmpty then s else
  let s := s.setClover c { k with table := k.table ++ come, waiting := k.waiting.drop n }
  come.foldl (fun s r => if r.prio < 3 then s.after 65536 .agingPromotion [c, r.wave, s.now] else s) s

/-- Withdraws a wave's request (R237, R376). A freed entry lets the first waiting request enter (R234). -/
def State.withdraw (s : State) (w : Nat) : State :=
  let c := cloverOf w
  let mine (r : MxReq) : Bool := r.wave == w
  let k := s.clover c
  if k.table.any mine || k.waiting.any mine then
    (s.setClover c { k with table := k.table.filter fun r => !mine r, waiting := k.waiting.filter fun r => !mine r }).mxAdmit c
  else s

/-- The mx operations of a wave that ends go on without it (R257, R376). -/
def State.orphanMx (s : State) (w : Nat) : State :=
  let k := s.clover (cloverOf w)
  if k.ops.any fun (_, o) => o.wave == some w then
    s.setClover (cloverOf w) { k with ops := k.ops.map fun ((i, o) : Nat × MxOp) => (i, if o.wave = some w then { o with wave := none } else o) }
  else s

/-! Retirement and kills (R25, R376). -/

/-- Stores and other operations of the wave still to be performed before its slot is freed (R25). -/
def Wave.draining (x : Wave) : Bool :=
  x.accs.any fun (_, a) => a.open && (match a.kind with | .load _ _ => false | _ => true)

/-- Frees a team's context area. -/
def State.freeArea (s : State) (id : Nat) : State :=
  match s.team? id with
  | none => s
  | some t => match t.area with
    | none => s
    | some a =>
      let p := ((s.launch? t.launch).map (·.part)).getD 0
      let s := s.modPart p fun k => { k with areas := k.areas.filter fun (o, _) => k.ctxbase + BitVec.ofNat 64 o != a }
      s.setTeam id { t with area := none }

/-- A team's last wave has gone: its scratchpad is released or written back (R317), and the launch has one team less. -/
def State.teamGone (s : State) (team : Nat) : State :=
  let s := s.freeArea team
  match s.team? team with
  | none => s
  | some t =>
    let backed := !t.task && ((s.launch? t.launch).map fun l => l.lrec.backed).getD false
    let s := s.modLaunch t.launch fun l =>
      { l with left := if t.task then l.left else l.left - 1, tasks := if t.task then l.tasks - 1 else l.tasks,
               moved := if t.moved then l.moved + 1 else l.moved }
    if backed && t.scratch != 0 && t.state != .swapped then
      (s.setTeam team { t with state := .moving, slots := [], saved := [] }).after 1 .scratchpadWriteBack [team, 0]
    else
      let s := s.modCore t.core fun k => { k with alloc := k.alloc.filter fun a => a != (t.granule, t.scratch / 128) }
      { s with teams := Map.erase s.teams team }

/-- Frees a wave's slot once every lane is vacant and its stores have performed (R25). -/
def State.retire (s : State) (w : Nat) : State :=
  match s.wave? w with
  | none => s
  | some x =>
    if x.ctx.vac = BitVec.allOnes 32 ∧ x.draining = false then
      let s := (s.clearSpec w []).orphanMx w
      let s := { s.dropWave w with
        cmds := s.cmds.map fun ((k, c) : Nat × Cmd) => (k, if c.wave = w then { c with alive := false } else c)
        qops := s.qops.map fun ((k, o) : Nat × QuOp) => (k, { o with wave := o.wave.filter (· != w), cmd := o.cmd.filter fun (v, _) => v != w })
        bound := s.bound.filter fun (_, _, v, _) => v != w }
      let s := s.modTeam x.team fun t => { t with retired := t.retired ++ [x.index], slots := Map.erase t.slots x.index }
      match s.team? x.team with
      | some t => if t.slots.isEmpty && t.state != .swapped then s.teamGone x.team else s
      | none => s
    else s

/-- Kills a wave (R376). -/
def State.kill (s : State) (w : Nat) : State :=
  match s.wave? w with
  | none => s
  | some x =>
    if x.dead then s else
    let read := (x.win.map (·.read)).getD []
    let s := s.clearSpec w read
    let first := (x.win.map (·.firstOp)).getD x.nextOp
    let keep (a : Access) : Bool := (match a.kind with | .load _ _ => false | .fence _ => false | _ => true) && decide (a.id < first)
    let s := s.setWave w { x with
      dead := true, stop := .killed, claims := [], win := none, trap := none, traps := [], pend := [],
      accs := x.accs.filter fun (_, a) => keep a,
      ctx := { x.ctx with vac := BitVec.allOnes 32, seqs := [], spill := [], join := [], lsFifo := [], spFifo := [] } }
    let s := match (s.clover (cloverOf w)).baton with
      | some (v, _, _) => if v = w then s.freeBaton (cloverOf w) else s
      | none => s
    let s := s.withdraw w
    let s := s.unclaim (dieOf w) x.part x.claims
    let s := s.modTeam x.team fun t => { t with
      killed := if t.killed.contains x.index then t.killed else t.killed ++ [x.index]
      abn := (List.range t.waves).foldl (fun m i => if i = x.index then m else Map.set 0 m i (Map.get 0 m i ||| BitVec.ofNat 32 (2 ^ x.index))) t.abn }
    let s := s.modLaunch x.launch fun l => { l with killed := min (2 ^ 24 - 1) (l.killed + 1) }
    (s.barTests x.team).retire w

/-- Kills a wave on POISON, with its message (R156, R364, R376). -/
def State.poisonKill (s : State) (w : Nat) (a : Dword) : State :=
  let x := s.wave w
  if x.dead then s else
  let m := deviceMsg (coreOf w) 1 0x0C (s.ident w) (~~~x.ctx.vac) x.tpc a
  (s.postMsg (cloverOf w) m).kill w

/-! Region restart (R372). -/

/-- Restarts the wave's region: ports 0 and ready, FIFOs empty, the snapshot restored. Operations of lane units write nothing any more; those of qu, en,
mx, ct and sy complete (R253, R372). -/
def State.regionRestart (s : State) (w : Nat) : State :=
  match s.wave? w with
  | none => s
  | some x => match x.region with
    | none => s
    | some r =>
      let first := (x.win.map (·.firstOp)).getD x.nextOp
      let s := s.clearSpec w ((x.win.map (·.read)).getD [])
      let c := x.ctx
      let ports : List Nat := (List.range 39).map (246 + ·)
      let fit (m : Map Seq) : Map Seq := (m.map fun ((i, q) : Nat × Seq) => (i, { q with mask := q.mask &&& ~~~c.vac })).filter fun (_, q) => q.mask != 0
      let isLoad (a : Access) : Bool := match a.kind with | .load _ _ => true | .fence _ => true | _ => false
      let held := (x.accs.filter fun (k, a) => decide (first ≤ k) && !isLoad a).length
      let c := { c with
        vec := c.vec.filter fun (k, _) => !ports.contains (k / 32), busy := [], last := c.last.filter fun (u, k) => decide (18 ≤ u / 32 ∧ k < first),
        lsFifo := [], spFifo := [], lsLast := [], spLast := [], ldc := 0, stc := c.stc - held,
        guards := r.guards, base := r.base, pol := r.pol, join := r.join,
        seqs := (fit r.seqs).map fun ((i, q) : Nat × Seq) => (i, { q with due := s.now + 24, since := s.now + 24 }), spill := fit r.spill }
      let c := (c.setWstat 2 2 (if r.rm then 1 else 0)).setWstat 5 5 0
      s.setWave w { x with
        ctx := c, win := none, pend := x.pend.filter fun (k, p) => decide (18 ≤ unitCode p.unit ∧ k < first)
        accs := x.accs.filter fun (k, a) => decide (k < first) && !isLoad a
        traps := x.traps.filter fun t => t.pc.isNone }

end Sys2Proof.Machine
end

