-- ==== Sys2Proof/Machine/Ops.lean ====
section
/-! DEFINITION. The shared operations of every meaning: reading sources, starting an operation of a unit, the three ends of a
slot, and taking a trap and returning from one (R361, R363). -/
namespace Sys2Proof.Machine

/-- How a slot of a bundle ends: it commits, it raises a trap before it commits, or the bundle's last issue cycle is held
back until translation answers (R63, R153): the addresses whose pages must be looked up. -/
inductive SlotRes
  | ok (s : State)
  | trap (t : Trap)
  | hold (need : List Nat)
deriving DecidableEq, Repr

/-- The effect of one move of the bundle in progress. -/
abbrev Slot := State → SlotRes

/-! Sources (R51 to R54). -/

/-- A fragment of a wave, by sequencer. -/
def Ctx.seq (c : Ctx) (q : Nat) : Seq := (Map.find? c.seqs q).getD (Seq.start 0 0 0)

/-- Word `f` of a head latch in lane `l`, for a fragment's ranked lanes (R218, R219, R22). A shadow lane, to which R218 gives no rank, takes
the number of ranked lanes below it for one. (DESIGN CHOICE, log 94) -/
def Head.word (h : Head) (mask : Mask) (l f : Nat) : Word :=
  if !h.bound || h.stale then 0
  else
    let k := if h.spread then ((lanesOf mask).filter (· < l)).length else 0
    ((h.recs.getD k []).getD f 0)

/-- What a lane reads from the oldest entry of a result FIFO (R15). -/
def fifoValue (es : List FifoEntry) (last : Map Word) (l : Nat) : Word :=
  match es with
  | e :: _ => if e.mask.getLsbD l then Map.get 0 e.vals l else Map.get 0 last l
  | [] => Map.get 0 last l

/-- The value of a source in a lane, widened to 64 bits (R51 to R53). -/
def State.readSrc (s : State) (c : Issue) (x : Wave) (src : Src) (l : Nat) : Dword :=
  let k := x.ctx
  match src with
  | .main i => sextWord (k.reg i.val l)
  | .opnd i => sextWord (k.reg (opndVec i.val) l)
  | .guard i => if k.guard i.val l then 1 else 0
  | .base i => k.baseReg i.val
  | .baseHi i => sextWord (highWord (k.baseReg i.val))
  | .pair i => joinWords (k.reg (2 * i.val + 1) l) (k.reg (2 * i.val) l)
  | .head q f => sextWord ((k.head q.val).word (c.cap.mask &&& ~~~k.vac) l f.val)
  | .index i => match (k.seq c.seq).loops[i.val]? with
    | some v => sextWord v.index
    | none => 0
  | .lane => BitVec.ofNat 64 (if k.shadows.getLsbD l then l ^^^ 16 else l)
  | .wave => BitVec.ofNat 64 (if k.wstat.getLsbD 10 then 0 else x.index)
  | .team => if k.wstat.getLsbD 10 then sextWord 0xFFFFFFFF#32 else sextWord (((s.team? x.team).map (·.number)).getD 0)
  | .port u p => match u, p with
    | .ls, .res => sextWord (fifoValue k.lsFifo k.lsLast l)
    | .sp, .res => sextWord (fifoValue k.spFifo k.spLast l)
    | _, _ => sextWord (k.port u p l)
  | .imm v => (BitVec.ofNat 13 v.val).signExtend 64
  | .long i => sextWord (c.cap.longs.getD i.val 0)

/-- The wave of the bundle in progress. -/
def State.curWave (s : State) : Option (Issue × Wave) :=
  match s.cur with
  | some c => match s.wave? c.wave with
    | some x => some (c, x)
    | none => none
  | none => none

/-- The enabled lanes of the current slot: as captured at bundle start, or as they stand when nothing was captured. -/
def slotEn (c : Issue) (x : Wave) (gd : Guard) : Mask :=
  (Map.find? c.cap.en c.slot).getD (x.ctx.enabled c.cap.mask gd)

/-- The source value of the current slot in a lane: as captured at bundle start (R54), or as it stands. -/
def State.slotSrc (s : State) (c : Issue) (x : Wave) (src : Src) (l : Nat) : Dword :=
  (Map.find? c.cap.src (32 * c.slot + l)).getD (s.readSrc c x src l)

/-- What a move acts on: the issuing wave, the enabled lanes, and the trigger value of each lane. -/
structure MoveIn where
  c : Issue
  x : Wave
  en : Mask
  t : Nat → Dword

/-- The wave slot of the issuing wave. -/
def MoveIn.w (m : MoveIn) : Nat := m.c.wave
/-- T as 32 bits. -/
def MoveIn.tw (m : MoveIn) (l : Nat) : Word := lowWord (m.t l)
/-- A latch of a unit in a lane. -/
def MoveIn.latch (m : MoveIn) (u : FuncUnit) (k : LatchNo) (l : Nat) : Dword := m.x.ctx.latch u k l
def MoveIn.latchW (m : MoveIn) (u : FuncUnit) (k : LatchNo) (l : Nat) : Word := m.x.ctx.reg (latchVec u k) l
/-- The enabled lanes that are no shadow lanes. -/
def MoveIn.real (m : MoveIn) : Mask := m.x.ctx.real m.en
/-- The lowest enabled lane (R17). -/
def MoveIn.low (m : MoveIn) : Nat := (lowest m.real).getD 0

/-- Runs a move: with no bundle in progress, or no enabled lane at all, it has no effect (R13). -/
def withMove (gd : Guard) (src : Src) (f : MoveIn → Slot) : Slot := fun s =>
  match s.curWave with
  | none => .ok s
  | some (c, x) =>
    let en := slotEn c x gd
    if en = 0 then .ok s else f { c := c, x := x, en := en, t := s.slotSrc c x src } s

/-- As `withMove`, for a wave-uniform unit or one a shadow lane does not feed: it acts when some enabled lane is no shadow
(R13, R375). -/
def withReal (gd : Guard) (src : Src) (f : MoveIn → Slot) : Slot :=
  withMove gd src fun m s => if m.real = 0 then .ok s else f m s

/-! Starting and finishing operations (R12, R58). -/

/-- What an operation of a lane unit leaves in its ports. -/
structure LaneOut where
  res : Word
  hi : Word
  st : Word
deriving DecidableEq, Repr

def LaneOut.port (o : LaneOut) : PortNo → Word
  | .res => o.res | .hi => o.hi | .st => o.st

/-- Makes operation `k` of unit `u` the most recent in lanes `en`, its ports not ready, and logs the ports (R12, R284). -/
def Wave.begin (x : Wave) (u : FuncUnit) (ports : List PortNo) (en : Mask) : Wave :=
  let k := x.nextOp
  let ps := ports.map (portVec u)
  let c := ps.foldl (fun c v => c.setBusy v en) x.ctx
  let c := { c with last := (lanesOf en).foldl (fun m l => Map.put m (32 * unitCode u + l) k) c.last }
  ({ x with ctx := c, nextOp := k + 1 }).log ps

/-- An armed TWIN injection inverts bit 0 of res (R275). -/
def Wave.injected (x : Wave) (u : FuncUnit) (l : Nat) (v : Word) : Word :=
  if x.inject.contains (32 * unitCode u + l) then v ^^^ 1 else v

/-- The pending operation that will write `out` to the given ports. -/
def Wave.pending (x : Wave) (u : FuncUnit) (ports : List PortNo) (en : Mask) (out : Nat → LaneOut) : Pending :=
  { unit := u, lanes := en, ports := ports.map (portVec u),
    vals := ports.foldl (fun m p => (lanesOf en).foldl (fun m l =>
      Map.set 0 m (32 * portVec u p + l) (if p = .res then x.injected u l ((out l).port p) else (out l).port p)) m) [] }

/-- Starts an operation of unit `u` of wave `w` whose results are ready `lat` cycles later (R7, R58). -/
def State.start (s : State) (w : Nat) (u : FuncUnit) (ports : List PortNo) (en : Mask) (lat : Nat) (out : Nat → LaneOut) : State :=
  let x := s.wave w
  let k := x.nextOp
  let p := x.pending u ports en out
  let x := x.begin u ports en
  let used (i : Nat) : Bool := decide (i / 32 = unitCode u) && en.getLsbD (i % 32)
  let s := s.setWave w { x with pend := Map.put x.pend k p, inject := x.inject.filter fun i => !used i }
  s.after lat .resultReady [w, k]

/-- RESULT_READY: the operation's results enter the ports (R12, R58). -/
def State.resultReady (s : State) (w k : Nat) : State :=
  s.modWave w fun x => match Map.find? x.pend k with
    | some p => { x.mapCtx (·.deliver k p) with pend := Map.erase x.pend k }
    | none => x

/-- A lane operation: every enabled lane computes its results from its latches and T. -/
def laneOp (u : FuncUnit) (lat : Nat) (gd : Guard) (src : Src) (f : MoveIn → Nat → LaneOut) : Slot :=
  withMove gd src fun m s => .ok (s.start m.w u (portsOf u) m.en lat (f m))

/-- A result for `res` alone. -/
def resOut (v : Word) : LaneOut := ⟨v, 0, 0⟩

/-! Traps. -/

/-- A trap at the current slot (R359). -/
def MoveIn.trap (m : MoveIn) (cause : Nat) (mask : Mask) (info : Dword) : SlotRes :=
  .trap { cause := cause, slot := m.c.slot, mask := mask, info := info, pc := none }

/-- Stops a wave whose trap cannot enter its handler, and tells the clover manager, with TMASK and TPC as they stand (R361 step 2, R364).
(DESIGN CHOICE, log 52) -/
def State.trapFail (s : State) (w cause : Nat) : State :=
  let x := s.wave w
  let s := s.modWave w fun x => { x with stop := .trapfail }
  s.postMsg (cloverOf w) (deviceMsg (coreOf w) 4 cause (s.ident w) x.tmask x.tpc (BitVec.ofNat 64 (cause % 256)))

/-- An entry of the partition's trap table, where it can be read (R360, R471). -/
def State.trapEntry (s : State) (w cause : Nat) : Option Nat :=
  (s.devRead (dieOf w) (s.wave w).part ((s.part (s.wave w).part).ttbase.toNat + 8 * cause) 8).map ofBytes

/-- TSTATE with its three fields (R265). -/
def tstateOf (cause slot : Nat) (valid : Bool) : Word :=
  BitVec.ofNat 32 (cause % 256 + slot % 8 * 2 ^ 8 + (if valid then 2 ^ 11 else 0))

/-- TSTATE.VALID. -/
def Wave.handling (x : Wave) : Bool := x.tstate.getLsbD 11

/-- A trap's fragment enters the handler, both entries of the trap table being at hand: an entry that is not valid stops the wave; otherwise the
fragment goes on at the handler's address, with SUP set, the result FIFOs set aside, and b15 at the wave's supervisor data (R361, steps 2 to 7). -/
def State.enterHandler (s : State) (w q : Nat) : State :=
  match s.wave? w with
  | none => s
  | some x =>
    let cause := wfield x.tstate 7 0
    let fail := (s.modCtx w fun c => { c with seqs := Map.erase c.seqs q }).trapFail w cause
    match s.trapEntry w cause, s.trapEntry w 0x1F with
    | some e, some sup =>
      if bitsOf e 1 0 ≠ 1 then fail
      else
        let g := x.ctx.seq q
        let h := { Seq.start (BitVec.ofNat 64 (e / 4 * 4)) g.mask (s.now + 8) with stamp := g.stamp, fid := g.fid }
        let c := { x.ctx with seqs := Map.put x.ctx.seqs q h, join := [], lsFifo := [], spFifo := [] }
        s.setWave w { x with ctx := (c.setWstat 4 4 1).setBase 15 (BitVec.ofNat 64 (sup / 4096 * 4096 + 4096 * w)) }
    | _, _ => fail

/-- Takes a trap of a fragment of a wave (R292, R359, R361, R372): an open window rolls back and the trap is dropped;
a mismatch inside a region restarts the region; a trap while one is handled, or without a valid table entry, stops the wave;
otherwise the trap state is written, the context saved, and the fragment enters the handler once the two entries of the trap table are at hand
(R472). (DEDUCED, log 7; DEDUCED, log 105) -/
def State.takeTrap (s : State) (w q : Nat) (t : Trap) (pc : Dword) (cap : Option Capture) : State :=
  let x := s.wave w
  let c := if t.pend then (lanesOf t.mask).foldl (fun c l => let v := portVec .ck .st; c.setReg v l (c.reg v l &&& ~~~1#32)) x.ctx else x.ctx
  if (t.cause = 0x08 ∨ t.cause = 0x09) ∧ c.regn = true ∧ c.sup = false ∧ x.region.isSome then s.regionRestart w
  else if x.win.isSome then s.rollback w 2
  else if x.handling then s.trapFail w t.cause
  else
    let x := { x with
      tstate := tstateOf t.cause t.slot true, tmask := t.mask, tpc := pc, tinfo := t.info, noWin := 0, ctx := c,
      trap := some { saved := c, seq := q, cap := cap, logged := [], firstOp := x.nextOp } }
    let keep (m : Map Seq) : Map Seq := m.map fun (i, f) => (i, { f with kept := true })
    let h := { Seq.start 0 t.mask s.now with fetch := .look, stamp := (c.seq q).stamp, fid := (c.seq q).fid }
    let s := s.setWave w { x with ctx := { c with seqs := Map.put (keep (Map.erase c.seqs q)) q h, spill := keep c.spill } }
    let entry (k : Nat) : Nat × Nat × Nat × Nat := (x.part, (s.part x.part).ttbase.toNat + 8 * k, 8, 1)
    match s.devTask (dieOf w) [entry t.cause, entry 0x1F] .bundleFetch [w, q, 2] with
    | (true, s) => s.enterHandler w q
    | (false, s) => s

/-- The capacity of a result FIFO, less the entries set aside for the program (R361). -/
def Wave.fifoRoom (x : Wave) (sp : Bool) : Nat :=
  let aside := match x.trap with
    | some t => if sp then t.saved.spFifo.length else t.saved.lsFifo.length
    | none => 0
  if sp then 8 - aside - x.ctx.spFifo.length else 16 - aside - x.ctx.lsFifo.length

/-- The head latches after sy.sret: handle, mode, bound bit and position as the snapshot has them (R361, R363), and the queues they are bound
to. A latch whose queue the handler unbound is bound to it again, unless another latch is by now (R217). (DEDUCED, log 55) -/
def State.restoreHeads (s : State) (w : Nat) (saved : Ctx) : Map Head × State :=
  (List.range 4).foldl (fun ((m, s) : Map Head × State) k =>
    let h := saved.head k
    let e := (handlePart h.handle, handleIdx h.handle, w, k)
    let rest := s.bound.filter fun ((_, _, v, j) : Nat × Nat × Nat × Nat) => !(v == w && j == k)
    if h.bound && (h.wait != 0 || (!h.stale && s.bound.contains e)) then (Map.set Head.reset m k h, s)
    else if h.bound && !h.stale && !(rest.any fun ((p, i, _, _) : Nat × Nat × Nat × Nat) => p == e.1 && i == e.2.1) then
      (Map.set Head.reset m k h, { s with bound := rest ++ [e] })
    else (Map.set Head.reset m k (if h.bound && !h.stale then { h with bound := false, recs := [] } else h), { s with bound := rest })) ([], s)

/-- The program's context after sy.sret: the main file and counters as they stand, everything else as saved, with results
that arrived meanwhile (R363); of WSTAT, RM alone is a field that the snapshot holds (R18, R361). -/
def Ctx.afterHandler (now saved : Ctx) (heads : Map Head) (q : Nat) (f : Option Seq) : Ctx :=
  let main (m : Map Word) (p : Bool) : Map Word := m.filter fun (k, _) => decide (k < 32 * 192) == p
  let back (m : Map Seq) : Map Seq := (m.filter fun (_, r) => r.kept).map fun (i, r) => (i, { r with kept := false })
  { saved with
    vec := main now.vec true ++ main saved.vec false
    wstat := setField (setField now.wstat 2 2 (wfield saved.wstat 2 2)) 4 4 0
    vac := now.vac, heads := heads, stc := now.stc, cpc := now.cpc, tlc := now.tlc
    ldc := (saved.lsFifo.filter fun e => !e.filled).length
    seqs := match f with
      | some r => Map.put (back now.seqs) q r
      | none => back now.seqs
    spill := back now.spill }

/-- Whether a header word passes the checks of R64. -/
def headerOk (h : Nat) : Bool :=
  decide (h / 2 ^ 29 % 8 < 7 ∧ h / 2 ^ 27 % 4 < 3 ∧ h % 2 ^ 13 = 0) && !(decide (h / 2 ^ 22 % 2 = 0) && decide (h / 2 ^ 14 % 16 ≠ 0))

/-- Returns from a trap (R270, R363): the handler's fragments go, what was saved comes back, and the bundle at TPC is fetched: to be
re-entered at TSLOT with what the capture block holds, or to be executed afresh when TSLOT is 7. STACK of a merge of the handler's goes with its
fragments. `q` is the sequencer of sret. (DEDUCED, log 55; DEDUCED, log 56) -/
def State.trapReturn (s : State) (w q : Nat) : State :=
  match s.wave? w with
  | none => s
  | some x => match x.trap with
    | none => s.setWave w { x with tstate := x.tstate &&& ~~~0x800#32, ctx := x.ctx.setWstat 4 4 0 }
    | some t =>
      let f0 := t.saved.seq t.seq
      let mask := f0.mask &&& ~~~x.ctx.vac
      let slot := wfield x.tstate 10 8
      let fresh := { f0 with mask := mask, pc := x.tpc, part := none, fetch := .need, due := s.now + 4, since := s.now + 4, kept := false, hold := .none, reenter := true }
      let f := match t.cap with
        | some cap => if slot = 7 then fresh
          else { fresh with hold := f0.hold, part := some { cap := { cap with addr := x.tpc, words := [] }, first := slot, pages := [], due := s.now + 4 } }
        | none => fresh
      let (heads, s) := s.restoreHeads w t.saved
      let c := x.ctx.afterHandler t.saved heads q (if mask = 0 then none else some f)
      let traps := x.traps.filter fun u => u.pc.isNone || c.stacks
      (s.setWave w { x with ctx := c, trap := none, traps := traps, tstate := x.tstate &&& ~~~0x800#32 }).joinTests w

/-! Shadow lanes (R375). -/

/-- The partners of the shadow pairs that differ: in their enable bits, or in what `f` gives for them. -/
def MoveIn.shadowDiff (m : MoveIn) (f : Nat → List Dword) : Mask :=
  let sh := m.x.ctx.shadows
  maskWhere fun p => let l := p ^^^ 16
    sh.getLsbD l && m.c.cap.mask.getLsbD p &&
      (m.en.getLsbD l != m.en.getLsbD p || (m.en.getLsbD l && f l != f p))

/-- A shadow compare: a difference raises CHECK_MISMATCH for the partners, and the slot does not commit (R375). -/
def shadowed (f : MoveIn → Nat → List Dword) (go : MoveIn → Slot) (m : MoveIn) : Slot := fun s =>
  let d := m.shadowDiff (f m)
  if d = 0 then go m s else m.trap 0x08 d 0

/-- A move at which shadow pairs are compared, whichever of its lanes are enabled; it then acts when some enabled lane is no shadow
(R173, R375). -/
def withPairs (gd : Guard) (src : Src) (f : MoveIn → Nat → List Dword) (go : MoveIn → Slot) : Slot :=
  withMove gd src (shadowed f fun m s => if m.real = 0 then .ok s else go m s)

/-! Translation of the lanes' addresses (R153, R324). -/

/-- Changes the held bundle of a fragment. -/
def State.modPartial (s : State) (w q : Nat) (f : Partial → Partial) : State :=
  s.modCtx w fun c => match Map.find? c.seqs q with
    | some g => match g.part with
      | some p => { c with seqs := Map.put c.seqs q { g with part := some (f p) } }
      | none => c
    | none => c

/-- Looks up the pages a held bundle needs: the die TLB answers after 24 cycles (R324). With no page to look up, the bundle tries again in the next
cycle. -/
def State.lookPages (s : State) (w q : Nat) (need : List Nat) : State :=
  if need.isEmpty then s.modPartial w q fun p => { p with due := s.now + 1 } else
  need.foldl (fun s va =>
    (s.modPartial w q fun p => { p with look := p.look ++ [va / 2 ^ 16] }).after 24 .dieTlbLookup [w, q, va / 2 ^ 16]) s

/-- A page found enters the core TLB (R324, R325). -/
def State.coreTlbAdd (s : State) (w : Nat) (o : Xlate) : State :=
  match o with
  | .page p => s.modCore (coreOf w) fun c => { c with tlb := tlbAdd c.tlb 256 p }
  | _ => s

/-- A page found for a held bundle (R324, R325). -/
def State.addPage (s : State) (w q vpn : Nat) (o : Xlate) : State :=
  (s.modPartial w q fun p =>
    { p with pages := (vpn, o) :: p.pages.filter (·.1 != vpn), look := p.look.filter (· != vpn), due := max p.due s.now }).coreTlbAdd w o

/-- DIE_TLB_LOOKUP: the die TLB answers a held bundle, or a walk begins (R324). -/
def State.dieTlbLookup (s : State) (w q vpn : Nat) : State :=
  match s.wave? w with
  | none => s
  | some x => match (s.die (dieOf w)).tlbFind x.part (vpn * 2 ^ 16) with
    | some (p, d) => (s.setDie (dieOf w) d).addPage w q vpn (s.pageAt p (vpn * 2 ^ 16))
    | none => s.beginWalk (dieOf w) x.part (vpn * 2 ^ 16) (.bundle w q)

/-- A page in the core TLB, or looked up for this bundle. -/
def State.coreXlate (s : State) (c : Issue) (x : Wave) (a : Dword) : Option Xlate :=
  match (s.core (coreOf c.wave)).tlb.find? (·.holds x.part a.toNat) with
  | some p => some (s.pageAt p a.toNat)
  | none => (c.pages.find? (·.1 == a.toNat / 2 ^ 16)).map (·.2)

/-- Whether a lane's last-page register holds its page. -/
def Wave.lastHit (x : Wave) (l : Nat) (a : Dword) : Bool :=
  match Map.find? x.lastPage l with
  | some p => p.holds x.part a.toNat
  | none => false

/-- A lane's translation, where it is known: last-page register, core TLB, or what was looked up for this bundle (R153). -/
def State.laneXlate (s : State) (c : Issue) (x : Wave) (l : Nat) (a : Dword) : Option Xlate :=
  if !canonical a then some .fault
  else if x.lastHit l a then (Map.find? x.lastPage l).map (s.pageAt · a.toNat)
  else s.coreXlate c x a

/-- Ends a slot as an instruction on its own: a commit, the trap it raises, or the wait for its translation. (DEDUCED, log 12) -/
def asStep (r : SlotRes) (s : State) : Host.Outcome State Fault Refusal :=
  match r with
  | .ok s' => .next s'
  | .hold need => match s.cur with
    | some c => .next (s.lookPages c.wave c.seq need)
    | none => .next s
  | .trap t => match s.cur with
    | some c => .next (s.takeTrap c.wave c.seq t c.cap.addr (some c.cap))
    | none => .next s

end Sys2Proof.Machine
end

