-- ==== Sys2Proof/Machine/Operands.lean ====
section
/-! DEFINITION. The operand forms: which inputs an operation reads from its latches and its trigger value (R55), and what
a move writes to each destination (R50). -/
namespace Sys2Proof.Machine

/-- One input: a is T (R55). -/
def in1 {α : Type} (f : Word → α) (m : MoveIn) (l : Nat) : α := f (m.tw l)
/-- Two inputs: a is o1, b is T (R55). -/
def in2 {α : Type} (u : FuncUnit) (f : Word → Word → α) (m : MoveIn) (l : Nat) : α := f (m.latchW u .o1 l) (m.tw l)
/-- Three inputs: a is o1, b is o2, c is T (R55). -/
def in3 {α : Type} (u : FuncUnit) (f : Word → Word → Word → α) (m : MoveIn) (l : Nat) : α :=
  f (m.latchW u .o1 l) (m.latchW u .o2 l) (m.tw l)

/-- Writes register vector `v` in the enabled lanes; the window logs it (R284), a handler logs it unless it is a main-file
register (R362). -/
def State.writeVec (s : State) (m : MoveIn) (v : Nat) : State :=
  let x := s.wave m.w
  let x := if x.win.isSome ∨ 192 ≤ v then x.log [v] else x
  s.setWave m.w { x with ctx := x.ctx.setLanes v (lanesOf m.en) m.tw }

/-- Writes a latch: in the enabled lanes, or whole from the lowest enabled lane for a wave-uniform unit (R13, R17, R20). (DEDUCED, log 2) -/
def State.writeLatch (s : State) (m : MoveIn) (u : FuncUnit) (k : LatchNo) : State :=
  let x := s.wave m.w
  let v := latchVec u k
  let x := x.log (if wideLatch u k then [v, v + 1] else [v])
  if uniformUnit u then
    if m.real = 0 then s
    else s.setWave m.w { x with ctx := (List.range 32).foldl (fun c l => c.setLatch u k l (m.t m.low)) x.ctx }
  else s.setWave m.w { x with ctx := (lanesOf m.en).foldl (fun c l => c.setLatch u k l (m.t l)) x.ctx }

/-- Writes a lane-file destination (R50). -/
def State.writeLf (s : State) (m : MoveIn) (d : LfDest) : State :=
  let lanes (f : Ctx → Nat → Ctx) : State := s.modCtx m.w fun c => (lanesOf m.en).foldl f c
  let base (i : Fin 16) (f : Dword → Dword) : State :=
    if m.real = 0 then s else s.modCtx m.w fun c => c.setBase i.val (f (c.baseReg i.val))
  match d with
  | .opnd i => s.writeVec m (opndVec i.val)
  | .guard g => lanes fun c l => c.setGuard g.val l (m.tw l != 0)
  | .guardBits g => if m.real = 0 then s else lanes fun c l => c.setGuard g.val l ((m.tw m.low).getLsbD l)
  | .base i => base i fun _ => m.t m.low
  | .baseLo i => base i fun d => joinWords (highWord d) (m.tw m.low)
  | .baseHi i => base i fun d => joinWords (m.tw m.low) (lowWord d)

end Sys2Proof.Machine
end

