-- ==== Sys2Proof/Machine/Flags.lean ====
section
/-! DEFINITION. Every flag computation of the units: the flags of the integer ALU (R111), of multiply and divide (R113),
and the event bits of the floating-point units (R129, R130). -/
namespace Sys2Proof.Machine

/-- One bit of a flags word. -/
def bitAt (b : Bool) (k : Nat) : Nat := if b then 2 ^ k else 0

/-- The flags word of ia and ib: C, V, Z and N (R111). -/
def iaFlags (res : Word) (c v : Bool) : Word :=
  BitVec.ofNat 32 (bitAt c 0 + bitAt v 1 + bitAt (res == 0) 2 + bitAt (res.getLsbD 31) 3)

/-- An ALU result with its flags. -/
def iaOut (res : Word) (c v : Bool) : LaneOut := ⟨res, iaFlags res c v, 0⟩

/-- A signed value that does not fit 32 bits (R111). -/
def overS (i : Int) : Bool := decide (i < -(2 ^ 31) ∨ 2 ^ 31 - 1 < i)

/-- Addition with a carry in: res, C and V (R110, R111). -/
def addOut (a b : Word) (k : Nat) : LaneOut :=
  iaOut (BitVec.ofNat 32 (a.toNat + b.toNat + k)) (decide (2 ^ 32 ≤ a.toNat + b.toNat + k)) (overS (a.toInt + b.toInt + k))

/-- Subtraction with a borrow in (R110, R111). -/
def subOut (a b : Word) (k : Nat) : LaneOut :=
  iaOut (a - b - BitVec.ofNat 32 k) (decide (a.toNat < b.toNat + k)) (overS (a.toInt - b.toInt - k))

/-- Saturation to 32 signed bits, V telling of it (R110, R111). -/
def satOut (i : Int) : LaneOut :=
  iaOut (BitVec.ofInt 32 (max (-(2 ^ 31)) (min (2 ^ 31 - 1) i))) false (overS i)

/-- An ALU result that sets neither C nor V (R111). -/
def plainOut (res : Word) : LaneOut := iaOut res false false

/-- A truth value as a result (R110). -/
def boolOut (b : Bool) : LaneOut := plainOut (if b then 1 else 0)

/-- The status word of ma and mb: V and U (R113). -/
def maFlags (v u : Bool) : Word := BitVec.ofNat 32 (bitAt v 0 + bitAt u 1)

/-- The halves of a 64-bit product, low word first (R112). -/
def wideOut (p : Nat) (v u : Bool) : LaneOut := ⟨BitVec.ofNat 32 p, BitVec.ofNat 32 (p / 2 ^ 32), maFlags v u⟩
/-- The halves of a 64-bit product, high word first (R112). -/
def highOut (p : Nat) : LaneOut := ⟨BitVec.ofNat 32 (p / 2 ^ 32), BitVec.ofNat 32 p, 0⟩

end Sys2Proof.Machine
end

