-- ==== Sys2Proof/Machine/Real.lean ====
section
/-! DEFINITION. Common arithmetic rules of the floating-point units (R130 to R133) and the real functions behind xf and silu:
each is formed in fixed point with 512 fraction bits and rounded once (R138; UNVERIFIED, log 91). -/
namespace Sys2Proof.Machine

/-- The status word NV, DZ, OF, UF, NX (R130). -/
def fpFlags (nv dz ovf unf nx : Bool) : Word :=
  BitVec.ofNat 32 (bitAt nv 0 + bitAt dz 1 + bitAt ovf 2 + bitAt unf 3 + bitAt nx 4)

/-- A result with its status word. -/
def fpOut (res st : Word) : LaneOut := ⟨res, 0, st⟩

/-- Rounds an exact real to FP32 with the flags of R132. `inexact` tells that the real only stands in for one that no
FP32 value equals. -/
def arithFin (x : Exact) (rnd : Rnd) (sat inexact : Bool) : LaneOut :=
  let r := cvtDn (.fin x) .fp32 rnd sat
  let inx := r.inx || inexact
  fpOut (BitVec.ofNat 32 r.code) (fpFlags false false r.ovf (inx && !x.isZero && x.absLt (-126)) inx)

/-- An arithmetic operation (R132, R133): the first NaN wins; an invalid operation gives the default NaN and NV. -/
def arith (ins : List Word) (rnd : Rnd) (sat : Bool) (x : Option XVal) : LaneOut :=
  match ins.find? isNan with
  | some n => fpOut (quiet n) (fpFlags (ins.any isSnan) false false false false)
  | none => match x with
    | none => fpOut defaultNan (fpFlags true false false false false)
    | some (.inf neg) => fpOut (fpInf neg) 0
    | some (.nan c) => fpOut c 0
    | some (.fin r) => arithFin r rnd sat false

/-- Sum of two values that are no NaN; infinities of opposite sign have none (R134). -/
def addX : XVal → XVal → Option XVal
  | .inf s, .inf t => if s = t then some (.inf s) else none
  | .inf s, _ => some (.inf s)
  | _, .inf t => some (.inf t)
  | .fin x, .fin y => some (.fin (x.add y))
  | _, _ => none

/-- Product of two values that are no NaN; zero times infinity has none (R134). -/
def mulX : XVal → XVal → Option XVal
  | .inf s, .inf t => some (.inf (s != t))
  | .inf s, .fin y => if y.isZero then none else some (.inf (s != y.neg))
  | .fin x, .inf t => if x.isZero then none else some (.inf (x.neg != t))
  | .fin x, .fin y => some (.fin (x.mul y))
  | _, _ => none

def negX : XVal → XVal
  | .inf s => .inf (!s)
  | .fin x => .fin x.negate
  | .nan c => .nan c

/-- a × b + c with one rounding; `p` negates the product and `q` negates c (R134). -/
def fusedX (p q : Bool) (a b c : Word) : Option XVal :=
  match mulX (ofFp32 a) (ofFp32 b) with
  | some v => addX (if p then negX v else v) (if q then negX (ofFp32 c) else ofFp32 c)
  | none => none

/-- An FP32 sum under RNE, flags discarded (R159). -/
def fpAdd (a b : Word) : Word := (arith [a, b] .rne false (addX (ofFp32 a) (ofFp32 b))).res

/-- The place of a value in the order of R135: −0 below +0. -/
def fpKey (v : Word) : Int :=
  let m : Int := (v.toNat % 2 ^ 31 : Nat)
  if v.getLsbD 31 then -m - 1 else m

/-- The place of a value in the order of R136: +0 = −0. -/
def fpKey0 (v : Word) : Int :=
  let m : Int := (v.toNat % 2 ^ 31 : Nat)
  if v.getLsbD 31 then -m else m

/-! Fixed-point real functions. -/

/-- Fraction bits. -/
def fixBits : Nat := 512
def fixOne : Nat := 2 ^ fixBits

/-- A rational as a fixed-point number. -/
def toFix (num den : Nat) : Nat := num * fixOne / den
/-- A fixed-point number as an exact real. -/
def ofFix (neg : Bool) (v : Nat) : Exact := ⟨neg, v, fixOne⟩

/-- Σ of the odd powers of `z` divided by their exponents, `alt` alternating: atanh, or atan. `z2` is z², `p` the next power. -/
def oddSeries (alt : Bool) (z2 : Nat) : Nat → Nat → Nat → Int → Int
  | 0, _, _, acc => acc
  | fuel + 1, k, p, acc =>
    let t : Int := (p / (2 * k + 1) : Nat)
    oddSeries alt z2 fuel (k + 1) (p * z2 / fixOne) (if alt && k % 2 == 1 then acc - t else acc + t)

/-- atanh z for |z| ≤ 1/3. -/
def fixAtanh (z : Nat) : Nat := (oddSeries false (z * z / fixOne) 170 0 z 0).toNat
/-- atan z for |z| ≤ 1/5. -/
def fixAtan (z : Nat) : Nat := (oddSeries true (z * z / fixOne) 120 0 z 0).toNat
/-- ln 2. -/
def fixLn2 : Nat := 2 * fixAtanh (fixOne / 3)
/-- π, by Machin's formula. -/
def fixPi : Nat := 16 * fixAtan (fixOne / 5) - 4 * fixAtan (fixOne / 239)

/-- The Taylor series of e^x: the terms from `t` on, number `k`. -/
def expSeries (x : Nat) : Nat → Nat → Nat → Nat → Nat
  | 0, _, _, acc => acc
  | fuel + 1, k, t, acc => expSeries x fuel (k + 1) (t * x / fixOne / k) (acc + t)

/-- e^x for 0 ≤ x < 1. -/
def fixExp (x : Nat) : Nat := expSeries x 110 1 fixOne 0

/-- e^(−x) for x ≥ 0: 2^−k × e^(k ln 2 − x). -/
def fixExpNeg (x : Nat) : Nat :=
  let l := fixLn2
  let k := x / l + 1
  fixExp (k * l - x) / 2 ^ k

/-- The Taylor series of sine or cosine: the term `t` of order `k`, alternating. -/
def trigSeries (x2 : Nat) : Nat → Nat → Nat → Bool → Int → Int
  | 0, _, _, _, acc => acc
  | fuel + 1, k, t, neg, acc =>
    trigSeries x2 fuel (k + 2) (t * x2 / fixOne / ((k + 1) * (k + 2))) (!neg) (if neg then acc - t else acc + t)

/-- sin x for 0 ≤ x ≤ 2. -/
def fixSin (x : Nat) : Nat := (trigSeries (x * x / fixOne) 60 1 x false 0).toNat

/-- The integer square root, bit by bit from bit `k` − 1. -/
def isqrtAux (n : Nat) : Nat → Nat → Nat
  | 0, r => r
  | k + 1, r => if (r + 2 ^ k) * (r + 2 ^ k) ≤ n then isqrtAux n k (r + 2 ^ k) else isqrtAux n k r
def isqrt (n : Nat) : Nat := isqrtAux n (Nat.log2 n / 2 + 1) 0

/-- √(num / den), as an exact real that rounds as the root does, and whether the root is rational: 300 fraction bits, and
half a unit more where the root lies between two of them. -/
def sqrtX (num den : Nat) : Exact × Bool :=
  let n := isqrt (num * 2 ^ 600 / den)
  if n * n * den = num * 2 ^ 600 then (⟨false, n, 2 ^ 300⟩, true) else (⟨false, 2 * n + 1, 2 ^ 301⟩, false)

end Sys2Proof.Machine
end

