-- ==== Sys2Proof/Machine/Access.lean ====
section
/-! DEFINITION. Accesses of ls and sp in flight: where each line of an access goes (R318, R473), what it does there, and when the
wave's stores, fences and windows are through (R282 to R291). -/
namespace Sys2Proof.Machine

/-! Records of an access. -/

def State.acc? (s : State) (w k : Nat) : Option Access := (s.wave? w).bind fun x => Map.find? x.accs k

/-- Changes line `i` of an access. -/
def Access.modLine (a : Access) (i : Nat) (f : LineUse → LineUse) : Access :=
  { a with lines := a.lines.zipIdx.map fun (u, j) => if j = i then f u else u }

def State.modUse (s : State) (w k i : Nat) (f : LineUse → LineUse) : State := s.modAcc w k (·.modLine i f)

def State.dropAcc (s : State) (w k : Nat) : State := s.modWave w fun x => { x with accs := Map.erase x.accs k }

/-- A store, or a line operation: what the store buffer holds and the drain performs in order (R282, R286). -/
def Access.storing (a : Access) : Bool := match a.kind with | .store _ => true | .cwb => true | .cinvWb => true | .cinvDis => true | _ => false
def Access.isLoad (a : Access) : Bool := match a.kind with | .load _ _ => true | _ => false
def Access.isAtomic (a : Access) : Bool := match a.kind with | .atomic _ => true | _ => false
def Access.isLineOp (a : Access) : Bool := match a.kind with | .cwb => true | .cinvWb => true | .cinvDis => true | _ => false
/-- It writes its lines, or counts as a write of them (R158, R162). -/
def Access.writes (a : Access) : Bool := match a.kind with | .store _ => true | .atomic _ => true | .cinvDis => true | _ => false

/-- Width of an access in bytes (R152). -/
def Access.width (a : Access) : Nat := match a.kind with | .load w _ => w | .store w => w | _ => 4

/-- The step that carries out a part of an access. -/
def Access.event (a : Access) : Instr :=
  match a.kind with
  | .load _ _ => .loadBind
  | .atomic _ => .atomicPerformed
  | .store _ => if a.win then .storeBufferEntryReady else .storePerformed
  | _ => if a.win then .storeBufferEntryReady else .lineOperationPerformed

/-- Writes a lane's status in ls.st or sp.st, where the access is the unit's most recent there (R58, R163). -/
def Wave.putStatus (x : Wave) (a : Access) (m : Mask) (f : Nat → Word) : Wave :=
  let u : FuncUnit := if a.sp then .sp else .ls
  let v := portVec u .st
  x.mapCtx (·.deliver a.id { unit := u, lanes := m, ports := [v], vals := (lanesOf m).foldl (fun t l => Map.set 0 t (32 * v + l) (f l)) [] })

/-! Bytes (R156, R171). -/

/-- The place of byte `n` of a lane's access: a team and its scratchpad offset, or a physical address (R170). -/
def State.byteAt (s : State) (x : Wave) (a : Access) (l n : Nat) : Option Nat × Nat :=
  if a.sp then (some x.team, (Map.get 0 a.addr l).toNat + n)
  else match s.scratchAt (Map.get 0 a.pa l + n) with
    | some (t, o) => (some t, o)
    | none => (none, Map.get 0 a.pa l + n)

/-- A byte at such a place. -/
def State.placeByte (s : State) (p : Option Nat × Nat) : BitVec 8 :=
  match p with
  | (some t, o) => s.scrByte t o
  | (none, a) => Memory.read s.mem a

/-- Writes a byte at such a place. -/
def State.putPlace (s : State) (p : Option Nat × Nat) (b : BitVec 8) : State :=
  match p with
  | (some t, o) => s.putScr t o b
  | (none, a) => { s with mem := Memory.write s.mem a b }

/-- The lanes of an access whose lines are not done yet. -/
def Access.openLanes (a : Access) : Mask := (a.lines.filter fun u => !u.done).foldl (fun m u => m ||| u.lanes) 0

/-- The byte the youngest older store of the wave that has not written it yet has for a place, if one has (R171, R279). (DEDUCED, log 13) -/
def State.forward (s : State) (x : Wave) (k : Nat) (p : Option Nat × Nat) : Option (BitVec 8) :=
  let older := (x.accs.filter fun (j, a) => decide (j < k) && !a.done && (match a.kind with | .store _ => true | _ => false)).reverse
  older.findSome? fun (_, a) => (lanesOf a.openLanes).reverse.findSome? fun l =>
    (List.range a.width).findSome? fun n =>
      if s.byteAt x a l n = p then some (BitVec.ofNat 8 ((Map.get 0 a.data l).toNat / 256 ^ n)) else none

/-- The value of a load's lane, extended (R156). -/
def State.loadValue (s : State) (x : Wave) (a : Access) (l : Nat) : Word :=
  let bytes := (List.range a.width).map fun n => let p := s.byteAt x a l n; (s.forward x a.id p).getD (s.placeByte p)
  let v := ofBytes bytes
  match a.kind with
  | .load 1 true => (BitVec.ofNat 8 v).signExtend 32
  | .load 2 true => (BitVec.ofNat 16 v).signExtend 32
  | _ => BitVec.ofNat 32 v

/-- A store's bytes of one line, lanes ascending (R157). -/
def State.storeLine (s : State) (x : Wave) (a : Access) (u : LineUse) : State :=
  (lanesOf u.lanes).foldl (fun s l => (List.range a.width).foldl (fun s n =>
    State.putPlace s (State.byteAt s x a l n) (BitVec.ofNat 8 ((Map.get 0 a.data l).toNat / 256 ^ n))) s) s

/-! Atomics (R158, R159). -/

/-- The new word and SWP. Operations are numbered as the OP field of R62, less 8; sp's three use the ls numbers. -/
def atomicOp (op : Nat) (old c d : Word) : Word × Bool :=
  match op with
  | 0 => (old + c, false)
  | 1 => (old &&& c, false)
  | 2 => (old ||| c, false)
  | 3 => (old ^^^ c, false)
  | 4 => (if old.slt c then old else c, false)
  | 5 => (if old.slt c then c else old, false)
  | 6 => (if old.ult c then old else c, false)
  | 7 => (if old.ult c then c else old, false)
  | 8 => (c, false)
  | 9 => if old = c then (d, true) else (old, false)
  | _ => (fpAdd old c, false)

/-- A 32-bit word at a lane's place. -/
def State.laneWord (s : State) (x : Wave) (a : Access) (l : Nat) : Word :=
  BitVec.ofNat 32 (ofBytes ((List.range 4).map fun n => s.placeByte (s.byteAt x a l n)))

/-- Performs an atomic's lanes of one line; the old words and the lanes whose compare matched. -/
def State.atomicLine (s : State) (x : Wave) (a : Access) (op : Nat) (u : LineUse) : State × Map Word × Mask :=
  (lanesOf u.lanes).foldl (fun (s, vals, swp) l =>
    let old := State.laneWord s x a l
    let (new, hit) := atomicOp op old (Map.get 0 a.data l) (Map.get 0 a.data2 l)
    let s := (List.range 4).foldl (fun s n => State.putPlace s (State.byteAt s x a l n) (BitVec.ofNat 8 (new.toNat / 256 ^ n))) s
    (s, Map.set 0 vals l old, if hit then swp ||| BitVec.ofNat 32 (2 ^ l) else swp)) (s, a.vals, 0)

/-! Tracking of window reads, and writes to a scratchpad line (R289, R290). -/

/-- Records that an open window of wave `w` has read a line; RO lines give rise to no conflict. The line of a memory place stands in the core's L1, or
its holder watches it for the wave (R290). -/
def State.trackRead (s : State) (w : Nat) (u : LineUse) : State :=
  if u.coh = 3 then s else
  let s := s.modWave w fun x => { x with win := x.win.map fun v =>
    { v with read := if v.read.contains u.place then v.read else v.read ++ [u.place] } }
  match u.place with
  | .scratch t o => s.modTeam t fun k =>
      let ws := Map.get [] k.spec o
      { k with spec := Map.set [] k.spec o (if ws.contains w then ws else ws ++ [w]) }
  | .mem line =>
    match (s.core (coreOf w)).l1Find s.now line with
    | some _ => s.modCore (coreOf w) (·.l1Mod line fun e =>
        { e with spec := if e.spec.contains (slotOfWave w) then e.spec else e.spec ++ [slotOfWave w] })
    | none => s.watchLine line [w]

/-- A write to a scratchpad line: a conflict for the other waves whose windows read it. -/
def State.scratchWrite (s : State) (t line : Nat) (writer : Option Nat) : State :=
  (((s.team? t).map fun k => Map.get [] k.spec line).getD []).foldl (fun s w => if some w = writer then s else s.conflict w) s

/-- A write to the place of a line by a party of die `q`. -/
def State.writePlace (s : State) (q : Nat) (p : Place) (writer : Option Nat) : State :=
  match p with
  | .scratch t o => s.scratchWrite t o writer
  | .mem line => s.writeLine q line writer

/-! Requests (R318, R473). -/

/-- Sends part `i` of an access on its way, from the present cycle. `at_` names the home its request has reached, when it is already there: the
home sends the drawer request and counts as the holder from then on (R310). A part that goes to the drawer takes a miss slot of its core on the way,
and waits for one where none is left (R3, R319). (DEDUCED, log 111) -/
def State.requestAt (s : State) (w k i : Nat) (at_ : Option Nat) : State :=
  match s.acc? w k with
  | none => s
  | some a => match a.lines[i]? with
    | none => s
    | some u =>
      let q := dieOf w
      let h := at_.getD (s.home q (linePa u.line))
      let near := at_.isNone
      let past := if near then 0 else 180 * ringDist q h
      -- the event in `t` cycles, the result in `r`
      let go (s : State) (t r : Nat) : State :=
        let soon := if a.isAtomic then t + 8 else if a.isLoad then t else r
        let back := if a.isAtomic then r + 8 else r
        (s.modUse w k i fun u => { u with due := s.now + back }).after soon a.event [w, k, i]
      -- the same by way of the home, which a request from another die reaches first (R417)
      let via (s : State) (t r : Nat) : State :=
        if near && q != h then s.after (180 * ringDist q h) a.event [w, k, i, h + 1] else go s (t - past) (r - past)
      match u.place with
      | .scratch t _ =>
        let d := ((s.team? t).map (·.core / 96)).getD h
        if a.isLineOp then s.after 0 a.event [w, k, i]
        else via s (60 + 180 * hopsTo q h d) (120 + 180 * (hopsTo q h d + ringDist d q))
      | .mem line =>
        let e := s.line line
        -- a miss slot taken on the way to the home is free again
        let s1 := if near then s else s.modUse w k i fun u => { u with slot := false }
        if u.hb && a.isLineOp then s.after 0 a.event [w, k, i]
        else if u.hb && (e.grant.isNone || e.holder.isNone || (!a.isLoad && e.grant != some true)) then s.hostAsk q line (!a.isLoad) w k i
        else if near && a.isLoad && u.coh != 2 && !u.hb && ((s.core (coreOf w)).l1Find s.now line).isSome then go s (2 * a.tl) (32 + 2 * a.tl)
        else if near && a.isLoad && u.coh = 3 && s.roCopy q line then go s 48 96
        else match e.fetching with
        | some id => if near && q != h then s.after (180 * ringDist q h) a.event [w, k, i, h + 1] else s1.joinFetch id (.lane w k i)
        | none => match e.holder with
          | some d =>
            if near && d = q then
              let r := if a.isLoad || a.isAtomic then 96 else if u.coh = 0 && !(s.l1Holders line).isEmpty && !a.isLineOp then 112 else 96
              go s 48 r
            else via s1 (48 + 180 * hopsTo q h d) (96 + 180 * (hopsTo q h d + ringDist d q))
          | none =>
            if a.isLineOp && !a.win then via s 48 (96 + 360 * ringDist q h)
            else if !u.slot && !s.slotFor (coreOf w) line then
              (if near then s.after 1 .homeOffline [1, w, k, i, 4] else s.after 1 a.event [w, k, i, h + 1])
            else if near && q != h then
              (s.modUse w k i fun u => { u with slot := true }).after (180 * ringDist q h) a.event [w, k, i, h + 1]
            else s1.drawerSend q line false [] [.own w k i] (some (coreOf w)) (a.pol.getLsbD 2) (80 + 360 * ringDist q h - past)

/-- Sends part `i` of an access on its way. -/
def State.request (s : State) (w k i : Nat) : State := s.requestAt w k i none

/-- A part of an access reaches die `h` as its line's home: it goes on, or the die answers HOME_OFFLINE (R417). -/
def State.atHome (s : State) (w k i h : Nat) : State :=
  match (s.acc? w k).bind fun a => a.lines[i]? with
  | none => s
  | some u =>
    if s.home h (linePa u.line) = h then s.requestAt w k i (some h)
    else s.after (180 * ringDist h (dieOf w)) .homeOffline [1, w, k, i, h]

/-- HOME_OFFLINE has come back to a part of an access: it is sent again once the die's table names another home (R417). One that has found no miss
slot names no die, and asks again at once (R319). -/
def State.askAgain (s : State) (w k i h : Nat) : State :=
  match (s.acc? w k).bind fun a => a.lines[i]? with
  | none => s
  | some u => if s.home (dieOf w) (linePa u.line) = h then s.after 1 .homeOffline [1, w, k, i, h] else s.request w k i

/-- The event of a part of an access: its request reaches a home, or the part is carried out. -/
def State.partEvent (s : State) (f : Nat → Nat → Nat → State) : State :=
  if s.arg 3 = 0 then f (s.arg 0) (s.arg 1) (s.arg 2) else s.atHome (s.arg 0) (s.arg 1) (s.arg 2) (s.arg 3 - 1)

/-- Sends every part of an access on its way. -/
def State.requestAll (s : State) (w k : Nat) : State :=
  (List.range ((s.acc? w k).map (·.lines.length) |>.getD 0)).foldl (fun s i => State.request s w k i) s

/-! Loads (R155, R156, R473). -/

/-- Whether memory operation `k` of a wave, in no window, must leave its place to older ones that have not performed, which stand in earlier slots of its
bundle: accesses, queue operations and stores of sy.pmap (R278, R298, R302). -/
def Wave.mustWait (x : Wave) (k : Nat) : Bool :=
  (x.accs.any fun (j, b) => decide (j < k) && b.open && !b.win) || x.quOut.any fun j => decide (j < k)

/-- Outside a window, whether part `i` of an access must leave its place to others: to an older operation of its wave, or to its own lanes of lower number
on other lines (R42, R160, R278, R298). -/
def Wave.outOfTurn (x : Wave) (a : Access) (i : Nat) : Bool := !a.win && (x.mustWait a.id || (a.lines.take i).any fun u => !u.done)

/-- An older atomic or discard of the wave, not yet performed, names the line: the load must read what it leaves (R278, R279). -/
def Wave.olderHolds (x : Wave) (k : Nat) (p : Place) : Bool :=
  x.accs.any fun (j, a) => decide (j < k) && !a.done && !a.win && (a.isAtomic || a.kind == .cinvDis) && a.lines.any fun u => u.place == p && !u.done

/-- Schedules the fill of a load or atomic once every part's return is under way. -/
def State.fillWhenBack (s : State) (w k : Nat) : State :=
  match s.acc? w k with
  | none => s
  | some a =>
    if a.lines.all fun u => u.done && u.ready then
      let due := a.lines.foldl (fun d u => max d u.due) s.now
      s.at_ (due + (if a.sp then 0 else a.lines.length - 1)) a.event [w, k, a.lines.length]
    else s

/-- Grants an SI lease, unless a writer waits (R308). -/
def State.grantLease (s : State) (line : Nat) : Option Nat × State :=
  if s.writerWaits line then (none, s)
  else (some (s.now + 511), (s.modLine line fun e => { e with lease := max e.lease (s.now + 511) }).after 512 .leaseExpiry [line])

/-- A line enters the core's L1 as its treatment and the policy word say (R164, R307, R308). -/
def State.l1Fill (s : State) (core line coh : Nat) (pol : Word) : State :=
  if coh = 2 || pol.getLsbD 0 then s
  else if coh = 1 then
    match s.grantLease line with
    | (some t, s) => s.l1Enter core line (some t) (pol.getLsbD 1)
    | (none, s) => s
  else s.l1Enter core line none (pol.getLsbD 1)

/-- A read of a line corrects its correctable error (R275). -/
def State.readSoft (s : State) (line : Nat) : State := if (s.line line).soft then s.modLine line fun e => { e with soft := false } else s

/-- A line that has come to a core enters its L1, where its die's cache holds it. A copy of an RO line needs room in that cache first (R164, R307, R309,
R311). -/
def State.fillCopy (s : State) (core line coh : Nat) (pol : Word) : State :=
  let q := core / 96
  if coh = 3 && !s.roCopy q line then
    match s.makeRoom q line with
    | (0, s) => (s.cacheLine q line (pol.getLsbD 2)).l1Fill core line coh pol
    | (d + 1, s) => s.after (d + 1) .walkComplete [5, core, coh, pol.toNat, line]
  else if s.roCopy q line && (coh = 3 || (s.line line).holder = some q) then s.l1Fill core line coh pol
  else s

/-- The copies that a load leaves where it took its value: the line is the most recently used of its holder's set (R303), a load of an RO line
leaves a copy in its own die's cache (R311), and the line enters the core's L1 (R164, R307). (DESIGN CHOICE, log 112) -/
def State.keepCopy (s : State) (w line : Nat) (a : Access) (u : LineUse) : State :=
  let q := dieOf w
  let d := if u.coh = 3 && s.roCopy q line then q else (s.line line).holder.getD q
  let s := s.touchLine d line
  if u.hb then s else s.fillCopy (coreOf w) line u.coh a.pol

/-- Takes the value of part `i` of a load at the holder. `back` says that its return is under way; a load of a line that is being fetched, which none
can write meanwhile, waits for the installation instead, and is tracked from then on. A line's poison counts, whether its bytes come from the line or from an older store (R156, R171).
(DESIGN CHOICE, log 101) -/
def State.take (s : State) (w k i : Nat) (back : Bool) : State :=
  match s.wave? w with
  | none => s
  | some x => match Map.find? x.accs k with
    | none => s
    | some a => match a.lines[i]? with
      | none => s
      | some u =>
        let vals := (lanesOf u.lanes).foldl (fun m l => Map.set 0 m l (s.loadValue x a l)) a.vals
        let line? : Option Nat := match u.place with | .mem l => some l | _ => none
        let poisoned := match line? with | some l => (s.line l).poison | none => false
        let s := s.modAcc w k fun a =>
          let b := a.modLine i fun u => { u with done := true, ready := back }
          { b with vals := vals, poison := if poisoned then a.poison ||| u.lanes else a.poison, done := !a.win && b.lines.all (·.done) }
        let s := match line? with
          | some line =>
            let s := s.readSoft line
            let c := coreOf w
            if (s.core c).l1Find s.now line |>.isSome then s.modCore c (·.l1Touch line)
            else if back then s.keepCopy w line a u
            else s
          | none => s
        let s := if a.win && back then s.trackRead w u else s
        s.fillWhenBack w k

/-- A killed, retired or drained wave frees its slot when it can. -/
def State.settle (s : State) (w : Nat) : State := s.retire w

/-- The address that the POISON message names: of the lowest poisoned lane of the oldest access that has bound poisoned data, access `k` among
them (R156, R364). -/
def Wave.poisonAt (x : Wave) (k : Nat) : Option Dword :=
  x.accs.findSome? fun (j, a) => if a.poison != 0 && (a.arrived || j == k) then (lowest a.poison).map (Map.get 0 a.addr) else none

/-- Fills a FIFO entry in every context that holds it, and lowers LDC (R15, R156). -/
def Wave.fill (x : Wave) (a : Access) : Wave :=
  let has (c : Ctx) : Bool := (if a.sp then c.spFifo else c.lsFifo).any fun e => e.id == a.id && !e.filled
  let val (c : Ctx) (l : Nat) : Word := if a.lanes.getLsbD l then Map.get 0 a.vals l else if c.shd then Map.get 0 a.vals (l ^^^ 16) else 0
  let put (c : Ctx) (e : FifoEntry) : FifoEntry :=
    if e.id = a.id then { e with filled := true, vals := (lanesOf e.mask).foldl (fun m l => Map.set 0 m l (val c l)) [] } else e
  let held := has x.ctx || (x.trap.map fun t => has t.saved).getD false
  let go (c : Ctx) : Ctx :=
    if a.sp then { c with spFifo := c.spFifo.map (put c) }
    else { c with lsFifo := c.lsFifo.map (put c), ldc := if has c then c.ldc - 1 else c.ldc }
  let y := x.mapCtx go
  if held && !has x.ctx && !a.sp then { y with ctx := { y.ctx with ldc := y.ctx.ldc - 1 } } else y

/-- The last value of a load has come back: it binds (R156, R282). Outside a window it is performed; poisoned data kills the wave. -/
def State.loadDone (s : State) (w k : Nat) : State :=
  match s.wave? w with
  | none => s
  | some x => match Map.find? x.accs k with
    | none => s
    | some a =>
      if a.win then
        let x := if a.poison != 0 then x else (x.fill a).putStatus a a.en fun _ => 0
        s.setWave w { x with accs := Map.put x.accs k { a with arrived := true } }
      else if a.poison != 0 then s.poisonKill w ((x.poisonAt k).getD 0)
      else
        let x := (x.fill a).putStatus a a.en fun _ => 0
        (s.setWave w { x with accs := Map.erase x.accs k }).settle w

/-- LOAD_BIND: a part of a load takes its value, or the load's entry fills (R155, R473). -/
def State.loadBind (s : State) (w k i : Nat) : State :=
  match s.wave? w with
  | none => s
  | some x => match Map.find? x.accs k with
    | none => s
    | some a =>
      match a.lines[i]? with
      | none => s.loadDone w k
      | some u =>
        if u.done then s
        else if x.outOfTurn a i || x.olderHolds k u.place then (s.modUse w k i fun u => { u with due := u.due + 1 }).after 1 .loadBind [w, k, i]
        else s.take w k i true

/-! Stores, line operations and fences (R157, R162, R166, R282). -/

/-- Whether every older store, atomic and line operation of a fence has performed, and at scope 3 its write-backs been accepted. -/
def Wave.fenceOver (x : Wave) (a : Access) (scope : Nat) : Bool :=
  (match x.win with | some v => decide (a.id < v.firstOp) | none => true) &&
  x.accs.all fun (j, b) => decide (a.id ≤ j) || b.isLoad || ((b.done || (match b.kind with | .fence _ => true | _ => false)) && (scope != 3 || b.wbs == 0))

/-- Puts the fences that are over on the agenda. -/
def State.fences (s : State) (w : Nat) : State :=
  match s.wave? w with
  | none => s
  | some x => x.accs.foldl (fun s (k, a) => match a.kind with
    | .fence scope => if x.fenceOver a scope then s.after 0 .fenceComplete [w, k] else s
    | _ => s) s

/-- FENCE_COMPLETE (R166). -/
def State.fenceComplete (s : State) (w k : Nat) : State :=
  match s.wave? w with
  | none => s
  | some x => match Map.find? x.accs k with
    | some a => match a.kind with
      | .fence scope =>
        if x.fenceOver a scope then
          let x := x.putStatus a a.en fun _ => 0
          s.setWave w { x with accs := Map.erase x.accs k }
        else s
      | _ => s
    | none => s

/-- An access all of whose lines are done has been performed: STC, st, and what waits for it. -/
def State.storeDone (s : State) (w k : Nat) : State :=
  match s.wave? w with
  | none => s
  | some x => match Map.find? x.accs k with
    | none => s
    | some a =>
      let x := x.putStatus a a.en fun _ => 0
      let old := match x.win with | some v => decide (k < v.firstOp) | none => false
      let x := { x with
        ctx := { x.ctx with stc := x.ctx.stc - 1 }
        win := x.win.map fun v => if old then { v with ckpt := { v.ckpt with stc := v.ckpt.stc - 1 } } else v
        accs := if a.wbs = 0 then Map.erase x.accs k else Map.put x.accs k { a with done := true } }
      ((s.setWave w x).fences w).settle w

/-- What a line operation or store does to one of its lines, at the holder. -/
def State.performUse (s : State) (w k : Nat) (u : LineUse) : State :=
  match s.wave? w with
  | none => s
  | some x => match Map.find? x.accs k with
    | none => s
    | some a =>
      let q := dieOf w
      match a.kind with
      | .store _ => ((s.writePlace q u.place (some w))).storeLine x a u
      | .cwb | .cinvWb | .cinvDis =>
        match u.place with
        | .scratch _ _ => s
        | .mem line =>
          if u.hb then s
          else
            let dirty := (s.line line).dirty
            let s := if dirty && a.kind != .cinvDis then s.modAcc w k fun a => { a with wbs := a.wbs + 1 } else s
            match a.kind with
            | .cwb => if dirty then (match (s.line line).holder with | some d => s.writeBack d line [.own w k 0] | none => s) else s
            | .cinvWb => s.dropLine line [.own w k 0]
            | _ => s.discard line (some w)
      | _ => s

/-- Cycles a write of a line must still wait at the holder: for leases, or for watches of other parties that must be told (R282,
R308); the notices are sent. `none`: the line is on its way from the drawer, or the host has taken it back. -/
def State.writeWait (s : State) (w : Nat) (u : LineUse) (mine : Bool) (tell : Bool := true) : Option Nat × State :=
  match u.place with
  | .scratch _ _ => (some 0, s)
  | .mem line => s.lineWait (dieOf w) line u.hb (some w) mine tell

/-- The oldest store or line operation of a wave that is in no window and not performed, with its first line not done. -/
def Wave.nextStore (x : Wave) : Option (Nat × Nat) :=
  x.accs.findSome? fun (k, a) => if a.storing && !a.win && !a.done then
    some (k, ((a.lines.zipIdx.find? fun (u, _) => !u.done).map (·.2)).getD a.lines.length) else none

/-- Puts the wave's next store on the agenda, if it has arrived. -/
def State.nextDrain (s : State) (w : Nat) : State :=
  match (s.wave? w).bind fun x => (x.nextStore.map fun p => (x, p)) with
  | some (x, k, i) => match Map.find? x.accs k with
    | some a => match a.lines[i]? with
      | some u => if u.ready then s.after 0 a.event [w, k, i] else s
      | none => s
    | none => s
  | none => s

/-- STORE_PERFORMED, LINE_OPERATION_PERFORMED: a line of a store or line operation has arrived at the holder, and is written there
once every older store of the wave has been written and nothing holds it up (R157, R162, R282). -/
def State.storePerformed (s : State) (w k i : Nat) : State :=
  match s.acc? w k with
  | none => s
  | some a =>
    match a.lines[i]? with
    | none => s
    | some u =>
      if u.done then s else
      let s := s.modUse w k i fun u => { u with ready := true }
      if (s.wave w).nextStore != some (k, i) then s
      else if (s.wave w).outOfTurn a i then s.after 1 a.event [w, k, i]
      else
        let wait := if a.writes && !(a.isLineOp && u.hb) then s.writeWait w u false else (some 0, s)
        match wait with
        | (none, s) => (s.modUse w k i fun u => { u with ready := false }).request w k i
        | (some (d + 1), s) => s.after (d + 1) a.event [w, k, i]
        | (some 0, s) =>
          let s := s.performUse w k u
          let s := s.modUse w k i fun u => { u with done := true }
          let s := match s.acc? w k with
            | some b => if b.lines.all (·.done) then s.storeDone w k else s
            | none => s
          s.nextDrain w

/-- A write-back asked for by an access has been accepted by the drawer (R166). -/
def State.wbAccepted (s : State) (w k : Nat) : State :=
  match s.acc? w k with
  | none => s
  | some a =>
    let s := s.modAcc w k fun a => { a with wbs := a.wbs - 1 }
    let s := if a.wbs ≤ 1 && a.done then s.dropAcc w k else s
    s.fences w

/-! Atomics. -/

/-- Whether a line is on its way from the drawer for part `i` of an access, its request sent: an atomic is performed there 8 cycles after the
swath that carries the request begins (R473). -/
def State.ownFetch (s : State) (w k i : Nat) (u : LineUse) : Bool :=
  match u.place with
  | .mem line => match (s.line line).fetching.bind s.req? with
    | some r => r.swath.isSome && r.waiters.contains (.own w k i)
    | none => false
  | _ => false

/-- ATOMIC_PERFORMED: a line of an atomic is performed at the holder, or the atomic's entry fills (R158, R473). (DEDUCED, log 38) -/
def State.atomicPerformed (s : State) (w k i : Nat) : State :=
  match s.wave? w with
  | none => s
  | some x => match Map.find? x.accs k with
    | none => s
    | some a =>
      let op := match a.kind with | .atomic n => n | _ => 0
      match a.lines[i]? with
      | none =>
        if a.poison != 0 then s.poisonKill w ((x.poisonAt k).getD 0)
        else
          let x := x.fill a
          ((s.setWave w { x with accs := Map.erase x.accs k }).fences w).settle w
      | some u =>
        if u.done then s else
        let mine := s.ownFetch w k i u
        let s := s.modUse w k i fun u => { u with ready := true }
        if x.outOfTurn a i then (s.modUse w k i fun u => { u with due := u.due + 1 }).after 1 .atomicPerformed [w, k, i] else
        match s.writeWait w u mine with
        | (none, s) => (s.modUse w k i fun u => { u with ready := false }).request w k i
        | (some (d + 1), s) => (s.modUse w k i fun u => { u with due := u.due + d + 1 }).after (d + 1) .atomicPerformed [w, k, i]
        | (some 0, s) =>
          let poisoned := match u.place with | .mem l => (s.line l).poison | _ => false
          let s := s.writePlace (dieOf w) u.place (some w)
          let (s, vals, swp) := s.atomicLine x a op u
          let s := s.modAcc w k fun b =>
            let b := b.modLine i fun u => { u with done := true, ready := !mine }
            { b with
              vals := vals
              data2 := (lanesOf u.lanes).foldl (fun m l => Map.put m l (if swp.getLsbD l then 1 else 0)) b.data2
              done := b.lines.all (·.done)
              poison := if poisoned then b.poison ||| u.lanes else b.poison }
          let s := match s.acc? w k with
            | some b => if b.done then (s.modWave w fun x => x.putStatus b b.en fun l => Map.get 0 b.data2 (if b.lanes.getLsbD l then l else l ^^^ 16)).fences w else s
            | none => s
          s.fillWhenBack w k

/-! Windows (R286, R288). -/

/-- STORE_BUFFER_ENTRY_READY: the line of a held store or line operation is writable for the wave (R286): other copies are invalidated, leases
have expired, and the wave's die holds the line. A line operation on a host-bias page asks for nothing (R162). -/
def State.entryReady (s : State) (w k i : Nat) : State :=
  match s.acc? w k with
  | none => s
  | some a => match a.lines[i]? with
    | none => s
    | some u =>
      if u.ready then s
      else if a.isLineOp && u.hb then s.modUse w k i fun u => { u with ready := true }
      else
        match s.writeWait w u false a.writes with
        | (none, s) => s.request w k i
        | (some (d + 1), s) => s.after (d + 1) .storeBufferEntryReady [w, k, i]
        | (some 0, s) =>
          let s := match u.place with
            | .mem line => if u.hb then s else (s.dropCopies line (some w)).own (dieOf w) line
            | _ => s
          s.modUse w k i fun u => { u with ready := true }

/-- Whether a window's conditions to commit hold as far as the wave's own records tell (R288). -/
def Wave.mayCommit (x : Wave) : Bool :=
  match x.win with
  | none => false
  | some v => x.quOut.isEmpty && x.accs.all fun (k, a) =>
      match a.kind with
      | .fence _ => true
      | .load _ _ => decide (v.firstOp ≤ k) && a.arrived
      | _ => if k < v.firstOp then a.done else a.lines.all (·.ready)

/-- A held store whose line is no longer ready: taken away, leased again, or watched by another party (R286). -/
def State.entryLost (s : State) (w : Nat) (a : Access) (u : LineUse) : Bool :=
  match u.place with
  | .scratch _ _ => false
  | .mem line =>
    let e := s.line line
    let told := a.writes && (s.watchers line (some w)).any fun v => dieOf v != dieOf w
    if u.hb then !a.isLineOp && (e.grant != some true || told)
    else e.holder != some (dieOf w) || e.fetching.isSome || (e.lease != 0 && decide (s.now < e.lease + 8)) || told

/-- WINDOW_COMMIT: the window commits: its loads and held stores take their places, the stores are released in program order
(R288); poisoned data it bound kills the wave (R373). Entries that have lost their lines ask for them again instead. -/
def State.windowCommit (s : State) (w : Nat) : State :=
  match s.wave? w with
  | none => s
  | some x => match x.win with
    | none => s
    | some v =>
      if !x.mayCommit then s else
      let mine := x.accs.filter fun (k, _) => decide (v.firstOp ≤ k)
      let lost : List (Nat × Nat) := mine.flatMap fun (k, a) =>
        if a.storing then (a.lines.zipIdx.filter fun (u, _) => s.entryLost w a u).map fun (_, i) => (k, i) else []
      if !lost.isEmpty then
        lost.foldl (fun s (k, i) =>
          let s := State.modUse s w k i fun u => { u with ready := false }
          match (s.acc? w k).bind fun a => a.lines[i]? with
          | some u => match u.place with
            | .mem line => if (s.line line).holder = some (dieOf w) then s.after 0 .storeBufferEntryReady [w, k, i] else s.request w k i
            | _ => s
          | none => s) s
      else
        let s := s.clearSpec w v.read
        let s := mine.foldl (fun s (k, a) => if a.storing then a.lines.foldl (fun s u => State.performUse s w k u) s else s) s
        let s := s.modWave w fun x =>
          let x := mine.foldl (fun x (_, a) => if a.storing then Wave.putStatus x a a.en fun _ => 0 else x) x
          let stores := (mine.filter fun (_, a) => a.storing).length
          { x with
            win := none
            ctx := (({ x.ctx with stc := x.ctx.stc - stores }).setWstat 5 5 0).setWstat 23 16 0
            accs := (x.accs.map fun ((k, a) : Nat × Access) => (k, if v.firstOp ≤ k && a.storing then { a with done := true } else { a with win := false })).filter
              fun (k, a) => decide (k < v.firstOp) || (match a.kind with | .fence _ => true | _ => a.poison != 0 || (a.storing && a.wbs != 0)) }
        let s := match (s.wave w).poisonAt 0 with
          | some p => s.poisonKill w p
          | none => s
        (s.fences w).settle w

/-! The host's grant (R332). -/

/-- HOST_GRANT: the host grants a line to die `q`, whose cache takes it once there is room; the access that asked goes on (R309, R332, R473). -/
def State.hostGrant (s : State) (line : Nat) (excl : Bool) (q w k i : Nat) : State :=
  match s.makeRoom q line with
  | (d + 1, s) => s.after (d + 1) .hostGrant [line, if excl then 1 else 0, q, w, k, i]
  | (0, s) =>
  let s := s.modLine line fun e => { e with grant := some (excl || e.grant == some true) }
  let s := s.own q line
  match s.acc? w k with
  | some a => match a.lines[i]? with
    | some u =>
      let d := if a.isAtomic then 8 else 0
      if u.place == .mem line && !u.done then (s.modUse w k i fun u => { u with due := s.now + d }).after d a.event [w, k, i] else s
    | none => s
  | none => s

/-! The answer to a drawer read (R310, R389). -/

/-- Cycles from the installation of a line at its home until die `q` has it. The way of a request of its own is in the figure of R389 already; a
request that waited at the home for another's fetch is served there, and its answer has that way to go (R310). -/
def State.wayBack (s : State) (own : Bool) (line q : Nat) : Nat := if own then 0 else 180 * ringDist (s.home q (linePa line)) q

/-- A part of an access is served at the home of its line, which has been installed there (R310, R318, R389). -/
def State.served (s : State) (own : Bool) (line w k i : Nat) : State :=
  match s.acc? w k with
  | none => s
  | some a => match a.lines[i]? with
    | none => s
    | some u =>
      let back := s.wayBack own line (dieOf w)
      let s := s.modAcc w k fun b =>
        { b.modLine i fun u => { u with due := State.now s + back + (if a.isAtomic then 8 else 0), ready := u.ready || a.isLoad || (a.isAtomic && u.done) } with
          poison := if u.done && (s.line line).poison then b.poison ||| u.lanes else b.poison }
      if u.done then
        let s := if a.isLoad then s.keepCopy w line a u else s
        (if a.isLoad && a.win then s.trackRead w u else s).fillWhenBack w k
      else if a.isLoad then s.after 0 .loadBind [w, k, i]
      else if a.isAtomic then s.after 8 .atomicPerformed [w, k, i]
      else s.after back a.event [w, k, i]

/-- A waiter of a fetch goes on: the line has been installed. -/
def State.wake (s : State) (line : Nat) (v : Waiter) : State :=
  match v with
  | .lane w k i => s.served false line w k i
  | .own w k i => s.served true line w k i
  | .die _ => s
  | .eng own args => s.after (s.wayBack own line (((s.cmd? (args.headD 0)).map (·.clover / 24)).getD 0)) .engineLineTransfer args
  | .sys own args => s.after (s.wayBack own line (args.getD 4 0)) .resultReady args
  | .host args => s.after 0 .hostAccess args
  | .read own q args => s.after (s.wayBack own line q) .walkComplete args

end Sys2Proof.Machine
end

