-- ==== Sys2Proof/Machine/Fetch.lean ====
section
/-! DEFINITION. Instruction fetch: translation, the instruction cache, and the words of a bundle (R43, R46). -/
namespace Sys2Proof.Machine

/-- Whether a fetch may use a page (R46, R154, R322). -/
def Page.runs (p : Page) (sup : Bool) : Bool := p.x && (!p.supo || sup)

/-- What is known of the translation of a fetch without asking the die: of the pages `ps` found for it, or in the core TLB (R324). (DEDUCED, log 15) -/
def State.instLook (s : State) (w : Nat) (ps : List (Nat × Xlate)) (va : Nat) : Option Xlate :=
  if !canonical (BitVec.ofNat 64 va) then some .fault else
  match ps.find? (·.1 == va / 2 ^ 16) with
  | some (_, o) => some o
  | none => (Machine.tlbFind (s.core (coreOf w)).tlb (s.wave w).part va).map fun (p, _) => s.pageAt p va

/-- The translation of a fetch: what is known of it, or else what a walk finds. -/
def State.instXlate (s : State) (w : Nat) (ps : List (Nat × Xlate)) (va : Nat) : Xlate := (s.instLook w ps va).getD (s.walk (s.wave w).part va).out

/-- The physical address of an instruction word, or the cause of the fault of its fetch (R46). -/
def State.instPa (s : State) (w : Nat) (ps : List (Nat × Xlate)) (va : Nat) : Except Nat Nat :=
  match s.instXlate w ps va with
  | .page p => if p.runs (s.wave w).ctx.sup then .ok (p.addr va) else .error 0x05
  | .fault => .error 0x03
  | _ => .error 0x04

/-- An instruction word. -/
def State.instWord (s : State) (w : Nat) (ps : List (Nat × Xlate)) (va : Nat) : Except Nat Nat :=
  match s.instPa w ps va with
  | .ok pa => .ok (s.read pa 4)
  | .error c => .error c

/-- The number of words of a bundle, by its header (R43). -/
def headerWords (h : Nat) : Nat := 1 + h / 2 ^ 29 % 8 + h / 2 ^ 27 % 4

/-- The words of a bundle; `none` for the rest of it where its header is no legal one. On a fault, the cause and the address. (DEDUCED, log 14) -/
def State.bundleWords (s : State) (w : Nat) (ps : List (Nat × Xlate)) (va : Nat) : Except (Nat × Nat) (List Nat) :=
  match s.instWord w ps va with
  | .error c => .error (c, va)
  | .ok h =>
    if !headerOk h then .ok [h]
    else (List.range (headerWords h)).foldl (fun r k =>
      if k = 0 then r else
      match r, s.instWord w ps ((va + 4 * k) % 2 ^ 64) with
      | .ok l, .ok v => .ok (l ++ [v])
      | .error e, _ => .error e
      | .ok _, .error c => .error (c, (va + 4 * k) % 2 ^ 64)) (.ok [h])

/-- The addresses, one in each page, at which the fetch of a bundle is translated: the header's, and the last word's once the header can be read. -/
def State.fetchSpan (s : State) (w : Nat) (ps : List (Nat × Xlate)) (va : Nat) : List Nat :=
  match s.instLook w ps va with
  | some (.page p) =>
    let h := s.read (p.addr va) 4
    let last := (va + 4 * (headerWords h - 1)) % 2 ^ 64
    if p.runs (s.wave w).ctx.sup && !p.flip && headerOk h && last / 2 ^ 16 != va / 2 ^ 16 then [va, last] else [va]
  | _ => [va]

/-! The instruction cache (R303): 128 sets of 4 ways. -/

def icSet (line : Nat) : Nat := line % 128
def Core.icHit (c : Core) (line : Nat) : Bool := (Map.get [] c.ic (icSet line)).contains line
/-- Enters a line, the least recently used making room, or makes one that is there the most recently used. -/
def Core.icEnter (c : Core) (line : Nat) : Core :=
  { c with ic := Map.set [] c.ic (icSet line) ((line :: (Map.get [] c.ic (icSet line)).filter (· != line)).take 4) }

/-- The distinct lines of a fetched bundle, each with its page's treatment and bias. -/
def State.fetchLines (s : State) (w : Nat) (ps : List (Nat × Xlate)) (va n : Nat) : List (Nat × Nat × Bool) :=
  ((List.range n).filterMap fun k =>
    let a := (va + 4 * k) % 2 ^ 64
    match s.instXlate w ps a with
    | .page p => some (p.addr a / 128, p.coh, p.hb)
    | _ => none).eraseDups

/-- Changes a fragment. -/
def State.modSeq (s : State) (w q : Nat) (f : Seq → Seq) : State :=
  s.modCtx w fun c => match Map.find? c.seqs q with
    | some g => { c with seqs := Map.put c.seqs q (f g) }
    | none => c

/-- A fetch asks for the lines that the instruction cache lacks, a line once however many fragments of the core wait for it (R61, R318). -/
def State.askLines (s : State) (w q : Nat) (miss : List (Nat × Nat × Bool)) : State :=
  let c := coreOf w
  (miss.foldl (fun s (l, coh, hb) =>
    if (State.core s c).icDue.contains l then s
    else (s.modCore c fun k => { k with icDue := k.icDue ++ [l] }).readLine (dieOf w) (linePa l) coh hb [4, c, l]) s).modSeq w q
    fun g => { g with fetch := .busy (miss.map (·.1)) }

/-- The fetch of a fragment's next bundle, as far as it comes in this cycle. A page that neither the core TLB nor an earlier look-up gives is asked of the
die TLB; a page that another handler owns, or whose bias is changing, holds the fetch (R331, R334); a line that the instruction cache lacks is read along
its path (R318). A fetch that misses something begins in the cycle in which the bundle could issue (R61). The words stand in memory until it does. -/
def State.goFetch (s : State) (w q : Nat) (g : Seq) : State :=
  let va := g.pc.toNat
  let span := s.fetchSpan w g.pages va
  let later (s : State) : State := (s.modSeq w q fun g => { g with fetch := .look }).at_ g.due .bundleFetch [w, q]
  match span.find? fun a => (s.instLook w g.pages a).isNone with
  | some a => if s.now < g.due then later s else (s.modSeq w q fun g => { g with fetch := .look }).after 24 .bundleFetch [w, q, 1, a / 2 ^ 16]
  | none =>
    let found := span.map fun a => (a / 2 ^ 16, s.instXlate w g.pages a)
    let s := s.modCore (coreOf w) fun c => span.foldl (fun c a =>
      match Machine.tlbFind c.tlb (s.wave w).part a with | some (_, t) => { c with tlb := t } | none => c) c
    let s := s.modSeq w q fun g => { g with pages := found }
    if found.any (·.2.waits) then s.modSeq w q fun g => { g with fetch := .held }
    else match s.bundleWords w found va with
      | .error (c, a) => s.modSeq w q fun g => { g with fetch := .bad c (BitVec.ofNat 64 a) }
      | .ok ws =>
        let lines := s.fetchLines w found va ws.length
        let miss := lines.filter fun (l, _) => !(s.core (coreOf w)).icHit l
        if miss.isEmpty then
          (s.modCore (coreOf w) fun c => (lines.map (·.1)).foldl Core.icEnter c).modSeq w q fun g => { g with fetch := .ready }
        else if s.now < g.due then later s
        else s.askLines w q miss

/-- BUNDLE_FETCH: the fetch of a fragment's next bundle begins or goes on (R46). -/
def State.bundleFetch (s : State) (w q : Nat) : State :=
  match (s.wave? w).bind fun x => Map.find? x.ctx.seqs q with
  | none => s
  | some g => match g.fetch with
    | .need => s.goFetch w q { g with pages := [] }
    | .look => s.goFetch w q g
    | _ => s

/-- A page found for a fetch (R324). -/
def State.fetchPage (s : State) (w q vpn : Nat) (o : Xlate) : State :=
  ((s.modSeq w q fun g => { g with pages := (vpn, o) :: g.pages.filter (·.1 != vpn) }).coreTlbAdd w o).bundleFetch w q

/-- The die TLB answers a fetch, or a walk begins (R324). -/
def State.fetchLookup (s : State) (w q vpn : Nat) : State :=
  match s.wave? w with
  | none => s
  | some x => match (s.die (dieOf w)).tlbFind x.part (vpn * 2 ^ 16) with
    | some (p, d) => (s.setDie (dieOf w) d).fetchPage w q vpn (s.pageAt p (vpn * 2 ^ 16))
    | none => s.beginWalk (dieOf w) x.part (vpn * 2 ^ 16) (.fetch w q)

/-- A line of instructions has come to a core: it enters the instruction cache, and the fragments that have waited for it alone have their bundles.
(DESIGN CHOICE, log 113) -/
def State.instLine (s : State) (core line : Nat) : State :=
  let s := s.modCore core fun c => { c.icEnter line with icDue := c.icDue.filter (· != line) }
  let come (q : Seq) : Seq := match q.fetch with
    | .busy ls => if ls.contains line then { q with fetch := if ls.all (· == line) then .ready else .busy (ls.filter (· != line)) } else q
    | _ => q
  let all (m : Map Seq) : Map Seq := m.map fun (i, q) => (i, come q)
  { s with waves := s.waves.map fun ((w, x) : Nat × Wave) =>
      (w, if coreOf w = core then { x with ctx := { x.ctx with seqs := all x.ctx.seqs, spill := all x.ctx.spill } } else x) }

/-- BUNDLE_FETCH: wave, sequencer, and what has come: nothing; 1 the die TLB's answer for a page; 2 the trap-table entries of a trap (R46, R361). -/
def execBundleFetch (s : State) : Host.Outcome State Fault Refusal :=
  .next (match s.arg 2 with
    | 0 => s.bundleFetch (s.arg 0) (s.arg 1)
    | 1 => s.fetchLookup (s.arg 0) (s.arg 1) (s.arg 3)
    | _ => s.enterHandler (s.arg 0) (s.arg 1))

end Sys2Proof.Machine
end

