-- ==== Sys2Proof/Machine/LoadStore.lean ====
section
/-! DEFINITION. The operations of ls and sp (07_memory_operations.md): addresses, faults in their order, and the accesses they
start. -/
namespace Sys2Proof.Machine

/-! Faults and translation (R153, R154). -/

/-- What a page must permit (R154): read, write, and the DIS bit. -/
structure Need where
  r : Bool
  w : Bool
  dis : Bool
deriving DecidableEq, Repr

/-- Whether a page permits an access (R154, R322). -/
def Page.allows (p : Page) (n : Need) (sup : Bool) : Bool :=
  (!n.r || p.r) && (!n.w || (p.w && p.coh != 3)) && (!n.dis || p.dis) && (!p.supo || sup)

/-- How the checks of an ls trigger end. -/
inductive Checked
  | stop (r : SlotRes)
  /-- The page of every lane, TL, and the state with its last-page registers and core TLB as the look-ups leave them. -/
  | go (pages : Map Page) (tl : Nat) (s : State)

/-- The lanes of a mask that satisfy `p`. -/
def lanesWhere (m : Mask) (p : Nat → Bool) : Mask := maskOf ((lanesOf m).filter p)

/-- A trap of the lanes `m` with the address of the lowest (R265). -/
def MoveIn.addrTrap (m : MoveIn) (cause : Nat) (mask : Mask) (addr : Nat → Dword) : SlotRes :=
  m.trap cause mask (addr ((lowest mask).getD 0))

/-- A page as the last-page register holds it: its 64 KiB part (R324). -/
def Page.small (p : Page) (va : Nat) : Page :=
  if p.big then { p with big := false, whole := true, vpn := va / 2 ^ 16 % 2 ^ 48, pa := p.pa + va % 2 ^ 29 / 2 ^ 16 * 2 ^ 16 } else p

/-- Marks the pages the lanes used: the core TLB's order and the last-page registers (R16, R324). -/
def State.usePages (s : State) (m : MoveIn) (addr : Nat → Dword) (pages : Map Page) : State :=
  let missed := (lanesOf m.real).filter fun l => !m.x.lastHit l (addr l)
  let s := s.modCore (coreOf m.w) fun c => missed.foldl (fun c l =>
    match Machine.tlbFind c.tlb m.x.part (addr l).toNat with
    | some (_, t) => { c with tlb := t }
    | none => c) c
  let note (t : Map Page) (l : Nat) : Map Page :=
    match Map.find? pages l with
    | some p => Map.put t l (p.small (addr l).toNat)
    | none => t
  s.modWave m.w fun x => { x with lastPage := missed.foldl note x.lastPage }

/-- The checks of an ls trigger, in their order (R153). -/
def State.lsCheck (s : State) (m : MoveIn) (addr : Nat → Dword) (align : Nat) (need : Need) : Checked :=
  let ls := lanesOf m.real
  let mis := lanesWhere m.real fun l => (addr l).toNat % align != 0
  if mis != 0 then .stop (m.addrTrap 0x06 mis addr) else
  let outs : List (Nat × Option Xlate) := ls.map fun l => (l, s.laneXlate m.c m.x l (addr l))
  let unknown := (outs.filter fun (_, o) => o.isNone).map fun (l, _) => (addr l).toNat / 2 ^ 16 * 2 ^ 16
  if !unknown.isEmpty then .stop (.hold unknown.eraseDups) else
  let out (l : Nat) : Xlate := ((outs.find? fun (k, _) => k == l).bind (·.2)).getD .fault
  if ls.any fun l => (out l).waits then .stop (.hold []) else
  let fault := lanesWhere m.real fun l => out l == .fault
  if fault != 0 then .stop (m.addrTrap 0x03 fault addr) else
  let pool := lanesWhere m.real fun l => out l == .pool
  if pool != 0 then .stop (m.addrTrap 0x04 pool addr) else
  let prot := lanesWhere m.real fun l => match out l with | .page p => !p.allows need m.x.ctx.sup | _ => false
  if prot != 0 then .stop (m.addrTrap 0x05 prot addr) else
  let pages : Map Page := ls.filterMap fun l => match out l with | .page p => some (l, p) | _ => none
  let tl := if ls.any fun l => !m.x.lastHit l (addr l) then 1 else 0
  .go pages tl (s.usePages m addr pages)

/-! Starting an access. -/

/-- The distinct lines of an access, in the order of their lowest lanes: where lanes of several lines alternate, each line takes its places together,
at its lowest lane (R160). (DESIGN CHOICE, log 98) -/
def groupLines (ls : List Nat) (f : Nat → LineUse) : List LineUse :=
  ls.foldl (fun us l =>
    let u := f l
    if us.any fun v => v.place == u.place && v.line == u.line then
      us.map fun v => if v.place == u.place && v.line == u.line then { v with lanes := v.lanes ||| u.lanes } else v
    else us ++ [u]) []

/-- The line a lane of an ls access names. -/
def State.lineUse (s : State) (p : Page) (pa l : Nat) : LineUse :=
  { place := match s.scratchAt pa with | some (t, o) => .scratch t (o / 128) | none => .mem (pa / 128),
    line := pa / 128, coh := p.coh, hb := p.hb || isHostPa pa, lanes := BitVec.ofNat 32 (2 ^ l), done := false, ready := false, due := 0 }

/-- An access of the lanes of a move. -/
def MoveIn.newAccess (m : MoveIn) (sp : Bool) (kind : AccKind) (addr : Nat → Dword) (data data2 : Nat → Word) : Access :=
  let tab (f : Nat → Word) : Map Word := (lanesOf m.real).foldl (fun t l => Map.set 0 t l (f l)) []
  { id := 0, sp := sp, kind := kind, en := m.en, lanes := m.real, addr := (lanesOf m.real).foldl (fun t l => Map.set 0 t l (addr l)) [],
    pa := [], data := tab data, data2 := tab data2, lines := [], vals := [], win := false, tl := 0, issued := 0, arrived := false,
    done := false, wbs := 0, poison := 0, pol := m.x.ctx.pol, stalled := false }

/-- Enters an access: its FIFO entry, its counter, its place in the window (R150, R171). The answer is its number. -/
def State.enter (s : State) (m : MoveIn) (a : Access) : Nat × State :=
  let x := s.wave m.w
  let k := x.nextOp
  let x := x.begin (if a.sp then .sp else .ls) [.st] m.en
  let held := x.win.isSome && (a.isLoad || a.storing)
  let a := { a with id := k, win := held, issued := s.now }
  let e : FifoEntry := { id := k, mask := m.en, vals := [], filled := false }
  let c := x.ctx
  let c := if !(a.isLoad || a.isAtomic) then c else if a.sp then { c with spFifo := c.spFifo ++ [e] } else { c with lsFifo := c.lsFifo ++ [e], ldc := c.ldc + 1 }
  let c := if a.storing then { c with stc := c.stc + 1 } else c
  (k, s.setWave m.w { x with
    ctx := c, accs := Map.put x.accs k a
    win := x.win.map fun v => if held then { v with count := v.count + 1 } else v })

/-- Whether a line lies in the drawer's bank groups, and whether an access to it would go to the drawer now (R305, R310, R319). -/
def LineUse.banked (u : LineUse) : Bool := !isHostPa (linePa u.line)
def State.takesSlot (s : State) (u : LineUse) : Bool :=
  u.place == .mem u.line && u.banked && !u.hb && (s.line u.line).holder.isNone && (s.line u.line).fetching.isNone

/-- Whether the miss slots of a core let an access go on (R3, R319): while 64 of them wait on a bank group that it names it waits, whether or not
it would take one; and it takes no group beyond 64, and the core not beyond its 320. -/
def State.slotsFree (s : State) (core : Nat) (us : List LineUse) : Bool :=
  let taken := s.missSlots core
  let new := us.filter s.takesSlot
  let on (l : List Nat) (g : Nat) : Nat := (l.filter (· == g)).length
  let group (u : LineUse) : Nat := bankGroup (linePa u.line)
  decide (taken.length + new.length ≤ 320) &&
    us.all fun u => !u.banked || (decide (on taken (group u) < 64) && decide (on taken (group u) + on (new.map group) (group u) ≤ 64))

/-- Whether an access must wait before it goes on: for miss slots (R319), of which a line operation takes some in a window alone, or, a load, for a
discard held in the window (R171, R285). -/
def State.accessWaits (s : State) (m : MoveIn) (a : Access) (us : List LineUse) : Bool :=
  (if a.isLineOp then (s.wave m.w).win.isSome && !s.slotsFree (coreOf m.w) (us.filter s.takesSlot) else !s.slotsFree (coreOf m.w) us) ||
    us.any fun u => match u.place with
      | .scratch _ _ => false
      | .mem _ => a.isLoad && m.x.accs.any fun (_, a) => a.win && a.kind == .cinvDis && a.lines.any fun v => v.place == u.place

/-- POLIGN counts a trigger made while reserved bits of the policy word are set (R165): an access or a prefetch, but no fence and no write of the
policy word. (DESIGN CHOICE, log 100) -/
def State.countPolign (s : State) (w : Nat) : State :=
  if (s.wave w).ctx.pol.toNat / 8 = 0 then s else s.modCore (coreOf w) fun c => { c with polign := c.polign + 1 }

/-- An ls access: checks, then the request of every line (R153, R318). -/
def lsAccess (kind : AccKind) (align : Nat) (need : Need) (addr : MoveIn → Nat → Dword) (data data2 : MoveIn → Nat → Word) (m : MoveIn) : Slot := fun s =>
  match s.lsCheck m (addr m) align need with
  | .stop r => r
  | .go pages tl s' =>
    let a := m.newAccess false kind (addr m) (data m) (data2 m)
    let pa : Map Nat := pages.map fun (l, p) => (l, p.addr (addr m l).toNat)
    let us := groupLines (lanesOf m.real) fun l => s.lineUse ((Map.find? pages l).getD (pageOf 0 0 0 false)) (Map.get 0 pa l) l
    if s.accessWaits m a us then .hold []
    else
      let (k, s) := (s'.countPolign m.w).enter m { a with pa := pa, lines := us, tl := tl }
      .ok (s.requestAll m.w k)

/-- Address of the two-input forms, and of the others (R151). -/
def lsAddr2 (m : MoveIn) (l : Nat) : Dword := m.latch .ls .o1 l + sextWord (m.tw l)
def lsAddr3 (m : MoveIn) (l : Nat) : Dword := m.latch .ls .o1 l + sextWord (m.latchW .ls .o2 l)
/-- No data. -/
def noData (_ : MoveIn) (_ : Nat) : Word := 0

/-- ls loads (R156). -/
def lsLoad (w : Nat) (signed : Bool) (gd : Guard) (src : Src) : Slot :=
  withReal gd src (lsAccess (.load w signed) w ⟨true, false, false⟩ lsAddr2 noData noData)

/-- The address and data a shadow pair is compared by. -/
def lsPair (m : MoveIn) (l : Nat) : List Dword := [lsAddr3 m l, m.t l]
def casPair (m : MoveIn) (l : Nat) : List Dword := [lsAddr3 m l, m.latch .ls .o3 l, m.t l]

/-- ls stores (R157). -/
def lsStore (w : Nat) (gd : Guard) (src : Src) : Slot :=
  withPairs gd src lsPair (lsAccess (.store w) w ⟨false, true, false⟩ lsAddr3 (·.tw) noData)

/-- ls atomics with three inputs (R158). -/
def lsAtomic (op : Nat) (gd : Guard) (src : Src) : Slot :=
  withPairs gd src lsPair (lsAccess (.atomic op) 4 ⟨true, true, false⟩ lsAddr3 (·.tw) noData)

/-- ls line operations (R162). -/
def lsLineOp (kind : AccKind) (dis : Bool) (gd : Guard) (src : Src) : Slot :=
  withReal gd src (lsAccess kind 1 ⟨false, true, dis⟩ lsAddr2 noData noData)

/-- Brings the line of a prefetched address close to the core (R161): it is read as a load would read it, and one that finds no miss slot is not
fetched. (DESIGN CHOICE, log 99) -/
def State.prefetch (s : State) (w : Nat) (p : Page) (pa : Nat) (pol : Word) : State :=
  let line := pa / 128
  let c := coreOf w
  let q := dieOf w
  if p.coh = 2 || (s.scratchAt pa).isSome then s
  else if p.hb || isHostPa pa then (if (s.line line).grant.isSome then s else s.hostAsk q line false w 0 0)
  else if ((s.core c).l1Find s.now line).isSome then s
  else s.readLine q pa p.coh false [5, c, p.coh, pol.toNat, line]

/-- The page of a prefetch, found without a walk (R161). -/
def State.pfPage (s : State) (m : MoveIn) (l : Nat) (a : Dword) : Option Page :=
  match s.laneXlate m.c m.x l a with
  | some (.page p) => some p
  | some _ => none
  | none => match (s.die (dieOf m.w)).tlbFind m.x.part a.toNat with
    | some (p, _) => match s.pageAt p a.toNat with | .page p => some p | _ => none
    | none => none

/-! The scratchpad unit (R167 to R169). -/

/-- The team of the issuing wave and its SCRATCH. -/
def State.scratchOf (s : State) (m : MoveIn) : Nat := ((s.team? m.x.team).map (·.scratch)).getD 0

/-- The largest number of requests to one bank: of distinct words, or, for atomics, of lanes (R169). -/
def bankLoad (m : MoveIn) (off : Nat → Dword) (atomic : Bool) : Nat :=
  let words := (lanesOf m.real).map fun l => (off l).toNat / 4
  let asked := if atomic then words else words.eraseDups
  (List.range 32).foldl (fun b k => max b (asked.filter fun v => v % 32 == k).length) 0

/-- An sp access: checks, then its parts after the latency of R169. -/
def spAccess (kind : AccKind) (w base : Nat) (off : MoveIn → Nat → Dword) (data data2 : MoveIn → Nat → Word) (m : MoveIn) : Slot := fun s =>
  let size := s.scratchOf m
  let out := lanesWhere m.real fun l => decide (size < (off m l).toNat + w)
  if out != 0 then m.addrTrap 0x07 out (off m) else
  let mis := lanesWhere m.real fun l => (off m l).toNat % w != 0
  if mis != 0 then m.addrTrap 0x06 mis (off m) else
  let a := m.newAccess true kind (off m) (data m) (data2 m)
  let lat := base + (bankLoad m (off m) a.isAtomic - 1)
  let us := groupLines (lanesOf m.real) fun l =>
    { place := .scratch m.x.team ((off m l).toNat / 128), line := 0, coh := 0, hb := false, lanes := BitVec.ofNat 32 (2 ^ l), done := false, ready := false, due := s.now + lat }
  let (k, s) := s.enter m { a with lines := us }
  let ev := ((s.acc? m.w k).map (·.event)).getD .loadBind
  .ok ((List.range us.length).foldl (fun s i => State.after s lat ev [m.w, k, i]) s)

/-- Offset of the two-input forms, of the three-input forms, and of at.cas (R167). -/
def spOff2 (m : MoveIn) (l : Nat) : Dword := (m.latchW .sp .o1 l + m.tw l).setWidth 64
def spOff3 (m : MoveIn) (l : Nat) : Dword := (m.latchW .sp .o1 l + m.latchW .sp .o2 l).setWidth 64
def spOffCas (m : MoveIn) (l : Nat) : Dword := (m.latchW .sp .o1 l).setWidth 64

def spLoad (w : Nat) (gd : Guard) (src : Src) : Slot := withReal gd src (spAccess (.load w false) w 20 spOff2 noData noData)
def spPair (m : MoveIn) (l : Nat) : List Dword := [spOff3 m l, m.t l]
def spCasPair (m : MoveIn) (l : Nat) : List Dword := [spOffCas m l, m.latch .sp .o2 l, m.t l]
def spStore (w : Nat) (gd : Guard) (src : Src) : Slot :=
  withPairs gd src spPair (spAccess (.store w) w 20 spOff3 (·.tw) noData)
def spAtomic (op : Nat) (gd : Guard) (src : Src) : Slot :=
  withPairs gd src spPair (spAccess (.atomic op) 4 28 spOff3 (·.tw) noData)

/-! The operations. -/

/-- ls.ld.b: a byte, zero-extended (R156). -/
def slotLsLdB (gd : Guard) (src : Src) : Slot := lsLoad 1 false gd src
/-- The same on its own. -/
def execLsLdB (gd : Guard) (src : Src) (s : State) : Host.Outcome State Fault Refusal := asStep (slotLsLdB gd src s) s

/-- ls.ld.bs: a byte, sign-extended (R156). -/
def slotLsLdBs (gd : Guard) (src : Src) : Slot := lsLoad 1 true gd src
/-- The same on its own. -/
def execLsLdBs (gd : Guard) (src : Src) (s : State) : Host.Outcome State Fault Refusal := asStep (slotLsLdBs gd src s) s

/-- ls.ld.h: a half-word, zero-extended (R156). -/
def slotLsLdH (gd : Guard) (src : Src) : Slot := lsLoad 2 false gd src
/-- The same on its own. -/
def execLsLdH (gd : Guard) (src : Src) (s : State) : Host.Outcome State Fault Refusal := asStep (slotLsLdH gd src s) s

/-- ls.ld.hs: a half-word, sign-extended (R156). -/
def slotLsLdHs (gd : Guard) (src : Src) : Slot := lsLoad 2 true gd src
/-- The same on its own. -/
def execLsLdHs (gd : Guard) (src : Src) (s : State) : Host.Outcome State Fault Refusal := asStep (slotLsLdHs gd src s) s

/-- ls.ld.w: a word (R156). -/
def slotLsLdW (gd : Guard) (src : Src) : Slot := lsLoad 4 false gd src
/-- The same on its own. -/
def execLsLdW (gd : Guard) (src : Src) (s : State) : Host.Outcome State Fault Refusal := asStep (slotLsLdW gd src s) s

/-- ls.st.b (R157). -/
def slotLsStB (gd : Guard) (src : Src) : Slot := lsStore 1 gd src
/-- The same on its own. -/
def execLsStB (gd : Guard) (src : Src) (s : State) : Host.Outcome State Fault Refusal := asStep (slotLsStB gd src s) s

/-- ls.st.h (R157). -/
def slotLsStH (gd : Guard) (src : Src) : Slot := lsStore 2 gd src
/-- The same on its own. -/
def execLsStH (gd : Guard) (src : Src) (s : State) : Host.Outcome State Fault Refusal := asStep (slotLsStH gd src s) s

/-- ls.st.w (R157). -/
def slotLsStW (gd : Guard) (src : Src) : Slot := lsStore 4 gd src
/-- The same on its own. -/
def execLsStW (gd : Guard) (src : Src) (s : State) : Host.Outcome State Fault Refusal := asStep (slotLsStW gd src s) s

/-- ls.at.add (R158). -/
def slotLsAtAdd (gd : Guard) (src : Src) : Slot := lsAtomic 0 gd src
/-- The same on its own. -/
def execLsAtAdd (gd : Guard) (src : Src) (s : State) : Host.Outcome State Fault Refusal := asStep (slotLsAtAdd gd src s) s

/-- ls.at.and (R158). -/
def slotLsAtAnd (gd : Guard) (src : Src) : Slot := lsAtomic 1 gd src
/-- The same on its own. -/
def execLsAtAnd (gd : Guard) (src : Src) (s : State) : Host.Outcome State Fault Refusal := asStep (slotLsAtAnd gd src s) s

/-- ls.at.or (R158). -/
def slotLsAtOr (gd : Guard) (src : Src) : Slot := lsAtomic 2 gd src
/-- The same on its own. -/
def execLsAtOr (gd : Guard) (src : Src) (s : State) : Host.Outcome State Fault Refusal := asStep (slotLsAtOr gd src s) s

/-- ls.at.xor (R158). -/
def slotLsAtXor (gd : Guard) (src : Src) : Slot := lsAtomic 3 gd src
/-- The same on its own. -/
def execLsAtXor (gd : Guard) (src : Src) (s : State) : Host.Outcome State Fault Refusal := asStep (slotLsAtXor gd src s) s

/-- ls.at.min.s (R158). -/
def slotLsAtMinS (gd : Guard) (src : Src) : Slot := lsAtomic 4 gd src
/-- The same on its own. -/
def execLsAtMinS (gd : Guard) (src : Src) (s : State) : Host.Outcome State Fault Refusal := asStep (slotLsAtMinS gd src s) s

/-- ls.at.max.s (R158). -/
def slotLsAtMaxS (gd : Guard) (src : Src) : Slot := lsAtomic 5 gd src
/-- The same on its own. -/
def execLsAtMaxS (gd : Guard) (src : Src) (s : State) : Host.Outcome State Fault Refusal := asStep (slotLsAtMaxS gd src s) s

/-- ls.at.min.u (R158). -/
def slotLsAtMinU (gd : Guard) (src : Src) : Slot := lsAtomic 6 gd src
/-- The same on its own. -/
def execLsAtMinU (gd : Guard) (src : Src) (s : State) : Host.Outcome State Fault Refusal := asStep (slotLsAtMinU gd src s) s

/-- ls.at.max.u (R158). -/
def slotLsAtMaxU (gd : Guard) (src : Src) : Slot := lsAtomic 7 gd src
/-- The same on its own. -/
def execLsAtMaxU (gd : Guard) (src : Src) (s : State) : Host.Outcome State Fault Refusal := asStep (slotLsAtMaxU gd src s) s

/-- ls.at.xchg (R158). -/
def slotLsAtXchg (gd : Guard) (src : Src) : Slot := lsAtomic 8 gd src
/-- The same on its own. -/
def execLsAtXchg (gd : Guard) (src : Src) (s : State) : Host.Outcome State Fault Refusal := asStep (slotLsAtXchg gd src s) s

/-- ls.at.cas: o3 is the compare value and T the new one (R158). -/
def slotLsAtCas (gd : Guard) (src : Src) : Slot := 
  withPairs gd src casPair (lsAccess (.atomic 9) 4 ⟨true, true, false⟩ lsAddr3 (fun m l => m.latchW .ls .o3 l) (·.tw))
/-- The same on its own. -/
def execLsAtCas (gd : Guard) (src : Src) (s : State) : Host.Outcome State Fault Refusal := asStep (slotLsAtCas gd src s) s

/-- ls.at.fadd: an FP32 sum under RNE (R159). -/
def slotLsAtFadd (gd : Guard) (src : Src) : Slot := lsAtomic 10 gd src
/-- The same on its own. -/
def execLsAtFadd (gd : Guard) (src : Src) (s : State) : Host.Outcome State Fault Refusal := asStep (slotLsAtFadd gd src s) s

/-- ls.pf: asks for lines; never faults and never waits (R161). -/
def slotLsPf (gd : Guard) (src : Src) : Slot := withReal gd src fun m s =>
  let s := s.countPolign m.w
  .ok ((lanesOf m.real).foldl (fun s l =>
    let a := lsAddr2 m l
    match State.pfPage s m l a with
    | some p => if p.allows ⟨true, false, false⟩ m.x.ctx.sup && !p.flip then s.prefetch m.w p (p.addr a.toNat) m.x.ctx.pol else s
    | none => s) s)
/-- The same on its own. -/
def execLsPf (gd : Guard) (src : Src) (s : State) : Host.Outcome State Fault Refusal := asStep (slotLsPf gd src s) s

/-- ls.cwb: writes dirty lines back; they stay valid (R162). -/
def slotLsCwb (gd : Guard) (src : Src) : Slot := lsLineOp .cwb false gd src
/-- The same on its own. -/
def execLsCwb (gd : Guard) (src : Src) (s : State) : Host.Outcome State Fault Refusal := asStep (slotLsCwb gd src s) s

/-- ls.cinv.wb: writes dirty lines back and drops every copy (R162). -/
def slotLsCinvWb (gd : Guard) (src : Src) : Slot := lsLineOp .cinvWb false gd src
/-- The same on its own. -/
def execLsCinvWb (gd : Guard) (src : Src) (s : State) : Host.Outcome State Fault Refusal := asStep (slotLsCinvWb gd src s) s

/-- ls.cinv.dis: drops every copy; the line takes its drawer value (R162, R314). -/
def slotLsCinvDis (gd : Guard) (src : Src) : Slot := lsLineOp .cinvDis true gd src
/-- The same on its own. -/
def execLsCinvDis (gd : Guard) (src : Src) (s : State) : Host.Outcome State Fault Refusal := asStep (slotLsCinvDis gd src s) s

/-- ls.fence: completes when the older writes have performed (R166); scopes 0 to 2 are one. -/
def slotLsFence (gd : Guard) (src : Src) : Slot := withReal gd src fun m s =>
  let a := m.newAccess false (.fence ((m.tw m.low).toNat % 4)) (fun _ => 0) (fun _ => 0) (fun _ => 0)
  let (_, s) := s.enter m a
  .ok (s.fences m.w)
/-- The same on its own. -/
def execLsFence (gd : Guard) (src : Src) (s : State) : Host.Outcome State Fault Refusal := asStep (slotLsFence gd src s) s

/-- ls.pol: writes the policy word from the lowest enabled lane (R164). -/
def slotLsPol (gd : Guard) (src : Src) : Slot := withReal gd src fun m s => .ok (s.modCtx m.w fun c => { c with pol := m.tw m.low })
/-- The same on its own. -/
def execLsPol (gd : Guard) (src : Src) (s : State) : Host.Outcome State Fault Refusal := asStep (slotLsPol gd src s) s

/-- sp.ld with 1 byte(s), zero-extended (R169). -/
def slotSpLdB (gd : Guard) (src : Src) : Slot := spLoad 1 gd src
/-- The same on its own. -/
def execSpLdB (gd : Guard) (src : Src) (s : State) : Host.Outcome State Fault Refusal := asStep (slotSpLdB gd src s) s

/-- sp.ld with 2 byte(s), zero-extended (R169). -/
def slotSpLdH (gd : Guard) (src : Src) : Slot := spLoad 2 gd src
/-- The same on its own. -/
def execSpLdH (gd : Guard) (src : Src) (s : State) : Host.Outcome State Fault Refusal := asStep (slotSpLdH gd src s) s

/-- sp.ld with 4 byte(s), zero-extended (R169). -/
def slotSpLdW (gd : Guard) (src : Src) : Slot := spLoad 4 gd src
/-- The same on its own. -/
def execSpLdW (gd : Guard) (src : Src) (s : State) : Host.Outcome State Fault Refusal := asStep (slotSpLdW gd src s) s

/-- sp.st with 1 byte(s) (R169). -/
def slotSpStB (gd : Guard) (src : Src) : Slot := spStore 1 gd src
/-- The same on its own. -/
def execSpStB (gd : Guard) (src : Src) (s : State) : Host.Outcome State Fault Refusal := asStep (slotSpStB gd src s) s

/-- sp.st with 2 byte(s) (R169). -/
def slotSpStH (gd : Guard) (src : Src) : Slot := spStore 2 gd src
/-- The same on its own. -/
def execSpStH (gd : Guard) (src : Src) (s : State) : Host.Outcome State Fault Refusal := asStep (slotSpStH gd src s) s

/-- sp.st with 4 byte(s) (R169). -/
def slotSpStW (gd : Guard) (src : Src) : Slot := spStore 4 gd src
/-- The same on its own. -/
def execSpStW (gd : Guard) (src : Src) (s : State) : Host.Outcome State Fault Refusal := asStep (slotSpStW gd src s) s

/-- sp.at.add (R169). -/
def slotSpAtAdd (gd : Guard) (src : Src) : Slot := spAtomic 0 gd src
/-- The same on its own. -/
def execSpAtAdd (gd : Guard) (src : Src) (s : State) : Host.Outcome State Fault Refusal := asStep (slotSpAtAdd gd src s) s

/-- sp.at.cas: o1 is the offset, o2 the compare value, T the new one (R167, R169). -/
def slotSpAtCas (gd : Guard) (src : Src) : Slot := 
  withPairs gd src spCasPair (spAccess (.atomic 9) 4 28 spOffCas (fun m l => m.latchW .sp .o2 l) (·.tw))
/-- The same on its own. -/
def execSpAtCas (gd : Guard) (src : Src) (s : State) : Host.Outcome State Fault Refusal := asStep (slotSpAtCas gd src s) s

/-- sp.at.xchg (R169). -/
def slotSpAtXchg (gd : Guard) (src : Src) : Slot := spAtomic 8 gd src
/-- The same on its own. -/
def execSpAtXchg (gd : Guard) (src : Src) (s : State) : Host.Outcome State Fault Refusal := asStep (slotSpAtXchg gd src s) s

/-! The events of accesses. -/

/-- LOAD_BIND: wave, access, line (R155, R473). -/
def execLoadBind (s : State) : Host.Outcome State Fault Refusal := .next (s.partEvent s.loadBind)

/-- STORE_PERFORMED: wave, access, line (R282). -/
def execStorePerformed (s : State) : Host.Outcome State Fault Refusal := .next (s.partEvent s.storePerformed)

/-- ATOMIC_PERFORMED: wave, access, line (R158). -/
def execAtomicPerformed (s : State) : Host.Outcome State Fault Refusal := .next (s.partEvent s.atomicPerformed)

/-- LINE_OPERATION_PERFORMED: wave, access, line (R162). -/
def execLineOperationPerformed (s : State) : Host.Outcome State Fault Refusal := .next (s.partEvent s.storePerformed)

/-- FENCE_COMPLETE: wave, fence (R166). -/
def execFenceComplete (s : State) : Host.Outcome State Fault Refusal := .next (s.fenceComplete (s.arg 0) (s.arg 1))

/-- STORE_BUFFER_ENTRY_READY: wave, access, line (R286). -/
def execStoreBufferEntryReady (s : State) : Host.Outcome State Fault Refusal := .next (s.partEvent s.entryReady)

/-- LEASE_EXPIRY: line (R308). -/
def execLeaseExpiry (s : State) : Host.Outcome State Fault Refusal := .next (s.leaseExpiry (s.arg 0))

/-- WATCH_NOTICE: wave, line (R289). -/
def execWatchNotice (s : State) : Host.Outcome State Fault Refusal := .next (s.watchNotice (s.arg 0) (s.arg 1))

/-- HOST_GRANT: line, exclusive, die, and the access that asked (R332). -/
def execHostGrant (s : State) : Host.Outcome State Fault Refusal := .next (s.hostGrant (s.arg 0) (s.arg 1 == 1) (s.arg 2) (s.arg 3) (s.arg 4) (s.arg 5))

/-- HOST_RECALL: line (R332). -/
def execHostRecall (s : State) : Host.Outcome State Fault Refusal := .next (s.hostRecall (s.arg 0))

/-- WINDOW_COMMIT: wave (R288). -/
def execWindowCommit (s : State) : Host.Outcome State Fault Refusal := .next (s.windowCommit (s.arg 0))

/-- ROLLBACK: wave, cause (R291). -/
def execRollback (s : State) : Host.Outcome State Fault Refusal := .next (s.rollback (s.arg 0) (s.arg 1))

/-- ROLLBACK_END: the wave may issue its checkpoint bundle again (R291). -/
def execRollbackEnd (s : State) : Host.Outcome State Fault Refusal := .next (s.modWave (s.arg 0) fun x => if x.rollTill ≤ s.now then { x with rollTill := 0 } else x)

/-- ESC_DECAY: after 4,096 resident cycles without a rollback ESC and RBCNT are 0 (R297). -/
def execEscDecay (s : State) : Host.Outcome State Fault Refusal := .next (s.modWave (s.arg 0) fun x =>
  if x.escStamp = s.arg 1 ∧ x.escOver s.now then { x with ctx := (x.ctx.setWstat 1 0 0).setWstat 23 16 0, win := x.win.map fun v => { v with ckpt := (v.ckpt.setWstat 1 0 0).setWstat 23 16 0 } } else x)

/-- NO_WINDOW_PERIOD_END: windows may open again (R293). -/
def execNoWindowPeriodEnd (s : State) : Host.Outcome State Fault Refusal := .next (s.modWave (s.arg 0) fun x => { x with noWin := 0 })

end Sys2Proof.Machine
end

