-- ==== Sys2Proof/Machine/Queue.lean ====
section
/-! DEFINITION. Queues: descriptors and their cached contexts, the queue controllers, records and their decoding, head latches,
and the operations of qu (R203 to R220), with MSI-X signalling (R413). -/
namespace Sys2Proof.Machine

/-! Contexts (R205). -/

def QCtx.size (c : QCtx) : Nat := 2 ^ wfield c.ctl 4 0
def QCtx.slotSize (c : QCtx) : Nat := 16 * (wfield c.ctl 6 5 + 1)
def QCtx.ts (c : QCtx) : Bool := c.ctl.getLsbD 7
def QCtx.valid (c : QCtx) : Bool := c.ctl.getLsbD 8
def QCtx.owner (c : QCtx) : Nat := wfield c.ctl 12 9
def QCtx.gen (c : QCtx) : Nat := wfield c.ctl 24 13
def QCtx.home (c : QCtx) : Nat := wfield c.ctl 26 25
/-- The handle that names the queue as it stands. -/
def QCtx.handle (c : QCtx) : Dword := BitVec.ofNat 64 (c.index + c.gen * 2 ^ 20 + c.home * 2 ^ 32 + c.part * 2 ^ 34)
/-- Visible entries. -/
def QCtx.visible (c : QCtx) : Nat := (c.tail - c.head).toNat
/-- Virtual address of an entry's slot (R205). -/
def QCtx.slotAddr (c : QCtx) (i : Word) : Nat := c.ring.toNat + i.toNat % c.size * c.slotSize

/-- Key of a context in its controller. -/
def qkey (part idx : Nat) : Nat := part * 2 ^ 20 + idx

/-- Virtual address of a descriptor. -/
def State.descAddr (s : State) (part idx : Nat) : Nat := (s.part part).qtbase.toNat + 64 * idx

/-- A word of a byte list. -/
def wordAt (b : List (BitVec 8)) (k : Nat) : Word := BitVec.ofNat 32 (ofBytes ((b.drop k).take 4))

/-- A descriptor as memory holds it (R205). -/
def State.readDesc (s : State) (die part idx : Nat) : Option QCtx :=
  (s.devRead die part (s.descAddr part idx) 64).map fun b =>
    { part := part, index := idx, ring := BitVec.ofNat 64 (ofBytes (b.take 8)), head := wordAt b 8, tail := wordAt b 12, claim := wordAt b 16,
      pmap := wordAt b 20, ctl := wordAt b 24, allow := (wordAt b 28).setWidth 16, dbase := (List.range 8).map fun k => wordAt b (32 + 4 * k), used := s.now }

/-- A write by a device of its own, which may be made (`devReady`): the copies of each line are invalidated, the die is their holder, and the bytes are
written (R289, R310, R471). -/
def State.devStore (s : State) (die part va : Nat) (bytes : List (BitVec 8)) : State :=
  let starts := (List.range bytes.length).filter fun k => k = 0 ∨ (va + k) % 128 = 0
  let s := starts.foldl (fun s k => match State.devAddr s die part (va + k) true with
    | some pa => s.writePlace die (match s.scratchAt pa with | some (t, o) => .scratch t (o / 128) | none => .mem (pa / 128)) none
    | none => s) s
  s.devWrite die part va bytes

/-- Writes a context back to its descriptor: the controller's fields (R205, R206). -/
def State.writeDesc (s : State) (die : Nat) (c : QCtx) : State :=
  let a := s.descAddr c.part c.index
  let s := s.devStore die c.part (a + 8) ([c.head, c.tail, c.claim, c.pmap, c.ctl].flatMap fun w => toBytes 4 w.toNat)
  s.devStore die c.part (a + 32) (c.dbase.flatMap fun w => toBytes 4 w.toNat)

/-- Keeps a context in a die's controller, the one whose last operation is oldest making room (R206). -/
def State.keepQ (s : State) (die : Nat) (c : QCtx) : State :=
  let c := { c with used := s.now }
  let m := Map.put (s.die die).qctx (qkey c.part c.index) c
  if m.length ≤ 1024 then s.modDie die fun d => { d with qctx := m }
  else
    let old := m.foldl (fun (b : QCtx) (_, x) => if x.used < b.used then x else b) c
    (s.modDie die fun d => { d with qctx := Map.erase m (qkey old.part old.index) }).writeDesc die old

/-- The context whose write-back makes room for one that a full controller is to keep (R206). -/
def State.oldestQ (s : State) (die : Nat) (c : QCtx) : Option QCtx :=
  let m := (s.die die).qctx
  if 1024 ≤ m.length ∧ (Map.find? m (qkey c.part c.index)).isNone then
    m.foldl (fun (b : Option QCtx) (_, x) => match b with | some y => if x.used < y.used then some x else b | none => some x) none
  else none

/-- Whether a context may be kept now: cycles until its controller looks again, while a write-back that makes room for it must wait (R206, R282). -/
def State.keepReady (s : State) (die : Nat) (c : QCtx) : Nat × State :=
  match s.oldestQ die c with
  | some x => s.devReady die x.part (s.descAddr x.part x.index + 8) 56
  | none => (0, s)

/-- Whether the descriptors that a flush writes back may be written now: cycles until it looks again (R206, R282). -/
def State.flushReady (s : State) (die : Nat) (part : Option Nat) : Nat × State :=
  (s.die die).qctx.foldl (fun ((d, s) : Nat × State) (_, c) =>
    if part.isNone || part == some c.part then
      let (e, s) := s.devReady die c.part (s.descAddr c.part c.index + 8) 56
      (max d e, s)
    else (d, s)) (0, s)

/-- Drops a context from a controller. -/
def State.dropQ (s : State) (die : Nat) (c : QCtx) : State :=
  s.modDie die fun d => { d with qctx := Map.erase d.qctx (qkey c.part c.index) }

/-- Writes back and drops the contexts a die caches, of one partition or of all (R206). -/
def State.flushQ (s : State) (die : Nat) (part : Option Nat) : State :=
  (s.die die).qctx.foldl (fun s (_, c) => if part.isNone || part == some c.part then (State.writeDesc s die c).dropQ die c else s) s

/-! Records (R210, R216). -/

/-- A stored form: field mask, and words. -/
def formOf (bytes : List (BitVec 8)) : Nat × List Word :=
  (wfield (wordAt bytes 0) 7 0, (List.range 8).map fun k => wordAt bytes (4 + 4 * k))

def popCount8 (n : Nat) : Nat := ((List.range 8).filter fun k => n / 2 ^ k % 2 = 1).length

/-- Whether a stored form is valid in a queue (R210). -/
def QCtx.formOk (c : QCtx) (fm : Nat) : Bool :=
  decide (4 + 4 * popCount8 fm + (if c.ts then 8 else 0) ≤ c.slotSize) && !(c.ts && decide (fm / 64 % 4 ≠ 0))

/-- The full record after `prev` of a slot's bytes (R216). -/
def QCtx.decode (c : QCtx) (prev : QRec) (bytes : List (BitVec 8)) : QRec :=
  let (fm, ws) := formOf bytes
  let (r, _) := (List.range 8).foldl (fun ((r, n) : QRec × Nat) f =>
    if fm / 2 ^ f % 2 = 1 then (r ++ [ws.getD n 0], n + 1) else (r ++ [prev.getD f 0], n)) ([], 0)
  if c.ts then r.take 6 ++ [wordAt bytes (c.slotSize - 8), wordAt bytes (c.slotSize - 4)] else r

/-- The full records of `n` entries from HEAD. A slot that is no longer mapped delivers free words (R471). (DESIGN CHOICE, log 84) -/
def State.recordsOf (s : State) (die : Nat) (c : QCtx) (n : Nat) : List QRec × State :=
  let (recs, _, lost) := (List.range n).foldl (fun ((recs, prev, lost) : List QRec × QRec × Bool) k =>
    match s.devRead die c.part (c.slotAddr (c.head + BitVec.ofNat 32 k)) c.slotSize with
    | some b => let r := c.decode prev b; (recs ++ [r], r, lost)
    | none => let r := (List.range 8).map fun f => Config.freeWord (s.free + 8 * k + f); (recs ++ [r], r, true)) ([], c.dbase, false)
  (recs, if lost then { s with free := s.free + 8 * n } else s)

/-! Interrupts (R413). -/

/-- Whether an MSI-X vector is masked; a vector's control word reads 1 until it is written. (PRESUMED, log 42) -/
def State.msixMask (s : State) (v : Nat) : Bool := s.msixMasked || (Map.get 0x100000000#64 s.msix (2 * v + 1)).getLsbD 32

/-- Signals an MSI-X entry: the interrupt is sent, or its pending bit set. -/
def State.msixSignal (s : State) (v : Nat) : State :=
  if s.msixMask v then { s with msixPend := if s.msixPend.contains v then s.msixPend else s.msixPend ++ [v] }
  else { s with sent := v :: s.sent }

/-- A queue goes from empty to non-empty: the entries bound to its handle are signalled. -/
def State.queueFilled (s : State) (h : Dword) : State :=
  (List.range 16).foldl (fun s p => (List.range 31).foldl (fun s v =>
    let b := Map.get 0 (State.part s p).intbind v
    if b != 0 && b == h then s.msixSignal (32 * p + v) else s) s) s

/-- A completion record is lost (R343, R413). (DEDUCED, log 27) -/
def State.lostCompletion (s : State) (p : Nat) : State := (s.modPart p fun k => { k with lostcq := k.lostcq + 1 }).msixSignal (32 * p + 31)

/-! Publishing (R213), refills (R218). -/

/-- A bound latch will receive the records that are visible and within reach of HEAD now (R218, R220). -/
def State.refillSoon (s : State) (c : QCtx) : State :=
  s.bound.foldl (fun s (p, i, w, k) =>
    if p = c.part ∧ i = c.index then s.after (60 + 360 * ringDist c.home (dieOf w)) .latchRefill [w, k, c.tail.toNat, p, i, c.head.toNat] else s) s

/-- Marks entries `i` to `i + n - 1` published and moves TAIL over what has become visible, stamping it (R213, R219). -/
def State.publish (s : State) (die : Nat) (c : QCtx) (i : Word) (n : Nat) : QCtx × State :=
  let d := (i - c.tail).toNat
  let c0 := c
  let c := { c with pmap := c.pmap ||| BitVec.ofNat 32 ((2 ^ n - 1) * 2 ^ d) }
  let (c, s) := (List.range 32).foldl (fun ((c, s) : QCtx × State) _ =>
    if c.pmap.getLsbD 0 then
      let s := if c.ts then s.devStore die c.part (c.slotAddr c.tail + c.slotSize - 8) (toBytes 8 s.time.toNat) else s
      ({ c with tail := c.tail + 1, pmap := c.pmap >>> 1 }, s)
    else (c, s)) (c, s)
  let s := if c0.tail = c0.head ∧ c.tail ≠ c.head then s.queueFilled c.handle else s
  let s := if c.tail = c0.tail then s else s.refillSoon c
  (c, s)

/-- A blank queue operation. -/
def QuOp.blank : QuOp :=
  { kind := .avail, wave := none, lanes := 0, handle := 0, part := 0, count := 0, arg := 0, forms := [], op := 0, unit := .qu, res := 0, st := 0,
    dist := 0, pos := 0, recs := [], launch := none, cmd := none, door := false, peer := none }

/-- A bound head latch asks its controller for the records from HEAD on, as a bind does (R231): it names no lane, and writes no port. Until the answer
comes the latch holds none, so that none is popped meanwhile. (DEDUCED, log 76) -/
def State.rebind (s : State) (w k : Nat) : State :=
  let x := s.wave w
  let h := x.ctx.head k
  if !h.bound || h.stale then s else
  let n := x.nextOp
  let put (c : Ctx) : Ctx := let g := c.head k; if g.bound && g.handle == h.handle then c.setHead k { g with recs := [], wait := n } else c
  let s := s.setWave w { x.mapCtx put with nextOp := n + 1 }
  let (id, s) := s.fresh
  let hops := ringDist (dieOf w) (handleHome h.handle)
  (s.setQop id { QuOp.blank with kind := if h.spread then .bindS else .bindU, wave := some w, handle := h.handle, part := x.part, arg := k, unit := .ls,
                                 dist := hops, op := n }).after (30 + 180 * hops) .queueControllerOp [id, 0]

/-- The number of records a refill brings to a latch at position `pos`: those that were visible, and within 32 of HEAD, when it was caused (R218). -/
def refillCount (tail head pos : Word) : Nat := min 32 (tail - head).toNat - (pos - head).toNat

/-- LATCH_REFILL: a bound latch takes the records that were visible and within reach when the refill was caused, as their slots hold them now (R218).
(DEDUCED, log 89) -/
def State.latchRefill (s : State) (w k tail p idx head : Nat) : State :=
  match s.wave? w with
  | none => s
  | some x =>
    let h := x.ctx.head k
    let n := refillCount (BitVec.ofNat 32 tail) (BitVec.ofNat 32 head) h.pos
    if !s.bound.contains (p, idx, w, k) || h.wait != 0 || decide (n ≤ h.recs.length) then s else
    let d := handleHome h.handle
    match (Map.find? (s.die d).qctx (qkey p idx)).orElse fun _ => s.readDesc d p idx with
    | none => s
    | some c =>
      let skip := (h.pos - c.head).toNat
      if 32 < skip then s
      else
        let (recs, s) := s.recordsOf d c (skip + n)
        let put (c : Ctx) : Ctx := let g := c.head k; if g.bound && g.handle == h.handle && g.pos == h.pos then c.setHead k { g with recs := recs.drop skip } else c
        s.modWave w (·.mapCtx put)

/-! The controller (R208, R220). -/

/-- Whether a die's queues answer OFFLINE: it has failed, or has left step 3 of a warm reset behind (R417, R231). -/
def State.queuesOffline (s : State) (d : Nat) : Bool :=
  let k := s.die d
  k.failed || (match k.state with | .run => false | .quiescing => decide (4 ≤ k.phase) | _ => true)

/-- An operation of a wave is performed (R282): it has been carried out at its controller, or a peer has answered it. -/
def State.quPerformed (s : State) (o : QuOp) : State :=
  let counted : Bool := match o.kind with | .avail => false | .device => false | _ => o.unit == .qu || o.unit == .ct
  match o.wave with
  | some w => if counted then s.modWave w fun x => { x with quOut := x.quOut.filter (· != o.op) } else s
  | none => s

/-- The answer sets off for the issuer (R220). -/
def State.quAnswer (s : State) (id : Nat) (o : QuOp) (st : Nat) (res : Word) : State :=
  let s := s.quPerformed o
  if o.kind = .pop then { s with qops := Map.erase s.qops id }
  else (s.setQop id { o with res := res, st := BitVec.ofNat 32 st }).after (30 + 180 * o.dist) .queueAnswer [id]

/-- The partition whose queue table an operation names. -/
def QuOp.table (o : QuOp) : Nat := match o.kind with | .create => o.part | _ => handlePart o.handle
/-- The die whose controller carries an operation out. -/
def QuOp.home (o : QuOp) : Nat := match o.kind with | .create => o.arg / 2 ^ 20 % 4 | _ => handleHome o.handle
def QuOp.index (o : QuOp) : Nat := match o.kind with | .create => o.arg % 2 ^ 20 | _ => handleIdx o.handle

/-- The right an operation needs (R209). -/
def QCtx.permits (c : QCtx) (o : QuOp) : Bool :=
  match o.kind with
  | .bindU | .bindS | .destroy => c.owner == o.part
  | _ => c.owner == o.part || c.allow.getLsbD o.part

/-- The partition whose launch queue a queue is: one of its own (R338). -/
def State.isLaunchQueue (s : State) (c : QCtx) : Option Nat := if (s.part c.part).lqh == c.handle then some c.part else none

/-- Puts the acceptance of the next launch entry on the agenda (R339). -/
def State.launchSoon (s : State) (c : QCtx) : State :=
  match s.isLaunchQueue c with
  | some p => if (s.part p).accepting || c.visible = 0 then s else (s.modPart p fun k => { k with accepting := true }).after 0 .launchAccept [p, 0]
  | none => s

/-- enq and the device's own enqueues, on a context that passed the tests (R211). -/
def State.doEnq (s : State) (id : Nat) (o : QuOp) (d : Nat) (c : QCtx) : State :=
  let forms : List (List Word) := match o.kind with
    | .device => o.forms.map fun r => if c.ts then 0x3F#32 :: r.take 6 else 0xFF#32 :: r
    | _ => o.forms
  let n := forms.length
  if forms.any fun f => !c.formOk (wfield (f.getD 0 0) 7 0) then (s.keepQ d c).quAnswer id o 4 0
  else if c.size < ((c.claim - c.head) + BitVec.ofNat 32 n).toNat || 32 < ((c.claim - c.tail) + BitVec.ofNat 32 n).toNat then (s.keepQ d c).quAnswer id o 2 0
  else
    let i := c.claim
    let c := { c with claim := i + BitVec.ofNat 32 n }
    let s := forms.zipIdx.foldl (fun s (f, k) =>
      State.devStore s d c.part (c.slotAddr (i + BitVec.ofNat 32 k)) (f.zipIdx.flatMap fun (w, j) => if j = 0 then toBytes 1 w.toNat ++ [0, 0, 0] else toBytes 4 w.toNat)) s
    let (c, s) := s.publish d c i n
    ((s.keepQ d c).launchSoon c).quAnswer id o 0 i

/-- The ring of a queue to be created translates readable and writable (R471). -/
def State.ringOk (s : State) (d : Nat) (c : QCtx) : Bool :=
  s.devOk d c.part c.ring.toNat (c.size * c.slotSize) false && s.devOk d c.part c.ring.toNat (c.size * c.slotSize) true

/-- An operation that passed the tests of R208, by kind. -/
def State.doQueue (s : State) (id : Nat) (o : QuOp) (d : Nat) (c : QCtx) : State :=
  match o.kind with
  | .enq | .device => s.doEnq id o d c
  | .claim =>
    if c.size < ((c.claim - c.head) + BitVec.ofNat 32 o.count).toNat || 32 < ((c.claim - c.tail) + BitVec.ofNat 32 o.count).toNat then
      (s.keepQ d c).quAnswer id o 2 0
    else (s.keepQ d { c with claim := c.claim + BitVec.ofNat 32 o.count }).quAnswer id o 0 c.claim
  | .pub =>
    let i := BitVec.ofNat 32 o.arg
    let off := (i - c.tail).toNat
    let form (k : Nat) : Bool := match s.devRead d c.part (c.slotAddr (i + BitVec.ofNat 32 k)) 4 with
      | some b => c.formOk (formOf b).1
      | none => true
    if (c.claim - c.tail).toNat < off + o.count || (List.range o.count).any fun k => c.pmap.getLsbD (off + k) then (s.keepQ d c).quAnswer id o 4 0
    else if (List.range o.count).any fun k => !form k then (s.keepQ d c).quAnswer id o 4 0
    else
      let (c, s) := s.publish d c i o.count
      ((s.keepQ d c).launchSoon c).quAnswer id o 0 c.tail
  | .avail => (s.keepQ d c).quAnswer id o (if c.visible = 0 then 1 else 0) (BitVec.ofNat 32 c.visible)
  | .bindU | .bindS =>
    let w := o.wave.getD 0
    if o.wave.isNone || (s.isLaunchQueue c).isSome || s.bound.any fun ((p, i, v, k) : Nat × Nat × Nat × Nat) => p == c.part && i == c.index && !(v == w && k == o.arg) then
      (s.keepQ d c).quAnswer id o 4 0
    else
      let (recs, s) := s.recordsOf d c (min 32 c.visible)
      let s := { s with bound := (s.bound.filter fun ((_, _, v, k) : Nat × Nat × Nat × Nat) => !(v == w && k == o.arg)) ++ [(c.part, c.index, w, o.arg)] }
      (s.keepQ d c).quAnswer id { o with pos := c.head, recs := recs } 0 (BitVec.ofNat 32 c.visible)
  | .destroy =>
    let c := { c with ctl := setField (setField c.ctl 24 13 (c.gen + 1)) 8 8 0 }
    let stale := s.bound.filter fun ((p, i, _, _) : Nat × Nat × Nat × Nat) => p == c.part && i == c.index
    let s := stale.foldl (fun s (_, _, w, k) => State.modWave s w (·.mapCtx fun x =>
      let h := x.head k
      if h.bound && handleIdx h.handle = c.index && handlePart h.handle = c.part then x.setHead k { h with stale := true, recs := [] } else x)) s
    let s := { s with bound := s.bound.filter fun ((p, i, _, _) : Nat × Nat × Nat × Nat) => !(p == c.part && i == c.index) }
    ((s.writeDesc d c).dropQ d c).quAnswer id o 0 (BitVec.ofNat 32 c.gen)
  | .create =>
    let raw := s.devRead d o.part (s.descAddr o.part o.index) 64
    let reserved := match raw with | some b => decide (ofBytes ((b.drop 30).take 2) ≠ 0) | none => true
    let l := wfield c.ctl 4 0
    if c.valid || l = 0 || 20 < l || c.ring.toNat % 128 != 0 || wfield c.ctl 31 27 != 0 || reserved || !s.ringOk d c then s.quAnswer id o 4 0
    else
      let c := { c with head := 0, tail := 0, claim := 0, pmap := 0, ctl := setField (setField (setField c.ctl 12 9 o.part) 26 25 (o.arg / 2 ^ 20 % 4)) 8 8 1 }
      (s.keepQ d c).quAnswer id o 0 (BitVec.ofNat 32 (c.index + c.gen * 2 ^ 20))
  | .pop =>
    let (recs, s) := s.recordsOf d c o.count
    let c := { c with head := c.head + BitVec.ofNat 32 o.count, dbase := recs.getLast?.getD c.dbase }
    ((s.keepQ d c).refillSoon c).quAnswer id o 0 0

/-- The stretches of memory that an operation writes, and those that it reads: slots, and descriptors that it writes back (R205, R206). -/
def State.opWrites (s : State) (o : QuOp) (d : Nat) (c : QCtx) : List (Nat × Nat × Nat) :=
  let slots (i : Word) (n : Nat) : List (Nat × Nat × Nat) := (List.range n).map fun k => (c.part, c.slotAddr (i + BitVec.ofNat 32 k), c.slotSize)
  let desc (x : QCtx) : Nat × Nat × Nat := (x.part, s.descAddr x.part x.index + 8, 56)
  (match o.kind with
   | .enq | .device => slots c.tail ((c.claim - c.tail).toNat % 64 + o.forms.length)
   | .pub => if c.ts then slots c.tail ((c.claim - c.tail).toNat % 64) else []
   | .destroy => [desc c]
   | _ => []) ++ ((s.oldestQ d c).map desc).toList
def State.opReads (o : QuOp) (c : QCtx) : List (Nat × Nat × Nat) :=
  let n := match o.kind with | .pop => o.count | .bindU | .bindS => min 32 c.visible | _ => 0
  (List.range n).map fun k => (c.part, c.slotAddr (c.head + BitVec.ofNat 32 k), c.slotSize)

/-- Cycles until an operation's writes may be made, and its reads are not held by a change of bias (R282, R334). -/
def State.opReady (s : State) (o : QuOp) (d : Nat) (c : QCtx) : Nat × State :=
  let flip := (State.opReads o c).any fun (p, a, n) => s.devFlips d p a n
  (s.opWrites o d c).foldl (fun (r : Nat × State) (p, a, n) =>
    let (e, s) := r.2.devReady d p a n
    (max r.1 e, s)) (if flip then 1 else 0, s)

/-- Carries an operation out once its slots are at hand and its writes may be made; `stage` 3 says that it has waited for the former (R472).
(DEDUCED, log 105) -/
def State.startQueue (s : State) (id : Nat) (o : QuOp) (d : Nat) (c : QCtx) (stage : Nat) : State :=
  let of (mode : Nat) (l : List (Nat × Nat × Nat)) : List (Nat × Nat × Nat × Nat) := l.map fun (p, a, n) => (p, a, n, mode)
  match (if stage = 3 then (true, s) else s.devTask d (of 1 (State.opReads o c) ++ of 0 (s.opWrites o d c)) .queueControllerOp [id, 3]) with
  | (false, s) => s
  | (true, s) => match s.opReady o d c with
    | (t + 1, s) => s.after (t + 1) .queueControllerOp [id, 3]
    | (0, s) => s.doQueue id o d c

/-- The tests of R208 on a context, and the operation. One that is answered STALE or DENIED here is not the context's last operation, and keeps no
context that was read for it (R206). (DESIGN CHOICE, log 114) -/
def State.testQueue (s : State) (id : Nat) (o : QuOp) (d : Nat) (c : QCtx) (stage : Nat) : State :=
  if o.kind = .create then s.startQueue id o d c stage
  else if !c.valid || c.gen != handleGen o.handle then s.quAnswer id o 3 0
  else if c.home != d || !c.permits o || handleRem o.handle then s.quAnswer id o 4 0
  else s.startQueue id o d c stage

/-- The context of a queue that exists and that another die's controller caches: what its descriptor holds now (R206, R208). (DEDUCED, log 40) -/
def State.otherQ (s : State) (d p idx : Nat) : Option QCtx :=
  ((List.range 4).filterMap fun k => if k = d then none else (Map.find? (s.die k).qctx (qkey p idx)).filter (·.valid)).head?

/-- A create forgets the contexts that controllers keep of a destroyed queue: it reads the descriptor afresh (R215). -/
def State.dropOld (s : State) (p : Nat) (o : QuOp) : State :=
  if o.kind = .create ∧ (List.range 4).all (fun k => ((Map.find? (s.die k).qctx (qkey p o.index)).map (·.valid)).getD false = false) then
    (List.range 4).foldl (fun s k => State.modDie s k fun x => { x with qctx := Map.erase x.qctx (qkey p o.index) }) s
  else s

/-- Whether an operation that has reached its controller must wait there: for older memory operations of its wave, which stand in earlier slots of its
bundle, or, where it asks anew for a latch's records, for the wave's pops of that queue (R231, R278, R298, R302). -/
def State.quWaits (s : State) (o : QuOp) : Bool :=
  match o.wave.bind s.wave? with
  | none => false
  | some x =>
    if o.unit = .ls then s.qops.any fun (_, v) => v.kind == .pop && v.wave == o.wave && v.handle == o.handle
    else o.kind != .avail && x.mustWait o.op

/-- QUEUE_CONTROLLER_OP: an operation reaches its controller, is tested in the order of R208 and carried out. A context that is
not cached is read first (R206, R220); a `stage` beyond 0 says that it has been. (DEDUCED, log 39) -/
def State.queueController (s : State) (id stage : Nat) : State :=
  match s.qop? id with
  | none => s
  | some o =>
    let d := o.home
    let p := o.table
    if s.quWaits o then s.after 1 .queueControllerOp [id, stage]
    else if s.queuesOffline d then s.quAnswer id o 5 0
    else if (s.part p).qtlen.toNat ≤ o.index then s.quAnswer id o 4 0
    else
      let read (s : State) : State :=
        match (s.otherQ d p o.index).orElse fun _ => s.readDesc d p o.index with
        | none => s.quAnswer id o 4 0
        | some c => (s.dropOld p o).testQueue id o d c stage
      match (Map.find? (s.die d).qctx (qkey p o.index)).filter fun c => o.kind != .create || c.valid with
      | some c => s.testQueue id o d c stage
      | none =>
        if stage = 0 then
          match s.devTask d [(p, s.descAddr p o.index, 64, 2)] .queueControllerOp [id, 1] with
          | (true, s) => read s
          | (false, s) => s
        else read s

/-! Packets to peers (R404). -/

/-- A packet for a package is made; it goes to the peer link of its number (R404). (DEDUCED, log 28) -/
def State.sendPacket (s : State) (die pkg : Nat) (p : Packet) : State :=
  let (n, s) := s.fresh
  { s with packets := Map.put s.packets n { p with pkg := pkg, link := 72 * die + 64 + pkg % 8 } }.after 0 .peerPacket [0, n]

/-- The answer to a peer's packet goes back on the peer link of its package (R404). -/
def State.sendReply (s : State) (die pkg tag code size data : Nat) : State :=
  s.sendPacket die pkg { pkg := 0, op := none, cmd := none, link := 0, args := [tag, code, data], size := size, reply := true }

/-- The answer to a peer's enqueue goes back to it (R404). -/
def State.peerReply (s : State) (o : QuOp) : State :=
  match o.peer with
  | some (die, pkg, tag) => s.sendReply die pkg tag o.st.toNat 0 o.res.toNat
  | none => s

/-- What a device's own enqueue leads to (R228, R338, R343). -/
def State.deviceAnswer (s : State) (o : QuOp) : State :=
  let st := o.st.toNat
  let s := match o.launch with
    | some l =>
      if st = 0 then { s with launches := Map.erase s.launches l }
      else if (s.die (((s.launch? l).map (·.die)).getD 0)).failed then { s with launches := Map.erase s.launches l }.lostCompletion o.part
      else if st = 2 || (st = 5 && !handleRem o.handle && !(s.die (handleHome o.handle)).failed) then s.after 4096 .completionRetry [l]
      else { s with launches := Map.erase s.launches l }.lostCompletion o.part
    | none => s
  let lost (tag : Word) (x : Wave) : Wave := { x with cmds := x.cmds.map fun (t, c, d) => (t, c, if t = tag then d ||| 256 else d) }
  let s := match o.cmd with
    | some (w, tag) => if st = 0 then s
      else if w < awayBase then s.modWave w (lost tag)
      else s.modTeam ((w - awayBase) / 16) fun t => { t with saved := t.saved.map fun (i, x) => (i, if i = (w - awayBase) % 16 then lost tag x else x) }
    | none => s
  if o.door then { s with answers := st :: s.answers } else s

def QuOp.isBind (o : QuOp) : Bool := match o.kind with | .bindU => true | .bindS => true | _ => false

/-- The answer to a bind reaches its latch, if the latch still awaits it: the records it holds now, or, of a bind that was refused, no binding
(R217). A latch that a destroy has made stale stays so (R219); one that asked again for its records and whose queue is gone becomes so. -/
def Ctx.bindAnswer (c : Ctx) (o : QuOp) : Ctx :=
  let g := c.head o.arg
  if !g.bound || g.handle != o.handle || g.wait != o.op then c
  else if g.stale then c.setHead o.arg { g with wait := 0 }
  else if o.st = 0 then c.setHead o.arg { g with pos := o.pos, recs := o.recs, wait := 0 }
  else if o.lanes = 0 then c.setHead o.arg { g with stale := o.st == 3, wait := 0 }
  else c.setHead o.arg { g with bound := false, recs := [], wait := 0 }

/-- QUEUE_ANSWER: a controller's answer reaches the issuer: ports, and for a bind the latch (R217, R220). -/
def State.queueAnswer (s : State) (id : Nat) : State :=
  match s.qop? id with
  | none => s
  | some o =>
    let s := { s with qops := Map.erase s.qops id }
    let s := (s.deviceAnswer o).peerReply o
    match o.wave with
    | none => s
    | some w => match s.wave? w with
      | none => s
      | some x =>
        let st : Word := if o.unit = .ct then (match o.st.toNat with | 0 => 0 | 2 => 2 | 5 => 5 | _ => 4) else o.st
        let x := x.mapCtx (·.deliver o.op (x.pending o.unit [.res, .st] o.lanes fun l => ⟨if o.unit = .ct then x.ctx.port .ct .res l else o.res, 0, st⟩))
        s.setWave w (if o.isBind then x.mapCtx (·.bindAnswer o) else x)

/-! The triggers. -/

/-- The handle in the latches (R204). -/
def MoveIn.handle (m : MoveIn) : Dword := joinWords (m.latchW .qu .o2 m.low) (m.latchW .qu .o1 m.low)

/-- A QUEUE trap (R208). -/
def MoveIn.queueTrap (m : MoveIn) : SlotRes := m.trap 0x12 m.real 0

/-- Sends an operation to its controller, `extra` cycles later than the figure of R220. A remote enqueue, a wave's or a record of the device's own,
leaves on a peer link (R210, R211, R301, R404): its answer comes from there, or the time-out of R405; it is refused while peers are not accepted (R422).
Every other operation that names a peer is refused by the controller of its HOME (R208). -/
def State.sendQueue (s : State) (from_ : Nat) (o : QuOp) (extra : Nat) : State :=
  let (id, s) := s.fresh
  let h := ringDist from_ o.home
  let s := s.setQop id { o with dist := h }
  if handleRem o.handle && (o.kind == .enq || o.kind == .device) then
    if s.featack.getLsbD 5 then
      let pkg := handlePkg o.handle
      let p : Packet := { pkg := pkg, op := some id, cmd := none, link := 72 * from_ + 64 + pkg % 8, args := [], size := (o.forms.map (4 * ·.length)).foldl (· + ·) 0,
                          due := 1460 + extra + 360 * ringDist (pkg % 4) o.home }
      { s with packets := Map.put s.packets id p }.after 0 .peerPacket [0, id]
    else s.after (30 + 180 * h + extra) .queueControllerOp [id, 2]
  else s.after (30 + 180 * h + extra) .queueControllerOp [id, 0]

/-- A qu operation of a wave. -/
def quOp (m : MoveIn) (o : QuOp) (s : State) : SlotRes :=
  let x := s.wave m.w
  let k := x.nextOp
  let x := x.begin .qu [.res, .st] m.en
  let x := { x with quOut := if o.kind = .avail then x.quOut else x.quOut ++ [k] }
  .ok ((s.setWave m.w x).sendQueue (dieOf m.w) { o with wave := some m.w, lanes := m.en, part := m.x.part, op := k } (if o.kind = .enq then 2 * (o.forms.length - 1) else 0))

/-- A handle and count check (R208). -/
def MoveIn.badHandle (m : MoveIn) : Bool := dfield m.handle 63 49 != 0
def countBad (n : Nat) : Bool := n == 0 || decide (32 < n)

/-- The stored forms of an enq in the scratchpad, and the offset after them (R211). -/
def State.formsAt (s : State) (team : Nat) (n off : Nat) : List (List Word) × Nat :=
  (List.range n).foldl (fun ((fs, o) : List (List Word) × Nat) _ =>
    let fm := BitVec.ofNat 32 (s.scrRead team o 4)
    let c := popCount8 (wfield fm 7 0)
    (fs ++ [fm :: (List.range c).map fun k => BitVec.ofNat 32 (s.scrRead team (o + 4 + 4 * k) 4)], o + 4 + 4 * c)) ([], off)

/-- qu.enq (R211): copies `n` stored forms from the scratchpad and enqueues them. Of several failed checks the first in the list of R208 gives
the trap, so QUEUE before SCRATCH_BOUNDS and MISALIGNED. (DESIGN CHOICE, log 102) -/
def slotQuEnq (gd : Guard) (src : Src) : Slot := withReal gd src fun m s =>
  let n := (m.tw m.low).toNat
  let off := (m.latchW .qu .o3 m.low).toNat
  if m.badHandle || countBad n then m.queueTrap
  else
    let (forms, fin) := s.formsAt m.x.team n off
    if s.scratchOf m < fin then m.trap 0x07 m.real (BitVec.ofNat 64 off)
    else if off % 4 != 0 then m.trap 0x06 m.real (BitVec.ofNat 64 off)
    else quOp m { QuOp.blank with kind := .enq, handle := m.handle, count := n, forms := forms } s
/-- QU_ENQ. -/
def execQuEnq (gd : Guard) (src : Src) (s : State) : Host.Outcome State Fault Refusal := asStep (slotQuEnq gd src s) s

/-- qu.claim (R212). -/
def slotQuClaim (gd : Guard) (src : Src) : Slot := withReal gd src fun m s =>
  let n := (m.tw m.low).toNat
  if m.badHandle || countBad n then m.queueTrap else quOp m { QuOp.blank with kind := .claim, handle := m.handle, count := n } s
/-- QU_CLAIM. -/
def execQuClaim (gd : Guard) (src : Src) (s : State) : Host.Outcome State Fault Refusal := asStep (slotQuClaim gd src s) s

/-- qu.pub (R213): o3 is the count, T the first index. -/
def slotQuPub (gd : Guard) (src : Src) : Slot := withReal gd src fun m s =>
  let n := (m.latchW .qu .o3 m.low).toNat
  if m.badHandle || countBad n then m.queueTrap
  else quOp m { QuOp.blank with kind := .pub, handle := m.handle, count := n, arg := (m.tw m.low).toNat } s
/-- QU_PUB. -/
def execQuPub (gd : Guard) (src : Src) (s : State) : Host.Outcome State Fault Refusal := asStep (slotQuPub gd src s) s

/-- A latch of a wave is bound no more: its bound bit and its records go (R217). -/
def State.unbindLatch (s : State) (w k : Nat) : State :=
  { s with bound := s.bound.filter fun ((_, _, v, j) : Nat × Nat × Nat × Nat) => !(v == w && j == k) }.modCtx w fun c =>
    c.setHead k { c.head k with bound := false, stale := false, recs := [], wait := 0 }

/-- A bind to latch T[1:0] (R217): a latch already bound is unbound first; it records the handle and the mode, and its reads wait for the
records that the answer brings. (DEDUCED, log 104) -/
def quBind (kind : QuKind) (gd : Guard) (src : Src) : Slot := withReal gd src fun m s =>
  let k := (m.tw m.low).toNat % 4
  let h : Head := { handle := m.handle, spread := kind == .bindS, bound := true, stale := false, pos := 0, recs := [], wait := (s.wave m.w).nextOp }
  if m.badHandle then m.queueTrap
  else quOp m { QuOp.blank with kind := kind, handle := m.handle, arg := k } ((s.unbindLatch m.w k).modCtx m.w (·.setHead k h))

/-- qu.bind.u: uniform mode (R217). -/
def slotQuBindU (gd : Guard) (src : Src) : Slot := quBind .bindU gd src
/-- QU_BIND_U. -/
def execQuBindU (gd : Guard) (src : Src) (s : State) : Host.Outcome State Fault Refusal := asStep (slotQuBindU gd src s) s

/-- qu.bind.s: spread mode (R217). -/
def slotQuBindS (gd : Guard) (src : Src) : Slot := quBind .bindS gd src
/-- QU_BIND_S. -/
def execQuBindS (gd : Guard) (src : Src) (s : State) : Host.Outcome State Fault Refusal := asStep (slotQuBindS gd src s) s

/-- qu.unbind: clears the latch's bound bit and records; res and st are 0 after 4 cycles (R217, R220). -/
def slotQuUnbind (gd : Guard) (src : Src) : Slot := withReal gd src fun m s =>
  let k := (m.tw m.low).toNat % 4
  .ok ((s.start m.w .qu [.res, .st] m.en 4 fun _ => ⟨0, 0, 0⟩).unbindLatch m.w k)
/-- QU_UNBIND. -/
def execQuUnbind (gd : Guard) (src : Src) (s : State) : Host.Outcome State Fault Refusal := asStep (slotQuUnbind gd src s) s

/-- qu.avail (R214): T is the handle's upper word. -/
def slotQuAvail (gd : Guard) (src : Src) : Slot := withReal gd src fun m s =>
  let h := joinWords (m.tw m.low) (m.latchW .qu .o1 m.low)
  if dfield h 63 49 != 0 then m.queueTrap else quOp m { QuOp.blank with kind := .avail, handle := h } s
/-- QU_AVAIL. -/
def execQuAvail (gd : Guard) (src : Src) (s : State) : Host.Outcome State Fault Refusal := asStep (slotQuAvail gd src s) s

/-- qu.create (R215): T[19:0] is the index, T[21:20] the home die. -/
def slotQuCreate (gd : Guard) (src : Src) : Slot := withReal gd src fun m s =>
  quOp m { QuOp.blank with kind := .create, arg := (m.tw m.low).toNat } s
/-- QU_CREATE. -/
def execQuCreate (gd : Guard) (src : Src) (s : State) : Host.Outcome State Fault Refusal := asStep (slotQuCreate gd src s) s

/-- qu.destroy (R215): T is the handle's upper word. -/
def slotQuDestroy (gd : Guard) (src : Src) : Slot := withReal gd src fun m s =>
  let h := joinWords (m.tw m.low) (m.latchW .qu .o1 m.low)
  if dfield h 63 49 != 0 then m.queueTrap else quOp m { QuOp.blank with kind := .destroy, handle := h } s
/-- QU_DESTROY. -/
def execQuDestroy (gd : Guard) (src : Src) (s : State) : Host.Outcome State Fault Refusal := asStep (slotQuDestroy gd src s) s

/-- qu.tsnow: the time base, sampled now (R220). -/
def slotQuTsnow (gd : Guard) (src : Src) : Slot := withReal gd src fun m s =>
  .ok (s.start m.w .qu [.res, .st] m.en 8 fun _ => ⟨lowWord s.time, 0, highWord s.time⟩)
/-- QU_TSNOW. -/
def execQuTsnow (gd : Guard) (src : Src) (s : State) : Host.Outcome State Fault Refusal := asStep (slotQuTsnow gd src s) s

/-! Events. -/

/-- QUEUE_CONTROLLER_OP: operation; 0 arrived, 1 its descriptor read, 2 a remote enqueue while peers are not accepted, 3 its slots at hand (R208, R220,
R422, R472). -/
def execQueueControllerOp (s : State) : Host.Outcome State Fault Refusal :=
  .next (if s.arg 1 = 2 then (match s.qop? (s.arg 0) with | some o => s.quAnswer (s.arg 0) o 4 0 | none => s) else s.queueController (s.arg 0) (s.arg 1))
/-- QUEUE_ANSWER: operation (R220). -/
def execQueueAnswer (s : State) : Host.Outcome State Fault Refusal := .next (s.queueAnswer (s.arg 0))
/-- LATCH_REFILL: wave, latch, TAIL when it was caused, partition, index, HEAD when it was caused (R218). -/
def execLatchRefill (s : State) : Host.Outcome State Fault Refusal :=
  .next (s.latchRefill (s.arg 0) (s.arg 1) (s.arg 2) (s.arg 3) (s.arg 4) (s.arg 5))

end Sys2Proof.Machine
end

