-- ==== Sys2Proof/Machine/Control.lean ====
section
/-! DEFINITION. The control unit ct (R174 to R196): outcomes of branches, loops, spawning and launching, barriers, waiting, yielding
and software traps. What a control move does to the fragment itself is noted in the bundle in progress and takes effect in phase 7. -/
namespace Sys2Proof.Machine

/-- Changes the bundle in progress. -/
def State.modCur (s : State) (f : Issue → Issue) : State := { s with cur := s.cur.map f }

/-- Gives lanes an outcome (R29): an address and the loop levels left, or the exit; a later slot overrides an earlier one. -/
def State.setOuts (s : State) (m : Mask) (f : Nat → Option (Dword × Nat)) : State :=
  s.modCur fun c => { c with outs := (lanesOf m).foldl (fun t l => Map.put t l (f l)) c.outs }

/-- Address of the bundle in progress, and of the next sequential one (R43). -/
def MoveIn.pc (m : MoveIn) : Dword := m.c.cap.addr
def MoveIn.next (m : MoveIn) : Dword := m.c.cap.addr + BitVec.ofNat 64 m.c.cap.len
/-- A target relative to the bundle (R177). -/
def MoveIn.target (m : MoveIn) (l : Nat) : Dword := m.pc + sextWord (m.tw l)
/-- The issuing fragment. -/
def MoveIn.frag (m : MoveIn) : Seq := m.x.ctx.seq m.c.seq

/-- A branch: misaligned targets trap, the others are the lanes' outcomes (R177). -/
def branch (f : MoveIn → Nat → Dword) (m : MoveIn) : Slot := fun s =>
  let bad := maskWhere fun l => m.real.getLsbD l && (f m l).toNat % 4 != 0
  if bad != 0 then m.trap 0x06 bad (f m ((lowest bad).getD 0))
  else .ok (s.setOuts m.real fun l => some (f m l, 0))

/-- A ct operation that writes `st`, or `res` too, after `lat` cycles; the port it does not write keeps its value (R12, R175). (DEDUCED, log 44) -/
def ctWrite (m : MoveIn) (lat : Nat) (res st : Nat → Option Word) (s : State) : State :=
  s.start m.w .ct [.res, .st] m.en lat fun l => ⟨(res l).getD (m.x.ctx.port .ct .res l), 0, (st l).getD (m.x.ctx.port .ct .st l)⟩

/-- ct.jmp: every lane's own target (R177). -/
def slotCtJmp (gd : Guard) (src : Src) : Slot := withPairs gd src (fun m l => [m.target l]) (branch MoveIn.target)
/-- CT_JMP. -/
def execCtJmp (gd : Guard) (src : Src) (s : State) : Host.Outcome State Fault Refusal := asStep (slotCtJmp gd src s) s

/-- ct.br: the lowest enabled lane's target (R177). -/
def slotCtBr (gd : Guard) (src : Src) : Slot := withPairs gd src (fun m _ => [m.target m.low]) (branch fun m _ => m.target m.low)
/-- CT_BR. -/
def execCtBr (gd : Guard) (src : Src) (s : State) : Host.Outcome State Fault Refusal := asStep (slotCtBr gd src s) s

/-- A control move that decides outcomes of lanes (R29). -/
def isOutcome (i : Instr) : Bool :=
  match i with
  | .ctJmp _ _ | .ctBr _ _ | .ctCall _ _ | .ctLbrk _ _ | .ctExit _ _ => true
  | _ => false

/-- The lanes that a control move further right decides (R59, R179); one at or after a slot that has trapped decides none (R63). (DEDUCED, log 123) -/
def MoveIn.decidedLater (m : MoveIn) : Mask :=
  (m.c.cap.words.drop 1).zipIdx.foldl (fun a (v, k) =>
    if m.c.slot < k ∧ k < m.c.stop then (match decodeMove v with
      | .ok i => if isOutcome i then a ||| Map.get 0 m.c.cap.en k else a
      | .error _ => a) else a) 0

/-- ct.call: as br, and res is the return address relative to the target (R177, R178), in the lanes that it decides (R59). -/
def slotCtCall (gd : Guard) (src : Src) : Slot := withPairs gd src (fun m _ => [m.target m.low]) fun m s =>
  match branch (fun m _ => m.target m.low) m s with
  | .ok s =>
    let en := m.en &&& ~~~m.decidedLater
    if en = 0 then .ok s else .ok (ctWrite { m with en := en } 1 (fun _ => some (lowWord (m.next - m.target m.low))) (fun _ => none) s)
  | r => r
/-- CT_CALL. -/
def execCtCall (gd : Guard) (src : Src) (s : State) : Host.Outcome State Fault Refusal := asStep (slotCtCall gd src s) s

/-- STACK for the enabled lanes (R27, R180, R182). -/
def MoveIn.stack (m : MoveIn) : SlotRes := m.trap 0x11 m.real 0

/-- The trap of a bundle whose length cannot be read (R180). -/
def MoveIn.lengthTrap (m : MoveIn) (cause : Nat) (at_ : Dword) : SlotRes := m.trap cause m.real (if cause = 1 then 0 else at_)

/-- The length of the bundle that ends a loop, as a look-up that may wait: for its page's translation, on a POOL entry that another handler owns
(R331), or for a bias flip (R334). Without a length, how the slot ends (R180). A slot that committed before a trap has read it already (R363).
(DEDUCED, log 106) -/
def State.endLen (s : State) (m : MoveIn) (va : Dword) : Except SlotRes Nat :=
  match Map.find? m.c.cap.ends m.c.slot with
  | some n => .ok n
  | none =>
  if !canonical va then .error (m.lengthTrap 0x03 va) else
  match s.coreXlate m.c m.x va with
  | none => .error (.hold [va.toNat])
  | some .claimed => .error (.hold [])
  | some .fault => .error (m.lengthTrap 0x03 va)
  | some .pool => .error (m.lengthTrap 0x04 va)
  | some (.page p) =>
    if p.flip then .error (.hold [])
    else if !p.runs m.x.ctx.sup then .error (m.lengthTrap 0x05 va)
    else
      let h := s.read (p.addr va.toNat) 4
      if headerOk h then .ok (4 * headerWords h) else .error (m.lengthTrap 0x01 va)

/-- Keeps the length that a slot has read (R363). -/
def Issue.noteEnd (c : Issue) (n : Nat) : Issue := { c with cap := { c.cap with ends := Map.put c.cap.ends c.slot n } }

/-- ct.loop: opens a loop, or with a count of 0 skips its body (R180). -/
def slotCtLoop (gd : Guard) (src : Src) : Slot := withReal gd src fun m s =>
  let count := m.latchW .ct .o1 m.low
  let fin := m.target m.low
  let inner := (m.frag.loops.head?).map (·.fin)
  if fin.toNat % 4 != 0 || fin.ult m.next || inner == some m.pc then m.stack
  else if count = 0 then
    match s.endLen m fin with
    | .ok n => .ok (s.modCur fun c => { c.noteEnd n with skip := some (fin + BitVec.ofNat 64 n) })
    | .error r => r
  else if 6 ≤ m.frag.loops.length then m.stack
  else .ok (s.modCur fun c => { c with push := some { start := m.next, fin := fin, count := count, index := 0 } })
/-- CT_LOOP. -/
def execCtLoop (gd : Guard) (src : Src) (s : State) : Host.Outcome State Fault Refusal := asStep (slotCtLoop gd src s) s

/-- ct.lbrk: leaves loop levels (R182). -/
def slotCtLbrk (gd : Guard) (src : Src) : Slot := withReal gd src fun m s =>
  let n := (m.tw m.low).toNat % 8
  match n, m.frag.loops[n - 1]? with
  | 0, _ => m.stack
  | _, none => m.stack
  | _, some v => match s.endLen m v.fin with
    | .ok k => .ok ((s.setOuts m.real fun _ => some (v.fin + BitVec.ofNat 64 k, n)).modCur (·.noteEnd k))
    | .error r => r
/-- CT_LBRK. -/
def execCtLbrk (gd : Guard) (src : Src) (s : State) : Host.Outcome State Fault Refusal := asStep (slotCtLbrk gd src s) s

/-- ct.spawn: a thread per enabled lane, to the bins of the wave's die 24 cycles later (R186, R349). -/
def slotCtSpawn (gd : Guard) (src : Src) : Slot := withReal gd src fun m s =>
  let entry (l : Nat) : Dword := m.latch .ct .o1 l + sextWord (m.tw l)
  let bad (l : Nat) : Bool := (entry l).toNat % 4 != 0 || !canonical (entry l)
  let ts : List Thread := ((lanesOf m.real).filter fun l => !bad l).map fun l =>
    { launch := m.x.launch, entry := entry l, words := (List.range 6).map fun k => m.x.ctx.reg (opndVec k) l, flush := (m.latchW .ct .o2 l).getLsbD 0 }
  let d := dieOf m.w
  let (id, s) := s.fresh
  let s := if ts.isEmpty then s else (s.modDie d fun k => { k with threads := Map.put k.threads id ts }).after 24 .spawnBinArrival [d, id]
  .ok (ctWrite m 24 (fun _ => none) (fun l => some (if bad l then 6 else 0)) s)
/-- CT_SPAWN. -/
def execCtSpawn (gd : Guard) (src : Src) (s : State) : Host.Outcome State Fault Refusal := asStep (slotCtSpawn gd src s) s

/-- ct.launch: submits a launch record to the partition's launch queue (R187, R338); where DLAUNCH is 0, DENIED with the latency of an enq. (DEDUCED, log 41) -/
def slotCtLaunch (gd : Guard) (src : Src) : Slot := withReal gd src fun m s =>
  let a := m.latch .ct .o1 m.low + sextWord (m.tw m.low)
  let p := s.part m.x.part
  if a.toNat % 256 != 0 then m.trap 0x06 m.real a
  else if !p.psched.getLsbD 3 then .ok (ctWrite m (60 + 360 * ringDist (dieOf m.w) (handleHome p.lqh)) (fun _ => none) (fun _ => some 4) s)
  else
    let x := s.wave m.w
    let k := x.nextOp
    let x := x.begin .ct [.res, .st] m.en
    let s := s.setWave m.w { x with quOut := x.quOut ++ [k] }
    .ok (s.sendQueue (dieOf m.w) { QuOp.blank with
      kind := .enq, handle := p.lqh, part := m.x.part, count := 1, wave := some m.w, lanes := m.en, op := k, unit := .ct,
      forms := [[7, lowWord a, highWord a, 1]] } 0)
/-- CT_LAUNCH. -/
def execCtLaunch (gd : Guard) (src : Src) (s : State) : Host.Outcome State Fault Refusal := asStep (slotCtLaunch gd src s) s

/-- Whether a wave holds its clover's baton. -/
def State.holdsBaton (s : State) (w : Nat) : Bool :=
  match (s.clover (cloverOf w)).baton with
  | some (v, _, _) => v == w
  | none => false

/-- ct.exit: the enabled lanes become vacant at bundle end (R185); leaving with a live accumulator raises BATON (R237). Lanes that a control move
further right decides do not leave by this one (R59, R179). -/
def slotCtExit (gd : Guard) (src : Src) : Slot := withPairs gd src (fun _ _ => []) fun m s =>
  let s' := s.setOuts m.real fun _ => none
  let later := m.decidedLater
  let gone := maskWhere fun l => m.x.ctx.vac.getLsbD l || (!later.getLsbD l && match (s'.cur.bind fun c => Map.find? c.outs l) with | some none => true | _ => false)
  if s.holdsBaton m.w && gone == BitVec.allOnes 32 && !(s.clover (cloverOf m.w)).live.isEmpty then m.trap 0x0B m.real 0
  else .ok s'
/-- CT_EXIT. -/
def execCtExit (gd : Guard) (src : Src) (s : State) : Host.Outcome State Fault Refusal := asStep (slotCtExit gd src s) s

/-! Barriers (R188 to R191). -/

/-- Whether a barrier's phase has no arrival yet. -/
def Team.fresh (t : Team) (k : Nat) : Bool := (List.range t.waves).all fun i => Map.get 0 t.arr (4 * i + k) == 0

/-- Cycles after which a barrier of a team times out (R192). -/
def State.barLimit (s : State) (t : Team) : Nat := 2 ^ ((s.launch? t.launch).map fun l => l.lrec.barto).getD 24

/-- Lanes of a wave arrive at barrier `k`; the phase's first arrival starts the timer (R189, R192). The test follows at bundle end. -/
def State.barArrive (s : State) (w k : Nat) (m : Mask) : State :=
  let x := s.wave w
  match s.team? x.team with
  | none => s
  | some t =>
    let first := t.fresh k
    let a := Map.get 0 t.arr (4 * x.index + k)
    let t := { t with arr := Map.set 0 t.arr (4 * x.index + k) (a ||| m), timing := if first then Map.put t.timing k s.now else t.timing }
    let s := s.setTeam x.team t
    if first then s.after (s.barLimit t - Map.get 0 t.timer k) .barrierTimeout [x.team, k, s.now] else s

/-- PH of barrier `k` and the arrivals of the wave there. -/
def MoveIn.bar (m : MoveIn) (s : State) (k : Nat) : Word × Mask :=
  match s.team? m.x.team with
  | some t => (Map.get 0 t.ph k, Map.get 0 t.arr (4 * m.x.index + k))
  | none => (0, 0)

/-- The barrier a move names. -/
def MoveIn.barNo (m : MoveIn) : Nat := (m.tw m.low).toNat % 4

/-- Holds the fragment at a barrier, its ports not ready until the release (R189). -/
def barHold (m : MoveIn) (k : Nat) (s : State) : State :=
  let x := s.wave m.w
  (s.setWave m.w (x.begin .ct [.res, .st] m.en)).modCur fun c => { c with hold := .barrier k m.en }

/-- ct.bar.meet (R189). -/
def slotCtBarMeet (gd : Guard) (src : Src) : Slot := withReal gd src fun m s =>
  let k := m.barNo
  .ok (barHold m k (s.barArrive m.w k m.real))
/-- CT_BAR_MEET. -/
def execCtBarMeet (gd : Guard) (src : Src) (s : State) : Host.Outcome State Fault Refusal := asStep (slotCtBarMeet gd src s) s

/-- ct.bar.sign (R189). -/
def slotCtBarSign (gd : Guard) (src : Src) : Slot := withReal gd src fun m s =>
  let k := m.barNo
  let (ph, arr) := m.bar s k
  .ok ((ctWrite m 1 (fun _ => some ph) (fun l => some (if arr.getLsbD l then 3 else 0)) s).barArrive m.w k m.real)
/-- CT_BAR_SIGN. -/
def execCtBarSign (gd : Guard) (src : Src) (s : State) : Host.Outcome State Fault Refusal := asStep (slotCtBarSign gd src s) s

/-- ct.bar.hold: passes at once where no lane has arrived (R189, R191). -/
def slotCtBarHold (gd : Guard) (src : Src) : Slot := withReal gd src fun m s =>
  let k := m.barNo
  let (ph, arr) := m.bar s k
  if arr &&& m.real = 0 then
    let a := ((s.team? m.x.team).map fun t => Map.get 0 t.abn m.x.index).getD 0
    let (st, rest) := abnStatus a
    .ok (((ctWrite m 1 (fun _ => some ph) (fun _ => some st) s).modWave m.w (·.noteAbn (a &&& ~~~rest))).modTeam m.x.team fun t =>
      { t with abn := Map.set 0 t.abn m.x.index rest })
  else .ok (barHold m k s)
/-- CT_BAR_HOLD. -/
def execCtBarHold (gd : Guard) (src : Src) (s : State) : Host.Outcome State Fault Refusal := asStep (slotCtBarHold gd src s) s

/-! Waiting, yielding, trapping, reconverging. -/

/-- ct.wait: limits on the four counters (R193). -/
def slotCtWait (gd : Guard) (src : Src) : Slot := withReal gd src fun m s =>
  let t := m.tw m.low
  .ok (s.modCur fun c => { c with hold := .counters (wfield t 4 0) (wfield t 10 5) (wfield t 14 11) (wfield t 18 15) })
/-- CT_WAIT. -/
def execCtWait (gd : Guard) (src : Src) (s : State) : Host.Outcome State Fault Refusal := asStep (slotCtWait gd src s) s

/-- Whether some wave of a team holds its clover's baton (R194). -/
def State.teamBaton (s : State) (team : Nat) : Bool :=
  match s.team? team with
  | some t => t.slots.any fun (_, w) => s.holdsBaton w
  | none => false

/-- Whether a yield of a wave stops it (R194). -/
def State.yieldStops (s : State) (w : Nat) : Bool := (s.wave w).ctx.yreq && !s.teamBaton (s.wave w).team

/-- ct.yield: stops the wave after the bundle when a pre-emption request is pending (R194). -/
def slotCtYield (gd : Guard) (src : Src) : Slot := withReal gd src fun m s =>
  .ok (if s.yieldStops m.w then s.modCur fun c => { c with hold := .stopped } else s)
/-- CT_YIELD. -/
def execCtYield (gd : Guard) (src : Src) (s : State) : Host.Outcome State Fault Refusal := asStep (slotCtYield gd src s) s

/-- ct.trap: SOFTWARE, taken after the slot commits (R195). -/
def slotCtTrap (gd : Guard) (src : Src) : Slot := withReal gd src fun m s =>
  .ok (s.modCur fun c => { c with after := some { cause := 0x10, slot := c.slot + 1, mask := m.real, info := BitVec.ofNat 64 (m.tw m.low).toNat, pc := none } })
/-- CT_TRAP. -/
def execCtTrap (gd : Guard) (src : Src) (s : State) : Host.Outcome State Fault Refusal := asStep (slotCtTrap gd src s) s

/-- ct.rcvw: every non-vacant lane is expected at a token (R184). -/
def slotCtRcvw (gd : Guard) (src : Src) : Slot := withReal gd src fun m s =>
  let t := (m.tw m.low).toNat % 16
  .ok (s.modCtx m.w fun c =>
    let j : Join := match Map.find? c.join t with
      | some j => { j with expect := j.expect ||| ~~~c.vac }
      | none => { expect := ~~~c.vac, arrived := 0 }
    { c with join := Map.put c.join t j })
/-- CT_RCVW. -/
def execCtRcvw (gd : Guard) (src : Src) (s : State) : Host.Outcome State Fault Refusal := asStep (slotCtRcvw gd src s) s

end Sys2Proof.Machine
end

