-- ==== Sys2Proof/Machine/Conv.lean ====
section
/-! DEFINITION. The conversion units cv (R140 to R144) and cx (R146, R147): four cycles each (R129). -/
namespace Sys2Proof.Machine

/-- Format slot `n` of a wave's launch (R95). -/
def State.slotBits (s : State) (x : Wave) (n : Nat) : Dword :=
  ((s.launch? x.launch).map fun l => l.lrec.fmt.getD n 0).getD 0
def State.slotOf (s : State) (x : Wave) (n : Nat) : FmtSlot := FmtSlot.ofBits (s.slotBits x n)

/-- A cv operation: `f` takes the slot, the latches and T. -/
def cvOp (gd : Guard) (n : Fin 8) (src : Src) (f : FmtSlot → MoveIn → Nat → LaneOut) : Slot :=
  fun s => laneOp .cv 4 gd src (fun m => f (s.slotOf m.x n.val) m) s

/-- cv.up (R141). -/
def cvUpOut (f : Fmt) (a b : Word) : LaneOut :=
  let n := f.perWord
  let k := b.toNat % 8 % n
  ⟨cvtUp (element f a.toNat k) f, cvtUp (element f a.toNat ((k + 1) % n)) f, 0⟩

/-- NX and OF of conversions (R130, R146). -/
def cvtFlags (inx ovf : Bool) : Word := fpFlags false false ovf false inx

/-- cv.dn (R142). -/
def cvDnOut (sl : FmtSlot) (a b c : Word) : LaneOut :=
  let e0 := cvtDn (ofFp32 a) sl.ofmt sl.rnd sl.sat
  let e1 := cvtDn (ofFp32 b) sl.ofmt sl.rnd sl.sat
  let w := sl.ofmt.width
  let one (b : Bool) : Nat := if b then 1 else 0
  if w = 32 then ⟨BitVec.ofNat 32 e0.code, BitVec.ofNat 32 (one e0.ovf), cvtFlags e0.inx e0.ovf⟩
  else ⟨BitVec.ofNat 32 (c.toNat / 2 ^ (2 * w) + e0.code * 2 ^ (32 - 2 * w) + e1.code * 2 ^ (32 - w)),
        BitVec.ofNat 32 (one e0.ovf + one e1.ovf), cvtFlags (e0.inx || e1.inx) (e0.ovf || e1.ovf)⟩

/-- The terms of cv.dot, with scales of one (R143). -/
def cvTerms (fa fb : Fmt) (a b : Word) : List Term :=
  (List.range fa.perWord).map fun i => ⟨element fa a.toNat i, element fb b.toNat i, 127, 127⟩

/-- cv.dot (R143); hi keeps its value. A dot of two widths, which only a shadow lane carries out, has a free result. (DESIGN CHOICE, log 120) -/
def cvDotOut (sl : FmtSlot) (a b c hi : Word) : LaneOut :=
  let ts := cvTerms sl.afmt sl.bfmt a b
  if sl.afmt.width ≠ sl.bfmt.width then
    let p := Config.dotOfUnequal sl.afmt.width sl.bfmt.width a b c
    ⟨p.1, hi, p.2⟩
  else if sl.accInt then ⟨dotInt sl.afmt sl.bfmt c ts, hi, 0⟩
  else
    let d := dotSum sl.afmt sl.bfmt c ts
    let snan := isSnan c || ts.any fun t => isSnan (cvtUp t.a sl.afmt) || isSnan (cvtUp t.b sl.bfmt)
    ⟨d.code, hi, fpFlags (d.invalid || snan) false d.ovf d.unf d.inx⟩

/-- cv.sc (R144); hi keeps its value. -/
def cvScOut (sl : FmtSlot) (a b hi : Word) : LaneOut :=
  let ea := b.toNat % 256
  let eb := b.toNat / 256 % 256
  let t0 : Int := (ea : Int) + eb - 254
  let t := if b.getLsbD 16 then -t0 else t0
  let o := if isNan a then arith [a] .rne false none
    else if ea = 255 ∨ eb = 255 then fpOut defaultNan 0
    else match ofFp32 a with
      | .fin x => arithFin (x.scale t) sl.rnd sl.sat false
      | v => arith [a] sl.rnd sl.sat (some v)
  { o with hi := hi }

/-- A cx operation that keeps hi, and one that writes it. -/
def cxKeep (gd : Guard) (src : Src) (f : MoveIn → Nat → LaneOut) : Slot :=
  laneOp .cx 4 gd src fun m l => { f m l with hi := m.x.ctx.port .cx .hi l }

/-- Two conversions packed into one word (R146). -/
def cxPair (f : Fmt) (rnd : Rnd) (a b : Word) : LaneOut :=
  let x := cvtDn (ofFp32 a) f rnd false
  let y := cvtDn (ofFp32 b) f rnd false
  fpOut (BitVec.ofNat 32 (x.code + 2 ^ 16 * y.code)) (cvtFlags (x.inx || y.inx) (x.ovf || y.ovf))

/-- bf2f and h2f (R146). -/
def cxWiden (f : Fmt) (a : Word) : LaneOut := ⟨cvtUp (a.toNat % 65536) f, cvtUp (a.toNat / 65536) f, 0⟩

/-- f2i and f2ui (R147). -/
def cxToInt (rnd : Rnd) (signed : Bool) (a : Word) : LaneOut :=
  let lo : Int := if signed then -(2 ^ 31) else 0
  let hi : Int := if signed then 2 ^ 31 - 1 else 2 ^ 32 - 1
  match ofFp32 a with
  | .nan _ => fpOut 0 (cvtFlags false true)
  | .inf neg => fpOut (BitVec.ofInt 32 (if neg then lo else hi)) (cvtFlags false true)
  | .fin x =>
    let m := roundQuot rnd x.num x.den
    let n : Int := if x.neg then -(m : Int) else m
    fpOut (BitVec.ofInt 32 (max lo (min hi n))) (cvtFlags (decide (m * x.den ≠ x.num)) (decide (n < lo ∨ hi < n)))

/-- i2f and ui2f (R146). -/
def cxFromInt (i : Int) : LaneOut :=
  let r := cvtDn (.fin (Exact.ofInt i)) .fp32 .rne false
  fpOut (BitVec.ofNat 32 r.code) (cvtFlags r.inx r.ovf)

/-- pack (R146). -/
def packOut (a b : Word) : LaneOut :=
  let c (x : Word) : Int := max (-(2 ^ 15)) (min (2 ^ 15 - 1) x.toInt)
  let h (x : Word) : Nat := (c x % 2 ^ 16).toNat
  fpOut (BitVec.ofNat 32 (h a + 2 ^ 16 * h b)) (cvtFlags false (decide (c a ≠ a.toInt ∨ c b ≠ b.toInt)))

/-- unpack (R146). -/
def unpackOut (a : Word) : LaneOut := ⟨(a.setWidth 16).signExtend 32, ((a >>> 16).setWidth 16).signExtend 32, 0⟩

/-- cv.up.sN (R141): Widens two packed elements of slot format AFMT to FP32. -/
def slotCvUp (gd : Guard) (n : Fin 8) (src : Src) : Slot := cvOp gd n src fun sl => in2 .cv (cvUpOut sl.afmt)
/-- cv.up.sN on its own. -/
def execCvUp (gd : Guard) (n : Fin 8) (src : Src) (s : State) : Host.Outcome State Fault Refusal := asStep (slotCvUp gd n src s) s

/-- cv.dn.sN (R142): Narrows two FP32 values to OFMT and shifts them into a packed word. -/
def slotCvDn (gd : Guard) (n : Fin 8) (src : Src) : Slot := cvOp gd n src fun sl => in3 .cv (cvDnOut sl)
/-- cv.dn.sN on its own. -/
def execCvDn (gd : Guard) (n : Fin 8) (src : Src) (s : State) : Host.Outcome State Fault Refusal := asStep (slotCvDn gd n src s) s

/-- cv.dot.sN (R143): Packed dot product accumulated exactly and rounded once, or in INT32. -/
def slotCvDot (gd : Guard) (n : Fin 8) (src : Src) : Slot := fun s => withMove gd src (fun m s =>
  let sl := s.slotOf m.x n.val
  if sl.afmt.width ≠ sl.bfmt.width ∧ m.real ≠ 0 then m.trap 0x0F m.real 0
  else .ok (s.start m.w .cv (portsOf .cv) m.en 4 fun l => in3 .cv (fun a b c => cvDotOut sl a b c (m.x.ctx.port .cv .hi l)) m l)) s
/-- cv.dot.sN on its own. -/
def execCvDot (gd : Guard) (n : Fin 8) (src : Src) (s : State) : Host.Outcome State Fault Refusal := asStep (slotCvDot gd n src s) s

/-- cv.sc.sN (R144): Multiplies or divides an FP32 value by two E8M0 block scales with one rounding. -/
def slotCvSc (gd : Guard) (n : Fin 8) (src : Src) : Slot := cvOp gd n src fun sl m l => in2 .cv (fun a b => cvScOut sl a b (m.x.ctx.port .cv .hi l)) m l
/-- cv.sc.sN on its own. -/
def execCvSc (gd : Guard) (n : Fin 8) (src : Src) (s : State) : Host.Outcome State Fault Refusal := asStep (slotCvSc gd n src s) s

/-- cx.f2bf (R146): Converts two FP32 values to packed BF16 with RNE. -/
def slotCxF2bf (gd : Guard) (src : Src) : Slot := cxKeep gd src (in2 .cx (cxPair .bf16 .rne))
/-- cx.f2bf on its own. -/
def execCxF2bf (gd : Guard) (src : Src) (s : State) : Host.Outcome State Fault Refusal := asStep (slotCxF2bf gd src s) s

/-- cx.f2bf.z (R146): Converts two FP32 values to packed BF16 with RTZ. -/
def slotCxF2bfZ (gd : Guard) (src : Src) : Slot := cxKeep gd src (in2 .cx (cxPair .bf16 .rtz))
/-- cx.f2bf.z on its own. -/
def execCxF2bfZ (gd : Guard) (src : Src) (s : State) : Host.Outcome State Fault Refusal := asStep (slotCxF2bfZ gd src s) s

/-- cx.f2h (R146): Converts two FP32 values to packed FP16 with RNE. -/
def slotCxF2h (gd : Guard) (src : Src) : Slot := cxKeep gd src (in2 .cx (cxPair .fp16 .rne))
/-- cx.f2h on its own. -/
def execCxF2h (gd : Guard) (src : Src) (s : State) : Host.Outcome State Fault Refusal := asStep (slotCxF2h gd src s) s

/-- cx.f2h.z (R146): Converts two FP32 values to packed FP16 with RTZ. -/
def slotCxF2hZ (gd : Guard) (src : Src) : Slot := cxKeep gd src (in2 .cx (cxPair .fp16 .rtz))
/-- cx.f2h.z on its own. -/
def execCxF2hZ (gd : Guard) (src : Src) (s : State) : Host.Outcome State Fault Refusal := asStep (slotCxF2hZ gd src s) s

/-- cx.bf2f (R146): Widens two packed BF16 values to FP32. -/
def slotCxBf2f (gd : Guard) (src : Src) : Slot := laneOp .cx 4 gd src (in1 (cxWiden .bf16))
/-- cx.bf2f on its own. -/
def execCxBf2f (gd : Guard) (src : Src) (s : State) : Host.Outcome State Fault Refusal := asStep (slotCxBf2f gd src s) s

/-- cx.h2f (R146): Widens two packed FP16 values to FP32. -/
def slotCxH2f (gd : Guard) (src : Src) : Slot := laneOp .cx 4 gd src (in1 (cxWiden .fp16))
/-- cx.h2f on its own. -/
def execCxH2f (gd : Guard) (src : Src) (s : State) : Host.Outcome State Fault Refusal := asStep (slotCxH2f gd src s) s

/-- cx.f2i (R146): FP32 to signed 32-bit integer with RNE and saturation. -/
def slotCxF2i (gd : Guard) (src : Src) : Slot := cxKeep gd src (in1 (cxToInt .rne true))
/-- cx.f2i on its own. -/
def execCxF2i (gd : Guard) (src : Src) (s : State) : Host.Outcome State Fault Refusal := asStep (slotCxF2i gd src s) s

/-- cx.f2i.z (R146): FP32 to signed 32-bit integer with RTZ and saturation. -/
def slotCxF2iZ (gd : Guard) (src : Src) : Slot := cxKeep gd src (in1 (cxToInt .rtz true))
/-- cx.f2i.z on its own. -/
def execCxF2iZ (gd : Guard) (src : Src) (s : State) : Host.Outcome State Fault Refusal := asStep (slotCxF2iZ gd src s) s

/-- cx.f2ui (R146): FP32 to unsigned 32-bit integer with RNE and saturation. -/
def slotCxF2ui (gd : Guard) (src : Src) : Slot := cxKeep gd src (in1 (cxToInt .rne false))
/-- cx.f2ui on its own. -/
def execCxF2ui (gd : Guard) (src : Src) (s : State) : Host.Outcome State Fault Refusal := asStep (slotCxF2ui gd src s) s

/-- cx.f2ui.z (R146): FP32 to unsigned 32-bit integer with RTZ and saturation. -/
def slotCxF2uiZ (gd : Guard) (src : Src) : Slot := cxKeep gd src (in1 (cxToInt .rtz false))
/-- cx.f2ui.z on its own. -/
def execCxF2uiZ (gd : Guard) (src : Src) (s : State) : Host.Outcome State Fault Refusal := asStep (slotCxF2uiZ gd src s) s

/-- cx.i2f (R146): Signed integer to FP32 with RNE. -/
def slotCxI2f (gd : Guard) (src : Src) : Slot := cxKeep gd src (in1 fun a => cxFromInt a.toInt)
/-- cx.i2f on its own. -/
def execCxI2f (gd : Guard) (src : Src) (s : State) : Host.Outcome State Fault Refusal := asStep (slotCxI2f gd src s) s

/-- cx.ui2f (R146): Unsigned integer to FP32 with RNE. -/
def slotCxUi2f (gd : Guard) (src : Src) : Slot := cxKeep gd src (in1 fun a => cxFromInt a.toNat)
/-- cx.ui2f on its own. -/
def execCxUi2f (gd : Guard) (src : Src) (s : State) : Host.Outcome State Fault Refusal := asStep (slotCxUi2f gd src s) s

/-- cx.pack (R146): Saturates two signed values to 16 bits and packs them. -/
def slotCxPack (gd : Guard) (src : Src) : Slot := cxKeep gd src (in2 .cx packOut)
/-- cx.pack on its own. -/
def execCxPack (gd : Guard) (src : Src) (s : State) : Host.Outcome State Fault Refusal := asStep (slotCxPack gd src s) s

/-- cx.unpack (R146): Sign-extends the two 16-bit halves into res and hi. -/
def slotCxUnpack (gd : Guard) (src : Src) : Slot := laneOp .cx 4 gd src (in1 unpackOut)
/-- cx.unpack on its own. -/
def execCxUnpack (gd : Guard) (src : Src) (s : State) : Host.Outcome State Fault Refusal := asStep (slotCxUnpack gd src s) s

end Sys2Proof.Machine
end

