-- ==== Sys2Proof/Machine/Link.lean ====
section
/-! DEFINITION. The Lumrax links: bank-group queues, swaths, widths, wakes, retraining and failure, and the drawer behind them
(16_lumrax_link_and_drawer.md). -/
namespace Sys2Proof.Machine

/-! The registers of a link (R395 to R400). -/

/-- The state code of LSTAT. -/
def linkCode : LinkState → Nat
  | .run => 0 | .waking => 1 | .retrain => 2 | .down => 3 | .offline => 4

/-- TWIDTH: the width requested, in force from the next change point (R396, R448). -/
def Link.twidth (k : Link) : Nat := k.heldWant.getD (k.want.getD (if k.width = 7 then 8 else k.width))

/-- Whether FECSEL, or an index, names: channel wavelength, plus 8 for the inbound channel. -/
def Link.selected (k : Link) : Nat := wfield k.fecsel 3 0

/-- A link register (R395), with `depth` requests queued; the others read 0. -/
def Link.register (k : Link) (depth r : Nat) : Word :=
  match r with
  | 0 => BitVec.ofNat 32 (k.width + k.twidth * 2 ^ 4 + linkCode k.state * 2 ^ 8 +
      (if k.state = .retrain then k.rtwl * 2 ^ 11 + k.rtdir * 2 ^ 14 else 0))
  | 1 => k.lctl
  | 2 => k.berO
  | 3 => k.berI
  | 4 => k.fecsel
  | 5 => BitVec.ofNat 32 (Map.get 0 k.fecCnt k.selected)
  | 6 => BitVec.ofNat 32 (Map.get 0 k.fecPrv k.selected)
  | 7 => BitVec.ofNat 32 k.unccnt
  | 8 => BitVec.ofNat 32 (k.bgCnt + k.fullCnt * 2 ^ 16)
  | 9 => BitVec.ofNat 32 (min 2047 depth)
  | _ => 0

/-- Whether wavelength `i`, outbound 0 to 7 and inbound 8 to 15, carries a beat in every cycle (R391, R401, R402). -/
def Link.carries (k : Link) (i : Nat) : Bool := k.up && k.active.contains (i % 8)
/-- The beats of its own that a wavelength has carried in its present window (R399). -/
def Link.fecBeats (k : Link) (now i : Nat) : Nat := Map.get 0 k.fecAge i + if k.carries i then now - k.fecFrom else 0
/-- The windows of all wavelengths told up to cycle `now`; one that is idle or parked, or of a link that is not up, stands (R399, R449). -/
def Link.aged (k : Link) (now : Nat) : Link :=
  { k with fecAge := (List.range 16).foldl (fun m i => Map.set 0 m i (k.fecBeats now i)) [], fecFrom := max now k.fecFrom }
/-- Width `w` from cycle `now` on; the beat count runs on (R391). -/
def Link.setWidth (k : Link) (now w : Nat) : Link := { k.aged now with beat := k.beat + k.width * (now - k.t0), t0 := now, width := w }

/-- First cycle, from `now` on, that carries the first beat of a frame. -/
def Link.boundaryAt (k : Link) (now : Nat) : Nat :=
  let f := (k.swathAt now + 255) / 256
  k.swathCycle (256 * f)

/-! Sending (R387, R388). -/

/-- Whether a link can carry swaths. -/
def State.linkUp (s : State) (l : Nat) : Bool := (s.link l).up

/-- The first swath from `n` on, within a frame, in which some queued request can leave. -/
def State.nextSend (s : State) (l n : Nat) : Option Nat :=
  let k := s.link l
  let rs : List Req := k.queues.flatMap fun (_, ids) => ids.filterMap s.req?
  if rs.isEmpty then none
  else ((List.range 256).find? fun i => rs.any fun r => entryCarries (k.entryOf (n + i)) r.part r.far r.group r.write).map (n + ·)

/-- The first flit that begins at or after cycle `t` (R381). -/
def Link.flitAt (k : Link) (t : Nat) : Nat := (max 1 k.width * (t - k.t0) + k.beat + 7) / 8

/-- Puts the next packet of a peer link, whose packets leave in the order of their arrival, on the agenda; `next` is the first flit that none has taken
(R404). -/
def State.armPeer (s : State) (l : Nat) : State :=
  let k := s.link l
  if k.entry.isEmpty then s else s.at_ (k.beatCycle (8 * max k.next (k.flitAt s.now))) .peerPacket [6, l]

/-- Puts the link's next outbound swath, or packet, on the agenda. -/
def State.armLink (s : State) (l : Nat) : State :=
  if !s.linkUp l then s else if 64 ≤ l % 72 then s.armPeer l else
  let k := s.link l
  match s.nextSend l (max k.next (k.swathAt s.now)) with
  | some n => s.at_ (k.swathCycle n) .outboundSwath [l]
  | none => s

/-- The swath that begins in this cycle, if one does. -/
def Link.beginning (k : Link) (now : Nat) : Option Nat := if k.swathCycle (k.swathAt now) = now then some (k.swathAt now) else none

/-- The requests that swath `n` of a link carries beside what it carries already: the oldest write and the oldest read its entry allows (R387). -/
def State.carried (s : State) (l n : Nat) : List Nat :=
  let k := s.link l
  let e := k.entryOf n
  let q := Map.get [] k.queues (wfield e 10 7)
  let has (write : Bool) : Bool := k.sent.any fun (m, ids) => m == n && ids.any fun i => ((s.req? i).map (·.write)) == some write
  let first (write : Bool) : Option Nat := if has write then none else q.find? fun id => match s.req? id with
    | some r => r.write == write && entryCarries e r.part r.far r.group write
    | none => false
  (first true).toList ++ (first false).toList

/-- Requests, or packets of a peer link, that a swath or a flit beginning in this cycle is to carry. -/
def State.leaving (s : State) (l : Nat) : Nat :=
  let k := s.link l
  if !k.up then 0
  else if 64 ≤ l % 72 then if !k.entry.isEmpty && k.beatCycle (8 * max k.next (k.flitAt s.now)) == s.now then 1 else 0
  else match k.beginning s.now with
    | some n => if k.next ≤ n + 1 then (s.carried l n).length else 0
    | none => 0

/-- Requests queued over all bank groups: from the cycle in which they reach the link up to the cycle before the first beat of the swath that carries
them (R395, R448). -/
def State.depth (s : State) (l : Nat) : Nat :=
  let k := s.link l
  (k.queues.map (·.2.length)).foldl (· + ·) 0 + k.entry.length - s.leaving l

/-- A wake begins (R393, R394): of itself, or requested through LCTL. -/
def State.wakeSoon (s : State) (l : Nat) (auto : Bool) : State := s.after 1 .autoWake [l, if auto then 1 else 0]

/-- Tests the auto-wake condition (R394, R448). -/
def State.testWake (s : State) (l : Nat) : State :=
  let k := s.link l
  let q := wfield k.lctl 9 2
  if q != 0 && decide (q ≤ s.depth l) && (k.width == 4 || k.width == 2) && k.wakeTill.isNone && k.state == .run then s.wakeSoon l true else s

/-- AUTO_WAKE: the wake begins, of itself or as a widening that still stands asks for; an auto-wake clears PWIDTH and asks for width 8 (R393, R394). -/
def State.autoWake (s : State) (l : Nat) (auto : Bool) : State :=
  let k := s.link l
  if k.wakeTill.isSome || k.state != .run || k.width = 8 || !(auto || k.want.any (decide <| k.width < ·)) then s
  else
    let k := { k with
      state := .waking, wakeTill := some (s.now + 4608), lctl := if auto then setField k.lctl 1 0 0 else k.lctl
      want := if auto then some 8 else k.want }
    (s.setLink l k).after 4608 .wakeEnd [l]

/-- WAKE_END: the new width takes effect at the first frame boundary from here on (R393). -/
def State.wakeEnd (s : State) (l : Nat) : State :=
  match (s.link l).wakeTill with
  | some t => if t = s.now then s.at_ ((s.link l).boundaryAt s.now) .frameBoundary [l] else s
  | none => s

/-- A write-back of a line that is queued or unanswered (R387). -/
def State.pendingWrite (s : State) (line id : Nat) : Bool := s.reqs.any fun (k, r) => r.write && r.line == line && k != id

/-- The waiters of a request that wait for its own data: their loads take their values, unless it is not yet their turn, and their atomics are
performed 8 cycles later (R473). -/
def State.takeOwn (s : State) (r : Req) : State :=
  r.waiters.foldl (fun s v => match v with
    | .own w k i => match State.acc? s w k with
      | some a =>
        if a.isAtomic then s.after 8 .atomicPerformed [w, k, i]
        else if a.isLoad && !(a.lines[i]?.any (·.done)) && !(s.wave w).outOfTurn a i && !(a.lines[i]?.any fun u => (s.wave w).olderHolds k u.place) then s.take w k i false
        else s
      | none => s
    | _ => s) s

/-- The next inbound swath from `now` on that carries no line. -/
def State.freeInbound (s : State) (l : Nat) : Nat :=
  let k := s.link l
  let n := k.swathAt s.now
  let taken (n : Nat) : Bool := (k.sent.any fun (m, ids) => ids.any fun i => match s.req? i with
    | some r => !r.write && m + answerSwaths r.far == n
    | none => false) || s.reqs.any fun (_, r) => r.link == some l && r.back == some n
  n + ((List.range 1024).find? fun i => !taken (n + i)).getD 0

/-- A read whose line has a write-back pending is answered from it, in the next inbound swath that has no line (R387). -/
def State.answerBack (s : State) (l id : Nat) : State :=
  let n := s.freeInbound l
  match s.req? id with
  | some r => (s.setReq id { r with back := some n }).at_ ((s.link l).beatCycle (40 * n + 39)) .inboundSwath [l, n, 2, id]
  | none => s

/-- DRAWER_REQUEST: a request reaches its home's link (R386, R387). A home that serves no longer answers HOME_OFFLINE (R417). -/
def State.drawerRequest (s : State) (id : Nat) : State :=
  match s.req? id with
  | none => s
  | some r => match r.link with
    | none => s
    | some l =>
      let h := l / 72
      if s.home h (linePa r.line) != h then s.after (180 * ringDist h r.die) .homeOffline [0, id]
      else if !r.write && s.pendingWrite r.line id then (s.takeOwn r).answerBack l id
      else
        let s := s.modLink l fun k =>
          let q := Map.get [] k.queues r.group
          if q.length < 64 then { k with queues := Map.set [] k.queues r.group (q ++ [id]) } else { k with entry := k.entry ++ [id] }
        let s := if (s.link l).state = .down then s.stallWatch r else s
        let late := (s.link l).beginning s.now == some ((s.link l).next - 1) && (s.link l).next != 0
        (if late && s.linkUp l then s.after 0 .outboundSwath [l] else s.armLink l).testWake l

/-- Lets requests waiting at a link's entry into the queues that have room (R387). -/
def Link.letIn (k : Link) (group : Nat → Nat) : Link :=
  k.entry.foldl (fun k id =>
    let g := group id
    let q := Map.get [] k.queues g
    if q.length < 64 then { k with queues := Map.set [] k.queues g (q ++ [id]), entry := k.entry.filter (· != id) } else k) k

/-- A request leaves in swath `n` of a link. The drawer performs a write as its header says, unless it has performed it before; a read's line, and a
write's acknowledgement, come back `answerSwaths` later (R382, R385, R390). A read from a write-back that was to be answered in the swath of that line
takes the next one that has none (R387). -/
def State.leave (s : State) (l n : Nat) (f : List (BitVec 8)) (id : Nat) : State :=
  match s.req? id with
  | none => s
  | some r =>
    let s := s.setReq id { r with swath := some n, performed := r.performed || r.write }
    let m := n + answerSwaths r.far
    if r.write then
      (if r.performed then s else { s with drawer := Memory.writeAll s.drawer (linePa (headerLine (flitSecond f))) r.bytes }).at_
        ((s.link l).beatCycle (40 * m + 7)) .inboundSwath [l, n, 0]
    else
      let s := (s.takeOwn r).at_ ((s.link l).beatCycle (40 * m + 39)) .inboundSwath [l, n, 1]
      (s.reqs.filter fun (_, q) => q.link == some l && q.back == some m).foldl (fun s (i, _) => State.answerBack s l i) s

/-- OUTBOUND_SWATH: the swath that begins now carries the oldest read and the oldest write its entry allows (R387), those that reach the link
in this very cycle among them (R388), with their headers in its flit 0 (R382). The drawer performs a bank group's requests in swath order, a write before a
read (R390). -/
def State.outboundSwath (s : State) (l : Nat) : State :=
  let k := s.link l
  let n := k.swathAt s.now
  if !k.up || decide (n + 1 < k.next) || k.swathCycle n != s.now then s
  else
    let ids := s.carried l n
    if ids.isEmpty then (s.testWake l).armLink l
    else
      let head (write : Bool) : Option Nat := ids.findSome? fun id => (s.req? id).bind fun r => if r.write = write then some (swathHeader r.line false) else none
      let group (id : Nat) : Nat := ((s.req? id).map (·.group)).getD 0
      let g := wfield (k.entryOf n) 10 7
      let k := { k with queues := Map.set [] k.queues g ((Map.get [] k.queues g).filter fun id => !ids.contains id), sent := k.sent ++ [(n, ids)], next := n + 1 }
      let s := ids.foldl (fun s id => State.leave s l n (flitZero (head false) (head true)) id) (s.setLink l (k.letIn group))
      (s.testWake l).armLink l

/-- Installs the line a read has brought, as its response header says, and wakes its waiters (R310, R389, R390). The line waits for room in the
cache that takes it (R309). -/
def State.arrive (s : State) (id : Nat) : State :=
  match s.req? id with
  | none => s
  | some r =>
    let head := flitFirst (flitZero (some (swathHeader r.line r.poison)) none)
    let home := s.home r.die (linePa r.line)
    match (if (s.line r.line).fetching = some id then s.makeRoom ((s.line r.line).holder.getD home) r.line else (0, s)) with
    | (d + 1, s) => s.after (d + 1) .inboundSwath [(r.link).getD 0, 0, 4, id]
    | (0, s) =>
      let s := { s with reqs := Map.erase s.reqs id }
      let s := if (s.line r.line).fetching = some id then s.install home (headerLine head) (headerPoison head) r.low else s
      r.waiters.foldl (fun s v => State.wake s r.line v) s

/-- A write has been accepted by the drawer (R385). -/
def State.writeAccepted (s : State) (id : Nat) : State :=
  match s.req? id with
  | none => s
  | some r =>
    let s := { s with reqs := Map.erase s.reqs id }
    r.waiters.foldl (fun s v => match v with
      | .own w k _ => State.wbAccepted s w k
      | .die d => if (State.reqs s).any fun (_, q) => q.waiters.contains (.die d) then s else s.after 1 .reHome [d, 0]
      | _ => s) s

/-- Requests return to the heads of their queues in swath order (R398, R402). -/
def State.requeue (s : State) (l : Nat) (ids : List Nat) : State :=
  let s := ids.reverse.foldl (fun s id => match State.req? s id with
    | some r => (s.setReq id { r with swath := none }).modLink l fun k => { k with queues := Map.set [] k.queues r.group (id :: Map.get [] k.queues r.group) }
    | none => s) s
  s.modLink l fun k => { k with sent := (k.sent.map fun (n, js) => (n, js.filter fun j => !ids.contains j)).filter fun (_, js) => js != [] }

/-- The flits of a packet: a header for up to four data flits (R404). -/
def Packet.flits (p : Packet) : Nat := max 1 ((p.size + 127) / 128) + (p.size + 31) / 32

/-- Packets of a peer link that have left and are unanswered return to the head of its order (R402, R404). -/
def State.repack (s : State) (l : Nat) (gone : Packet → Bool) : State :=
  let ids := (s.packets.filter fun (_, p) => p.link == l && p.flit.isSome && gone p).map fun (n, p) => (p.flit.getD 0, n)
  let ids := (ids.foldl (fun m (f, n) => Map.put m f n) ([] : Map Nat)).map (·.2)
  let s := { s with packets := s.packets.map fun ((n, p) : Nat × Packet) => (n, if ids.contains n then ({ p with flit := none } : Packet) else p) }
  s.modLink l fun k => { k with entry := ids ++ k.entry }

/-- A link goes DOWN in both directions for a full retrain (R402): unanswered requests will be sent again. -/
def State.channelFailure (s : State) (l : Nat) : State :=
  let k := s.link l
  if k.state = .down || k.state = .offline then s
  else
    let ids := k.sent.flatMap (·.2)
    let k := { k.setWidth s.now 8 with
      state := .down, downSince := some s.now, fullCnt := min 65535 (k.fullCnt + 1), want := none, heldWant := none, wakeTill := none
      retrainTill := none, lctl := setField k.lctl 1 0 0, rtwl := 0, rtdir := 0, fecFrom := s.now + 60000, badRun := [] }
    let s := ((s.setLink l k).requeue l ids).repack l fun _ => true
    let s := if k.swstat = 1 then s.at_ (k.boundaryAt (s.now + 1)) .frameBoundary [l] else s
    let s := (s.reqs.filter fun (id, r) => r.link == some l && s.reqDown id r).foldl (fun s (_, r) => State.stallWatch s r) s
    s.after 60000 .fullRetrainEnd [l]

/-- The beats of a channel that codeword `j` of it touches: it carries 514 symbols of 10 bits, the first of them at beat 0 (R398).
(DEDUCED, log 115) -/
def codewordTouches (j a b : Nat) : Bool := decide (5140 * j / 32 ≤ b ∧ a ≤ (5140 * (j + 1) - 1) / 32)

/-- An uncorrectable codeword of a channel: each request, header and line that it touches is sent again, or asked for again; the sixteenth in a row fails
the channel (R398, R402). (DEDUCED, log 115) -/
def State.uncorrectable (s : State) (l j dir : Nat) : State :=
  let k := s.link l
  if !k.up then s else
  let swath (m : Nat) (a b : Nat) : Bool := codewordTouches j (40 * m + a) (40 * m + b)
  let lost (n : Nat) (r : Req) : Bool :=
    let m := if dir = 0 then n else n + answerSwaths r.far
    if r.write then swath m 2 3 || (dir == 0 && swath m 8 39) else swath m 0 1 || (dir == 1 && swath m 8 39)
  let ids := k.sent.flatMap fun (n, is) => is.filter fun i => (s.req? i).any (lost n)
  let again := (s.reqs.filter fun (_, r) => dir == 1 && r.link == some l && r.back.any fun m => swath m 0 1 || swath m 8 39).map (·.1)
  let (next, run) := Map.get (0, 0) k.badRun dir
  let run := if next = j then run + 1 else 1
  let s := (s.setLink l { k with unccnt := min (2 ^ 32 - 1) (k.unccnt + 1), badRun := Map.set (0, 0) k.badRun dir (j + 1, run) }).requeue l ids
  let s := s.repack l fun p => dir == 0 && p.flit.any fun f => codewordTouches j (8 * f) (8 * (f + p.flits) - 1)
  let s := again.foldl (fun s i => State.answerBack s l i) s
  if 16 ≤ run then s.channelFailure l else (s.testWake l).armLink l

/-- The drawer's ECC cannot correct the line that a read of outbound swath `n` has asked for: its response carries POISON (R390). -/
def State.drawerEcc (s : State) (l n : Nat) : State :=
  (((s.link l).sent.filter fun (m, _) => m == n).flatMap (·.2)).foldl (fun s i => match State.req? s i with
    | some r => if r.write then s else s.setReq i { r with poison := true }
    | none => s) s

/-! Windows of FEC counting (R399): each is 2^24 beats of its own wavelength. -/

/-- The next end of a window of a link that is up comes onto the agenda. -/
def State.fecArm (s : State) (l : Nat) : State :=
  let k := s.link l
  let oldest := (((List.range 16).filter k.carries).map (k.fecBeats s.now)).foldl max 0
  if k.up then s.at_ (max s.now k.fecFrom + (2 ^ 24 - oldest)) .fecWindowEnd [l, 0, 1] else s

/-- A wavelength's window ends: its count becomes that of the previous window, and a new one starts at 0. -/
def State.fecWindowEnd (s : State) (l wl : Nat) : State :=
  s.modLink l fun k => { k.aged s.now with
    fecPrv := Map.set 0 k.fecPrv wl (Map.get 0 k.fecCnt wl), fecCnt := Map.set 0 k.fecCnt wl 0, fecAge := Map.set 0 (k.aged s.now).fecAge wl 0
    crossed := k.crossed.erase wl }

/-- Ends the windows that have had their beats. -/
def State.fecTurn (s : State) (l : Nat) : State :=
  let k := s.link l
  let ended := (List.range 16).filter fun i => k.carries i && decide (2 ^ 24 ≤ k.fecBeats s.now i)
  if ended.isEmpty then s else (ended.foldl (fun s i => State.fecWindowEnd s l i) s).fecArm l

/-! Widths, commits, retraining (R384, R393, R400, R401). -/

/-- A link that runs at width 8 and has a crossing recorded drops to width 7 in the next cycle (R400). -/
def State.nextRetrain (s : State) (l : Nat) : State :=
  let k := s.link l
  if !k.crossings.isEmpty ∧ k.state = .run ∧ k.width = 8 ∧ k.retrainTill = none then
    (s.setLink l { k with retrainTill := some (s.now + 90001) }).after 1 .retrainStart [l, 16]
  else s

/-- FULL_RETRAIN_END: the link runs at width 8 again (R402); reads answered from write-backs get their swaths (R387), a narrowing asked for
meanwhile has its frame boundary to come (R393), and a crossing recorded meanwhile its retraining (R400). -/
def State.fullRetrainEnd (s : State) (l : Nat) : State :=
  if (s.link l).state = .down then
    let s := s.modLink l fun k => { k with state := .run, downSince := none }
    let ids := (s.reqs.filter fun (_, r) => r.link == some l && r.back.isSome).map (·.1)
    let s := ids.foldl (fun s i => match State.req? s i with
      | some r => s.setReq i { r with back := none }
      | none => s) s
    let s := ids.foldl (fun s i => State.answerBack s l i) s
    let s := if (s.link l).want.isSome then s.at_ ((s.link l).boundaryAt (s.now + 1)) .frameBoundary [l] else s
    ((s.stallEnd.nextRetrain l).fecArm l).armLink l
  else s

/-- After a width change the answers under way arrive in other cycles (R391). -/
def State.rearm (s : State) (l : Nat) : State :=
  let k := s.link l
  let s := k.sent.foldl (fun s (n, ids) => ids.foldl (fun s i => match State.req? s i with
    | some r =>
      let b := 40 * (n + answerSwaths r.far) + (if r.write then 7 else 39)
      s.at_ (k.beatCycle b) .inboundSwath [l, n, if r.write then 0 else 1]
    | none => s) s) s
  let s := s.reqs.foldl (fun s (i, r) => match r.back with
    | some n => if r.link = some l then State.at_ s (k.beatCycle (40 * n + 39)) .inboundSwath [l, n, 2, i] else s
    | none => s) s
  let s := if k.want.isSome || k.swstat == 1 then s.at_ (k.boundaryAt (s.now + 1)) .frameBoundary [l] else s
  (s.fecArm l).armLink l

/-- A wavelength (outbound 0 to 7, inbound 8 to 15) whose count in this window has reached its channel's threshold crosses it, once in a window; one that
is parked, or idle, does not. Crossings stand in the order of their cycles, outbound before inbound (R400). -/
def State.testCross (s : State) (l i : Nat) : State :=
  let k := s.link l
  let ber := (if i < 8 then k.berO else k.berI).toNat % 2 ^ 24
  if ber = 0 || Map.get 0 k.fecCnt i < ber || k.crossed.contains i || !k.active.contains (i % 8) || k.state = .offline then s
  else
    let before (c : Nat × Nat × Nat) : Bool := decide (c.1 < s.now ∨ c.2.1 ≤ i / 8)
    (s.setLink l { k with crossed := i :: k.crossed, crossings := k.crossings.takeWhile before ++ [(s.now, i / 8, i % 8)] ++ k.crossings.dropWhile before }).nextRetrain l

/-- RETRAIN_START: the corrected symbols of a wavelength reach its channel's threshold; with 16, the drop to width 7 for the crossing whose turn it is
(R400, R401, R449). -/
def State.retrainStart (s : State) (l wl : Nat) : State :=
  let k := s.link l
  if wl = 16 then
    match k.crossings with
    | (_, dir, wl) :: rest =>
      if k.retrainTill = some (s.now + 90000) ∧ k.width = 8 ∧ k.state = .run then
        let k := { k.setWidth s.now 7 with state := .retrain, rtwl := wl, rtdir := dir, crossings := rest, bgCnt := min 65535 (k.bgCnt + 1) }
        ((s.setLink l k).rearm l).after 90000 .handBack [l]
      else s
    | [] => s
  else
    let ber := (if wl < 8 then k.berO else k.berI).toNat % 2 ^ 24
    (s.setLink l { k with fecCnt := Map.set 0 k.fecCnt wl (max ber (Map.get 0 k.fecCnt wl)) }).testCross l wl

/-- A corrected symbol counts against the wavelength that carried it: the one that beat `b` rides on (R391, R398). At its channel's threshold the
wavelength crosses (R400). -/
def State.correctedSymbol (s : State) (l dir b : Nat) : State :=
  let k := s.link l
  if !k.up then s else
  let i := 8 * dir + k.wavelength b
  (s.setLink l { k with fecCnt := Map.set 0 k.fecCnt i (min (2 ^ 24 - 1) (Map.get 0 k.fecCnt i + 1)) }).testCross l i

/-- INBOUND_SWATH: an answer to outbound swath `n`: 0 the write acknowledgement, 1 the line's last beat, 4 the installation 91 cycles
later; 2 the last beat of a line taken from a write-back at the link (R385, R387, R389); 3 instead, codeword `n` of channel `id` is uncorrectable (R398); 5 a
failure of the drawer's ECC (R390); 6 a corrected symbol of channel `n` (R398). A change of width on the way moves the cycle (R391). -/
def State.inboundSwath (s : State) (l n stage id : Nat) : State :=
  let k := s.link l
  let ids := (k.sent.filter fun (m, _) => m == n).flatMap (·.2)
  let pick (write : Bool) : Option (Nat × Req) := ids.findSome? fun i => (s.req? i).bind fun r => if r.write = write ∧ r.swath = some n then some (i, r) else none
  let done (i : Nat) : State := s.modLink l fun k =>
    { k with sent := (k.sent.map fun (m, js) => (m, js.filter (· != i))).filter fun (_, js) => js != [] }
  match stage with
  | 0 => match pick true with
    | some (i, r) =>
      let t := k.beatCycle (40 * (n + answerSwaths r.far) + 7)
      if s.now < t then s.at_ t .inboundSwath [l, n, 0] else (done i).writeAccepted i
    | none => s
  | 1 => match pick false with
    | some (i, r) =>
      let t := k.beatCycle (40 * (n + answerSwaths r.far) + 39)
      if s.now < t then s.at_ t .inboundSwath [l, n, 1]
      else ((done i).setReq i { r with core := none }).after 91 .inboundSwath [l, n, 4, i]
    | none => s
  | 2 => match s.req? id with
    | some r =>
      if r.back != some n || !k.up then s
      else if s.now < k.beatCycle (40 * n + 39) then s.at_ (k.beatCycle (40 * n + 39)) .inboundSwath [l, n, 2, id]
      else (s.setReq id { r with core := none, back := none }).after 91 .inboundSwath [l, n, 4, id]
    | none => s
  | 3 => s.uncorrectable l n id
  | 5 => s.drawerEcc l n
  | 6 => s.correctedSymbol l n id
  | _ => s.arrive id

/-- HAND_BACK: the retrained wavelength returns and the width is 8 again (R401, R449). -/
def State.handBack (s : State) (l : Nat) : State :=
  let k := s.link l
  if k.state = .retrain ∧ k.retrainTill = some s.now then
    let i := 8 * k.rtdir + k.rtwl
    let k := { k.setWidth s.now 8 with
      state := .run, retrainTill := none, rtwl := 0, rtdir := 0, wantAt := s.now + 1, crossed := k.crossed.erase i
      fecPrv := Map.set 0 k.fecPrv i (Map.get 0 k.fecCnt i), fecCnt := Map.set 0 k.fecCnt i 0, fecAge := Map.set 0 (k.aged s.now).fecAge i 0 }
    ((s.setLink l k).rearm l).nextRetrain l
  else s

/-- FRAME_BOUNDARY: a committed table goes live; a narrowing, or the width of a finished wake, takes effect (R384, R393). -/
def State.frameBoundary (s : State) (l : Nat) : State :=
  let k := s.link l
  if k.boundaryAt s.now != s.now then s.at_ (k.boundaryAt s.now) .frameBoundary [l]
  else
    let k := if k.swstat = 1 ∧ k.commit ≤ k.swathAt s.now then { k with table := k.shadow, swstat := 2 } else k
    let s := s.setLink l k
    match k.want, k.wakeTill with
    | some w, some t =>
      if t ≤ s.now then
        let k := { k.setWidth s.now w with state := .run, wakeTill := none, want := k.heldWant, heldWant := none, wantAt := s.now + 1 }
        ((s.setLink l k).rearm l).nextRetrain l
      else s.armLink l
    | some w, none =>
      if k.state = .run ∧ w < k.width ∧ k.retrainTill.isNone ∧ k.wantAt ≤ s.now then
        ((s.setLink l { k.setWidth s.now w with want := none }).rearm l).testWake l
      else s.armLink l
    | none, _ => s.armLink l

/-- A wake that begins in this very cycle has begun. -/
def State.wakeDue (s : State) (l : Nat) : State :=
  match s.agenda.find? fun (t, i, a) => t == s.now && i == .autoWake && a.getD 0 0 == l with
  | some (_, _, a) => s.autoWake l (a.getD 1 0 == 1)
  | none => s

/-- A write of LCTL takes effect at the link (R393, R394, R397, R448): a wake that begins in this cycle is in progress already. (DEDUCED, log 33) -/
def State.lctlWrite (s : State) (l : Nat) (v : Word) : State :=
  let s := s.wakeDue l
  let k := s.link l
  let w := match wfield v 1 0 with | 0 => 8 | 1 => 4 | _ => 2
  let k := { k with lctl := v &&& 0x3FF#32, wantAt := s.now + 1 }
  let s := if k.wakeTill.isSome then
      s.setLink l { k with want := some 8, heldWant := if w = 8 then none else some w }
    else
      let cur := if k.width = 7 then 8 else k.width
      if w < cur then (s.setLink l { k with want := some w }).at_ (k.boundaryAt (s.now + 1)) .frameBoundary [l]
      else if cur < w then (s.setLink l { k with want := some w }).wakeSoon l false
      else s.setLink l { k with want := none }
  s.testWake l

/-- Whether the shadow table breaks a rule of R384, or names the far tier without FARTIER (R422). -/
def State.tableBad (s : State) (l : Nat) : Bool :=
  let k := s.link l
  let es := (List.range 256).map fun i => Map.get 0x60#32 k.shadow i
  let far := (es.filter fun e => wfield e 4 4 == 1).length
  let holds (p : Nat) (t : Bool) : Bool := (List.range 8).any fun i =>
    let q := s.part p
    let a := q.windowBase i
    let b := q.windowLim i + 0xFFFF
    decide (a ≤ q.windowLim i) && (if t then decide (2 ^ 41 ≤ b ∧ a < 2 ^ 41 + 6144 * 10 ^ 9) else decide (a < 1024 * 10 ^ 9))
  decide (52 < far) || (decide (0 < far) && !s.featack.getLsbD 6) ||
    (List.range 16).any fun p => [false, true].any fun t => holds p t && (List.range 16).any fun g =>
      !(es.any fun e => entryCarries e p t g false) || !(es.any fun e => entryCarries e p t g true)

/-- SWCOMMIT: asks for the commit of the shadow table (R384, R412). -/
def State.swcommit (s : State) (l : Nat) : State :=
  if 64 ≤ l % 72 then s
  else if s.tableBad l then s.modLink l fun k => { k with swstat := 3 }
  else (s.modLink l fun k => { k with swstat := 1, commit := 256 * ((k.swathAt (s.now + 1) + 255) / 256) }).at_ ((s.link l).boundaryAt (s.now + 1)) .frameBoundary [l]

/-- A write of BERTHR: outbound, or inbound; wavelengths whose counts have reached the new threshold cross it (R400, R448). (DEDUCED, log 116) -/
def State.berthrWrite (s : State) (l : Nat) (inbound : Bool) (v : Word) : State :=
  let s := s.modLink l fun k => if inbound then { k with berI := v } else { k with berO := v }
  (List.range 8).foldl (fun s i => State.testCross s l (if inbound then 8 + i else i)) s

/-- LINK_STALL: the wave's oldest access has waited on a DOWN link longer than LNKSTALL in all (R403). -/
def State.linkStall (s : State) (w k : Nat) : State :=
  match (s.wave? w).bind fun x => (Map.find? x.accs k).map fun a => (x, a) with
  | none => s
  | some (x, a) =>
    let n := (s.part x.part).lnkstall.toNat
    match a.downFrom with
    | none => s
    | some t =>
      if a.stalled || n = 0 then s
      else if a.downSum + (s.now - t) ≤ n then s.stallArm w k
      else if !(x.accs.all fun (j, b) => decide (k ≤ j) || !b.open) then s.after 1 .linkStall [w, k]
      else
        let addr := Map.get 0 a.addr ((lowest a.lanes).getD 0)
        (s.modAcc w k fun a => { a with stalled := true }).pendTrap w { cause := 0x0E, slot := 0, mask := 0, info := addr, pc := none }

/-! The swath shares of a die in warm reset (R406, R417, R419). -/

/-- At a frame boundary of link `n` of die `d`: its shares serve die 0's link of the same number from that link's next frame on. (DEDUCED, log 31) -/
def State.lendShares (s : State) (d n : Nat) : State :=
  let t := (s.link (72 * d + n)).table
  let s := s.modLink (72 * d + n) fun k => { k with table := [] }
  (s.modLink n fun k => { k with lent := k.lent ++ [(d, 256 * ((k.swathAt s.now + 255) / 256), t)] }).armLink n

/-- The shares return to die `d`'s links; the table of one that the host has committed meanwhile stands. -/
def State.returnShares (s : State) (d : Nat) : State :=
  (List.range 64).foldl (fun s n =>
    let back := ((State.link s n).lent.find? fun (e, _) => e == d).map fun (_, _, t) => t
    let s := s.modLink n fun k => { k with lent := k.lent.filter fun (e, _) => e != d }
    (s.modLink (72 * d + n) fun k => { k with table := if k.table.isEmpty then back.getD [] else k.table }).armLink (72 * d + n)) s

/-- HOME_OFFLINE: a request that found its home gone is back at its die; it is sent again once the die's table names another home (R417). -/
def State.homeOffline (s : State) (id : Nat) : State :=
  match s.req? id with
  | none => s
  | some r =>
    let l := s.linkOf r.die (linePa r.line)
    let r := { r with swath := none, back := none }
    if r.link = some l then s.setReq id { r with link := none }
    else (s.setReq id { r with link := some l }).after (80 + (if r.write then 180 else 360) * ringDist r.die (s.home r.die (linePa r.line))) .drawerRequest [id]

/-- HOME_TABLE_UPDATE: a die's copy of the home table changes; its requests that wait are sent again (R417). -/
def State.homeTableUpdate (s : State) (die entry home : Nat) : State :=
  let s := s.modDie die fun d => { d with home := Map.set entry d.home entry home }
  (s.reqs.filter fun (_, r) => r.die == die && r.link.isNone).foldl (fun s (id, _) => State.homeOffline s id) s

/-- DRAWER_REQUEST: request (R386). -/
def execDrawerRequest (s : State) : Host.Outcome State Fault Refusal := .next (s.drawerRequest (s.arg 0))
/-- OUTBOUND_SWATH: link (R387). -/
def execOutboundSwath (s : State) : Host.Outcome State Fault Refusal := .next (s.outboundSwath (s.arg 0))
/-- INBOUND_SWATH: link, outbound swath, stage, request (R385). -/
def execInboundSwath (s : State) : Host.Outcome State Fault Refusal := .next (s.inboundSwath (s.arg 0) (s.arg 1) (s.arg 2) (s.arg 3))
/-- FRAME_BOUNDARY: link (R384, R393); or die, link of it, 1: its shares go to die 0's (R417). -/
def execFrameBoundary (s : State) : Host.Outcome State Fault Refusal :=
  .next (if s.arg 2 = 1 then s.lendShares (s.arg 0) (s.arg 1) else s.frameBoundary (s.arg 0))
/-- FEC_WINDOW_END: link, wavelength; or link, 0, 1: whichever windows have had their 2^24 beats (R399). -/
def execFecWindowEnd (s : State) : Host.Outcome State Fault Refusal := .next (if s.arg 2 = 1 then s.fecTurn (s.arg 0) else s.fecWindowEnd (s.arg 0) (s.arg 1))
/-- RETRAIN_START: link, wavelength (R400). -/
def execRetrainStart (s : State) : Host.Outcome State Fault Refusal := .next (s.retrainStart (s.arg 0) (s.arg 1))
/-- HAND_BACK: link (R401). -/
def execHandBack (s : State) : Host.Outcome State Fault Refusal := .next (s.handBack (s.arg 0))
/-- CHANNEL_FAILURE: link (R402). -/
def execChannelFailure (s : State) : Host.Outcome State Fault Refusal := .next (s.channelFailure (s.arg 0))
/-- FULL_RETRAIN_END: link (R402). -/
def execFullRetrainEnd (s : State) : Host.Outcome State Fault Refusal := .next (s.fullRetrainEnd (s.arg 0))
/-- AUTO_WAKE: link, and whether of itself (R394). -/
def execAutoWake (s : State) : Host.Outcome State Fault Refusal := .next (s.autoWake (s.arg 0) (s.arg 1 == 1))
/-- WAKE_END: link (R393). -/
def execWakeEnd (s : State) : Host.Outcome State Fault Refusal := .next (s.wakeEnd (s.arg 0))
/-- LINK_STALL: wave, access (R403). -/
def execLinkStall (s : State) : Host.Outcome State Fault Refusal := .next (s.linkStall (s.arg 0) (s.arg 1))
/-- SWCOMMIT: link (R384, R412). -/
def execSwcommit (s : State) : Host.Outcome State Fault Refusal := .next (s.swcommit (s.arg 0))
/-- LCTL: link, value (R397). -/
def execLctl (s : State) : Host.Outcome State Fault Refusal := .next (s.lctlWrite (s.arg 0) (BitVec.ofNat 32 (s.arg 1)))
/-- BERTHR: link, direction, value (R400). -/
def execBerthr (s : State) : Host.Outcome State Fault Refusal := .next (s.berthrWrite (s.arg 0) (s.arg 1 == 1) (BitVec.ofNat 32 (s.arg 2)))
/-- HOME_TABLE_UPDATE: die, entry, new home (R417). -/
def execHomeTableUpdate (s : State) : Host.Outcome State Fault Refusal := .next (s.homeTableUpdate (s.arg 0) (s.arg 1) (s.arg 2))

end Sys2Proof.Machine
end

