-- ==== Sys2Proof/Machine/Engine.lean ====
section
/-! DEFINITION. The copy and gather engines: submissions, line transfers, release points and faults (R221 to R231), and the
packets of peer links (R301, R404, R405). -/
namespace Sys2Proof.Machine

/-! Commands (R221 to R225). The epilogue's stores go the same way: they are a command with form 16. -/

def Cmd.flag (c : Cmd) (hi lo : Nat) : Nat := wfield c.flags hi lo
def Cmd.scope (c : Cmd) : Nat := c.flag 3 2
def Cmd.peerS (c : Cmd) : Bool := c.flag 22 22 == 1
def Cmd.peerD (c : Cmd) : Bool := c.flag 23 23 == 1
/-- Engine of a form: 0 copy, 1 gather. -/
def Cmd.engine (c : Cmd) : Nat := if c.op = 4 ∨ c.op = 5 then 1 else 0
/-- Rows of a command; every row has `a` bytes. -/
def Cmd.rows (c : Cmd) : Nat := if c.op = 1 ∨ c.op = 4 ∨ c.op = 5 then c.b else 1
/-- The die whose clover holds the engine. -/
def Cmd.die (c : Cmd) : Nat := c.clover / 24

/-- Address arithmetic modulo 2^64. -/
def vaAdd (a : Nat) (d : Int) : Nat := ((a : Int) + d).toNat % 2 ^ 64 + (if (a : Int) + d < 0 then ((a : Int) + d + 2 ^ 64).toNat else 0)

/-- Index of element `e` of a gather or scatter, read while it runs (R224). -/
def State.elemIndex (s : State) (c : Cmd) (e : Nat) : Nat := s.scrRead c.team (c.c.toNat + 4 * e) 4

/-- First source and destination address of row `r`. -/
def State.rowAt (s : State) (c : Cmd) (r : Nat) : Nat × Nat :=
  let src := c.src.toNat
  let dst := c.dst.toNat
  match c.op with
  | 1 => (vaAdd src (r * c.c), vaAdd dst (r * c.d))
  | 4 => (vaAdd src (s.elemIndex c r * c.d), vaAdd dst (r * c.a))
  | 5 => (vaAdd src (r * c.a), vaAdd dst (s.elemIndex c r * c.d))
  | _ => (src, dst)

/-- The next piece of a command: its addresses and length. A piece lies in one 128-byte line of each side. (DEDUCED, log 17) -/
def State.piece (s : State) (c : Cmd) : Option (Nat × Nat × Nat) :=
  if c.rows ≤ c.row ∨ c.a = 0 ∨ c.op = 16 then none
  else
    let (a, b) := s.rowAt c c.row
    let a := vaAdd a c.off
    let b := vaAdd b c.off
    let n := c.a - c.off
    let n := if c.op = 6 then n else min n (128 - a % 128)
    let n := if c.op = 2 then n else min n (128 - b % 128)
    some (a, b, n)

/-- The page a command has found for an address. -/
def Cmd.page (c : Cmd) (va : Nat) : Option Xlate := (c.pages.find? (·.1 == va / 2 ^ 16)).map (·.2)

def State.modCmd (s : State) (id : Nat) (f : Cmd → Cmd) : State :=
  match s.cmd? id with
  | some c => s.setCmd id (f c)
  | none => s

/-- TINFO of an ENGINE event (R265). -/
def engineInfo (tag : Word) (cause : Nat) : Dword := joinWords (BitVec.ofNat 32 cause) tag

/-- A fault of an engine access reaches the issuing wave, or its clover manager when the wave has retired (R229). -/
def State.engineEvent (s : State) (c : Cmd) (cause : Nat) (info : Dword) : State :=
  if c.alive then s.pendTrap c.wave { cause := cause, slot := 0, mask := 0, info := info, pc := none }
  else s.postMsg c.clover (deviceMsg (coreOf c.wave) 5 cause c.ident 0 0 info)

/-- Changes an operation of a clover's matrix engine. -/
def State.modMx (s : State) (c id : Nat) (f : MxOp → MxOp) : State :=
  s.modClover c fun k => match Map.find? k.ops id with
    | some o => { k with ops := Map.put k.ops id (f o) }
    | none => k

/-- A store of an epilogue is not made: the epilogue ends once the stores of its earlier chunks have performed (R254). -/
def State.epiLost (s : State) (id : Nat) (c : Cmd) : State :=
  ((s.modCmd id fun c => { c with out := c.out - 1 }).modClover c.clover fun k => { k with engOut := k.engOut - 1 }).after 0 .releasePoint [id]

/-- A command stops at an access that faulted; its release point follows at once (R229). A store of chunk `chunk` of an epilogue that faults stops
the epilogue there: ENGINE is delivered, with tag 0, and mx.res counts the chunks before it alone (R253, R254). (DESIGN CHOICE, log 125) -/
def State.engFault (s : State) (id chunk cause va : Nat) : State :=
  match s.cmd? id with
  | none => s
  | some c =>
    let d := { c with code := 2, detail := cause, fault := BitVec.ofNat 64 va }
    if c.op != 16 then (s.setCmd id d).after 0 .releasePoint [id]
    else
      let s := s.setCmd id { d with row := if c.code = 0 then chunk else min c.row chunk }
      let s := s.modMx c.clover c.tag.toNat fun o =>
        { o with status := 1, ovf := o.ovf - (o.parts.drop chunk).foldl (· + ·) 0, parts := o.parts.take chunk }
      let s := if c.code = 0 then s.engineEvent c 0x13 (engineInfo 0 cause) else s
      s.epiLost id c

/-- How an address of a command translates: as the command, or else its die's TLB, holds the page, or a walk finds it (R472). -/
def State.cmdXlate (s : State) (c : Cmd) (va : Nat) : Xlate :=
  if !canonical (BitVec.ofNat 64 va) then .fault else
  match c.page va with
  | some (.page p) => s.pageAt p va
  | some o => o
  | none => s.devXlate c.die c.part va

/-- A command is to have a page walked; `args` goes on when the walk is over. One walk serves all of the command's accesses to the page (R324, R472). -/
def State.cmdWalk (s : State) (id : Nat) (c : Cmd) (va : Nat) (args : List Nat) : State :=
  let same : PageWalk → Option (List (List Nat)) := fun k =>
    match k.use with
    | .cmd j steps => if j = id ∧ k.va / 2 ^ 16 = va / 2 ^ 16 then some steps else none
    | _ => none
  match s.walks.findSome? fun (n, k) => (same k).map fun steps => (n, k, steps) with
  | some (n, k, steps) => { s with walks := Map.put s.walks n { k with use := .cmd id (steps ++ [args]) } }
  | none => s.beginWalk c.die c.part va (.cmd id [args])

/-- The physical address of an engine access (R226, R229, R472). Without one, the state in which it waits for its translation to try
again with `args`, or has faulted. A command keeps a page from its first touch on: nothing is added where its die's TLB holds it, and a walk where it does
not. A page whose bias is changing is held until the change invalidates it (R334). (DEDUCED, log 18) -/
def State.engPage (s : State) (id : Nat) (c : Cmd) (va : Nat) (write : Bool) (args : List Nat) : Option Nat × State :=
  let go (s : State) (o : Xlate) : Option Nat × State :=
    match o with
    | .page p =>
      if p.flip then (none, s.after 1 .engineLineTransfer args)
      else if !(if write then p.w && p.coh != 3 else p.r) then (none, s.engFault id (args.getD 2 0) 0x05 va)
      else if (p.hb || isHostPa (p.addr va)) && decide (c.scope < 3) then (none, s.engFault id (args.getD 2 0) 0x20 va)
      else (some (p.addr va), s)
    | .fault => (none, s.engFault id (args.getD 2 0) 0x03 va)
    | _ => (none, s.engFault id (args.getD 2 0) 0x04 va)
  if !canonical (BitVec.ofNat 64 va) || (c.page va).isSome then go s (s.cmdXlate c va) else
  match (s.die c.die).tlbFind c.part va with
  | some (p, d) => go ((s.setDie c.die d).modCmd id fun c => { c with pages := (va / 2 ^ 16, .page p) :: c.pages }) (s.pageAt p va)
  | none => (none, s.cmdWalk id c va args)

/-- Whether an address of a command lies under host bias. -/
def Cmd.hostSide (c : Cmd) (va pa : Nat) : Bool :=
  isHostPa pa || (match c.page va with | some (.page p) => p.hb | _ => false)
/-- The treatment of the page of an address. -/
def Cmd.cohAt (c : Cmd) (va : Nat) : Nat := match c.page va with | some (.page p) => p.coh | _ => 0

/-- A piece is through: when it was the last, the release point follows (R226). -/
def State.pieceDone (s : State) (id : Nat) : State :=
  match s.cmd? id with
  | none => s
  | some c =>
    let c := { c with out := c.out - 1, wrote := c.wrote + 1 }
    let s := (s.setCmd id c).modClover c.clover fun k => { k with engOut := k.engOut - 1 }
    if c.out = 0 && (s.piece c).isNone && !c.done then s.after 0 .releasePoint [id] else s

/-- A packet of an engine command: `size` bytes of data, and what follows its answer. -/
def State.sendCmd (s : State) (c : Cmd) (id size : Nat) (args : List Nat) : State :=
  s.sendPacket c.die (c.flag 21 12) { pkg := 0, op := none, cmd := some id, link := 0, args := args, size := size, due := 1400 }

/-- The tile sums of a checked copy (R105), less what the trailers hold, over the bytes of a piece. -/
def Cmd.sumPiece (c : Cmd) (src len data : Nat) : Cmd :=
  if c.op != 3 || c.flag 4 4 != 1 then c else
  let n := (c.b - 16) / 4
  let sums := (List.range (len / 4)).foldl (fun m i =>
    let g := src - c.src.toNat + 4 * i
    let t := g / c.b
    let k := g % c.b / 4
    let w := BitVec.ofNat 32 (data / 2 ^ (32 * i))
    let add (m : Map Word) (j : Nat) (d : Word) : Map Word := Map.set 0 m (2 * t + j) (Map.get 0 m (2 * t + j) + d)
    if k < n then add (add m 0 w) 1 (BitVec.ofNat 32 (k + 1) * w)
    else if k = n + 2 then add m 0 (-w)
    else if k = n + 3 then add m 1 (-w)
    else m) c.sums
  { c with sums := sums }

/-- Whether a piece shares its first, and its last, destination word with the piece before and after it in its row: only rows whose source and
destination differ mod 4 are cut inside a word (R299). -/
def Cmd.shares (c : Cmd) (dst len : Nat) (last : Bool) : Nat :=
  if c.op != 0 && c.op != 1 then 0
  else (if c.off != 0 && dst % 4 != 0 then 1 else 0) + (if !last && (dst + len) % 4 != 0 then 2 else 0)

/-- The write that follows from the bytes of a piece: a destination word it shares with another piece is written whole, with the later of the two
(R299). `seq` is four times the number of the piece and its `Cmd.shares`, in the forms whose pieces may share one. -/
def Cmd.joinWords (c : Cmd) (seq dst len data : Nat) : Cmd × Nat × Nat × Nat :=
  if c.op != 0 && c.op != 1 then (c, dst, len, data) else
  let (c, dst, len, data) :=
    if seq % 2 = 0 then (c, dst, len, data) else
    match Map.find? c.halves (seq / 4 - 1) with
    | some (a, n, d) => ({ c with halves := Map.erase c.halves (seq / 4 - 1) }, a, n + len, d + data * 2 ^ (8 * n))
    | none =>
      let n := min len (4 - dst % 4)
      ({ c with halves := Map.put c.halves (seq / 4 - 1) (dst, n, data % 2 ^ (8 * n)) }, dst + n, len - n, data / 2 ^ (8 * n))
  if seq / 2 % 2 = 0 then (c, dst, len, data) else
  match Map.find? c.halves (seq / 4) with
  | some (_, n, d) => ({ c with halves := Map.erase c.halves (seq / 4) }, dst, len + n, data + d * 2 ^ (8 * len))
  | none =>
    let n := min len ((dst + len) % 4)
    ({ c with halves := Map.put c.halves (seq / 4) (dst + len - n, n, data / 2 ^ (8 * (len - n))) }, dst, len - n, data % 2 ^ (8 * (len - n)))

/-- The bytes of a piece have been read: they go to the B-store, or on to be written. -/
def State.engData (s : State) (id seq src dst len data : Nat) : State :=
  match s.cmd? id with
  | none => s
  | some c =>
    let s := s.setCmd id (c.sumPiece src len data)
    if c.op = 2 then
      let at_ := c.b + (src - c.src.toNat)
      (s.modClover c.clover fun k => { k with bstore := Memory.writeAll k.bstore at_ (toBytes len data) }).pieceDone id
    else if c.peerD then s.sendCmd c id len [id, 1, seq, src, dst, len]
    else
      let (c, dst, len, data) := (c.sumPiece src len data).joinWords seq dst len data
      let s := s.setCmd id c
      if len = 0 then s.pieceDone id else s.after 0 .engineLineTransfer [id, 4, seq, src, dst, len, data]

/-- Puts step `st` of a piece `t` cycles ahead. (DEDUCED, log 19; DEDUCED, log 20) -/
def State.engStep (s : State) (t st : Nat) (args : List Nat) : State :=
  s.after t .engineLineTransfer ((args.take 1) ++ [st] ++ args.drop 2)

/-- Issues the next piece of a command, if its engine may (R226, R230). -/
def State.engIssue (s : State) (id : Nat) : State :=
  match s.cmd? id with
  | none => s
  | some c =>
    let again (t : Nat) (s : State) : State := s.at_ t .engineLineTransfer [id, 0]
    let k := s.clover c.clover
    let first := c.started.isNone
    if c.done || c.code != 0 then s
    else if c.after.any (fun j => (s.cmd? j).isSome) then again (s.now + 1) s
    else if first && s.cmds.any (fun (j, d) => decide (j < id) && d.wave == c.wave && d.alive && c.alive && d.engine == c.engine && d.op != 16 && d.started.isNone) then
      again (s.now + 1) s
    else match s.piece c with
      | none => if c.out = 0 then s.after 0 .releasePoint [id] else s
      | some (a, b, n) =>
        if s.now < Map.get 0 k.eng c.engine then again (Map.get 0 k.eng c.engine) s
        else if 1024 ≤ k.engOut then again (s.now + 1) s
        else
          let whole := decide (c.off + n = c.a)
          let go (s : State) (next : State → Nat → State) : State :=
            let s := s.modCmd id fun c =>
              { c with
                started := if c.started.isNone then some s.time else c.started
                row := if whole then c.row + 1 else c.row, off := if whole then 0 else c.off + n
                seq := c.seq + 1, out := c.out + 1 }
            let s := s.modClover c.clover fun k =>
              { k with engOut := k.engOut + 1, eng := if whole || c.engine = 0 then Map.put k.eng c.engine (s.now + 1) else k.eng }
            let s := next s (if c.op = 0 ∨ c.op = 1 then 4 * c.seq + c.shares b n whole else c.seq)
            again (s.now + (if whole || c.engine = 0 then 1 else 0)) s
          if c.op = 6 then
            let w := BitVec.ofNat 32 c.b
            let data := ofBytes ((List.range n).map fun i => BitVec.ofNat 8 (w.toNat / 256 ^ (i % 4)))
            go s fun s q => if c.peerD then s.sendCmd c id n [id, 1, q, a, b, n] else s.after 0 .engineLineTransfer [id, 4, q, a, b, n, data]
          else if c.peerS then go s fun s q => s.sendCmd c id 0 [id, 0, q, a, b, n]
          else match s.engPage id c a false [id, 0] with
            | (none, s) => s
            | (some pa, s) => go s fun s q => s.after 0 .engineLineTransfer [id, 1, q, a, b, n, pa]

/-- Cycles of an access of die `q` to a line that is not in the drawer: of a read, or of a write (R318); `none` when the drawer must
be asked, or a fetch is under way. -/
def State.engCost (s : State) (q pa coh : Nat) (host write : Bool) : Option Nat :=
  let h := s.home q pa
  match s.scratchAt pa with
  | some (t, _) =>
    let d := ((s.team? t).map (·.core / 96)).getD h
    some (120 + 180 * (hopsTo q h d + ringDist d q))
  | none =>
    let e := s.line (pa / 128)
    if host then some (s.hostCost q)
    else if !write && coh == 3 && s.roCopy q (pa / 128) then some 96
    else if e.fetching.isSome then none
    else match e.holder with
      | some d => some (if d = q then (if write && coh == 0 && !(s.l1Holders (pa / 128)).isEmpty then 112 else 96) else 96 + 180 * (hopsTo q h d + ringDist d q))
      | none => none

/-- Sends the read or write of a piece from its die (step 1 or 5), or on from the line's home (2 or 6), so that step `st` follows. (DEDUCED, log 16) -/
def State.engSend (s : State) (c : Cmd) (args : List Nat) (va pa st : Nat) (write near : Bool) : State :=
  let q := c.die
  let h := if near then s.home q pa else args.getLast?.getD 0
  let host := c.hostSide va pa
  let own := ((s.line (pa / 128)).holder = some q ∨ (!write && c.cohAt va == 3 && s.roCopy q (pa / 128)) = true) ∧ (s.scratchAt pa).isNone
  if near && q != h && !host && !own then s.engStep (180 * ringDist q h) (st - 1) (args ++ [h])
  else
    let args := if near then args else args.dropLast
    let past := if near then 0 else 180 * ringDist q h
    if !near && s.home h pa != h then s.after (180 * ringDist h q) .homeOffline ([2, h] ++ ((args.take 1) ++ [st - 2] ++ args.drop 2))
    else match s.engCost q pa (c.cohAt va) host write with
      | some t => s.engStep (t - past) st args
      | none =>
        let w (own : Bool) : Waiter := .eng own ((args.take 1) ++ [st] ++ args.drop 2)
        match (s.line (pa / 128)).fetching with
        | some r => s.joinFetch r (w false)
        | none => s.drawerSend q (pa / 128) false [] [w true] none false (80 + 360 * ringDist q h - past)

/-- A piece is written at its line's holder, once leases and watches allow (R282, R289, R299); a whole line is no longer poisoned (R313). -/
def State.engWrite (s : State) (id : Nat) (c : Cmd) (args : List Nat) (dst len data pa : Nat) : State :=
  let seq := args.getD 2 0
  if c.op = 5 ∧ seq ≠ c.wrote then s.engStep 1 7 args
  else
    let bytes := toBytes len data
    match s.scratchAt pa with
    | some (t, o) => ((s.scratchWrite t (o / 128) none).write pa bytes).pieceDone id
    | none =>
      let line := pa / 128
      let host := c.hostSide dst pa
      let s := if host then s.modLine line fun e => { e with grant := some true } else s
      match s.lineWait c.die line host none false with
      | (some 0, s) =>
        let s := (if host then s.own c.die line else s).writeLine c.die line none
        let s := if len = 128 then s.modLine line fun e => { e with poison := false } else s
        (s.write pa bytes).pieceDone id
      | (some (d + 1), s) => s.engStep (d + 1) 7 args
      | (none, s) => match (s.line line).fetching with
        | some r => s.joinFetch r (.eng false args)
        | none => s.engStep 1 7 args

/-- ENGINE_LINE_TRANSFER: a step of a command or of one of its pieces: 0 the next piece issues; 1 a read sets off, 2 reaches the home,
3 is back; 4 a write is issued, 5 sets off, 6 reaches the home, 7 is performed. -/
def State.engineLine (s : State) (args : List Nat) : State :=
  let n (k : Nat) : Nat := args.getD k 0
  let id := n 0
  match s.cmd? id with
  | none => s
  | some c =>
    if n 1 = 0 then s.engIssue id
    else if c.code != 0 && c.op != 16 then s
    else if c.code != 0 && decide (c.row ≤ n 2) then s.epiLost id c
    else match n 1 with
      | 1 => s.engSend c args (n 3) (n 6) 3 false true
      | 2 => s.engSend c args (n 3) (n 6) 3 false false
      | 3 =>
        let line := n 6 / 128
        if (s.scratchAt (n 6)).isNone && (s.line line).poison then s.engFault id (n 2) 0x0C (n 3)
        else ((s.readSoft line).touchLine (if s.roCopy c.die line then c.die else (s.line line).holder.getD c.die) line).engData
          id (n 2) (n 3) (n 4) (n 5) (s.read (n 6) (n 5))
      | 4 =>
        let free := Map.get 0 (s.clover c.clover).eng 2
        if c.engine = 0 && c.op != 16 && decide (s.now < free) then s.at_ free .engineLineTransfer args
        else match s.engPage id c (n 4) true args with
          | (none, s) => s
          | (some pa, s) =>
            let s := if c.engine = 0 && c.op != 16 then s.modClover c.clover fun k => { k with eng := Map.put k.eng 2 (s.now + 1) } else s
            s.after 0 .engineLineTransfer [id, 5, n 2, n 3, n 4, n 5, n 6, pa]
      | 5 => s.engSend c args (n 4) (n 7) 7 true true
      | 6 => s.engSend c args (n 4) (n 7) 7 true false
      | _ => s.engWrite id c args (n 4) (n 5) (n 6) (n 7)

/-- RELEASE_POINT: a command ends: CPC, its status, its completion record and its fault (R226, R228, R229). The epilogue's stores end in
a step of their own. The start time of a command that makes no access is that of its release. (DESIGN CHOICE, log 103) -/
def State.releasePoint (s : State) (id : Nat) : State :=
  match s.cmd? id with
  | none => s
  | some c =>
    if c.done then s
    else if c.op = 16 then s.after 0 .epiChunk [c.clover, c.tag.toNat, 4]
    else
      let (code, detail) := match c.code, c.sums with
        | 0, (k, _) :: _ => (3, k / 2)
        | 0, [] => (0, 0)
        | n, _ => (n, c.detail)
      let s := { s with cmds := Map.erase s.cmds id }
      let s := s.modClover c.clover fun k => { k with engOut := k.engOut - c.out }
      let s := if c.alive then s.modWave c.wave fun x =>
          { x.mapCtx (fun k => { k with cpc := k.cpc - 1 }) with cmds := x.cmds.map fun (t, a, b) => if t = c.tag then (t, code, detail) else (t, a, b) }
        else s
      let s := if code = 2 then s.engineEvent c 0x13 (engineInfo c.tag detail) else s
      if c.flag 6 6 = 0 then s
      else
        let tsr := c.flag 5 5 == 1
        let d64 (d : Dword) : List Word := [lowWord d, highWord d]
        let about : Dword := match code with | 2 => c.fault | 3 => BitVec.ofNat 64 detail | _ => 0
        let form := [c.tag, BitVec.ofNat 32 (code + (if code = 2 then detail % 256 * 256 else 0))] ++ d64 about ++
          d64 (if tsr then c.started.getD s.time else 0) ++ d64 (if tsr then s.time else 0)
        s.sendQueue c.die { QuOp.blank with kind := .device, handle := c.complq, part := c.part, count := 1, forms := [form], cmd := if c.alive then some (c.wave, c.tag) else none } 0

/-! Submissions. -/

/-- Whether two ranges share a byte. -/
def rangesMeet (a n b m : Nat) : Bool := decide (0 < n ∧ 0 < m ∧ a < b + m ∧ b < a + n)

/-- Whether some row `r < n` of stride `d` has `lo ≤ r × d ≤ hi`. -/
def someRow (n : Nat) (d lo hi : Int) : Bool :=
  let pos (d lo hi : Int) : Bool :=
    let r := max 0 (-(Int.fdiv (-lo) d))
    decide (r < n ∧ r * d ≤ hi)
  if d = 0 then decide (0 < n ∧ lo ≤ 0 ∧ 0 ≤ hi)
  else if 0 < d then pos d lo hi else pos (-d) (-hi) (-lo)

/-- Whether the virtual source and destination of a command overlap (R224). -/
def State.engOverlap (s : State) (c : Cmd) : Bool :=
  if c.peerS != c.peerD then false else
  let a := c.src.toNat
  let b := c.dst.toNat
  match c.op with
  | 0 | 3 => rangesMeet a c.a b c.a
  | 1 => decide (0 < c.a) && (List.range c.b).any fun r =>
      let x : Int := a + r * c.c - b
      someRow c.b c.d (x - c.a + 1) (x + c.a - 1)
  | 4 => (List.range c.b).any fun e => rangesMeet (a + s.elemIndex c e * c.d.toNat) c.a b (c.b * c.a)
  | 5 => (List.range c.b).any fun e => rangesMeet (b + s.elemIndex c e * c.d.toNat) c.a a (c.b * c.a)
  | _ => false

/-- Whether a flags word is refused (R222, R223, R422). -/
def flagsBad (s : State) (f : Word) : Bool :=
  wfield f 7 7 != 0 || wfield f 31 24 != 0 || (wfield f 23 22 != 0 && (wfield f 3 2 != 3 || !s.featack.getLsbD 5))

/-- ENGINE at a submission's slot (R223). -/
def MoveIn.engineTrap (m : MoveIn) : SlotRes := m.trap 0x13 m.real (engineInfo m.x.ctx.etag 0)

/-- A command before it runs. -/
def MoveIn.command (m : MoveIn) (s : State) (op : Nat) (flags : Word) (src dst : Dword) (a b : Nat) (c d : Int) : Cmd :=
  { launch := m.x.launch, wave := m.w, alive := true, ident := s.ident m.w, team := m.x.team, part := m.x.part, clover := cloverOf m.w, op := op, tag := m.x.ctx.etag,
    flags := flags, src := src, dst := dst, a := a, b := b, c := c, d := d, complq := m.x.ctx.baseReg (wfield flags 11 8),
    row := 0, off := 0, seq := 0, out := 0, wrote := 0, started := none, code := 0, detail := 0, fault := 0, pages := [], sums := [], done := false,
    after := if wfield flags 0 0 = 1 then (s.cmds.filter fun (_, k) => k.wave == m.w && k.alive && k.flag 1 1 == 1 && k.op != 16).map (·.1) else [] }

/-- A submission: the checks common to all forms, then the command is on its way (R221, R223). -/
def enSubmit (m : MoveIn) (c : Cmd) (bad : Bool) (s : State) : SlotRes :=
  if bad || flagsBad s c.flags || s.engOverlap c then m.engineTrap
  else
    let (id, s) := s.fresh
    let s := s.start m.w .en [.res, .st] m.en 4 fun _ => ⟨c.tag, 0, 0⟩
    let s := s.modWave m.w fun x =>
      { x with
        ctx := { x.ctx with etag := x.ctx.etag + 1, cpc := x.ctx.cpc + 1 }
        cmds := let l := x.cmds ++ [(c.tag, 1, 0)]; l.drop (l.length - 16) }
    .ok ((s.setCmd id c).after 0 .engineLineTransfer [id, 0])

/-- The values of the latches and of T, from the lowest enabled lane (R55). -/
def MoveIn.enA (m : MoveIn) : Dword := m.latch .en .o1 m.low
def MoveIn.enB (m : MoveIn) : Dword := m.latch .en .o2 m.low
def MoveIn.enC (m : MoveIn) : Word := m.latchW .en .o3 m.low
def MoveIn.enT (m : MoveIn) : Word := m.tw m.low

/-- A descriptor form: the descriptor lies in the scratchpad, aligned (R168, R223); `f` reads its fields: offset, bytes. (DEDUCED, log 26) -/
def enDesc (gd : Guard) (src : Src) (f : MoveIn → (Nat → Nat → Nat) → Slot) : Slot := withReal gd src fun m s =>
  let off := (lowWord m.enA).toNat
  if s.scratchOf m < off + 32 then m.trap 0x07 m.real (BitVec.ofNat 64 off)
  else if off % 32 != 0 then m.trap 0x06 m.real (BitVec.ofNat 64 off)
  else f m (fun o n => s.scrRead m.x.team (off + o) n) s

/-- A field read as signed 32 bits. -/
def signed32 (n : Nat) : Int := (BitVec.ofNat 32 n).toInt

/-- en.cp: source, destination, length, flags (R224). -/
def slotEnCp (gd : Guard) (src : Src) : Slot := withReal gd src fun m s =>
  enSubmit m (m.command s 0 m.enT m.enA m.enB m.enC.toNat 0 0 0) false s
/-- EN_CP. -/
def execEnCp (gd : Guard) (src : Src) (s : State) : Host.Outcome State Fault Refusal := asStep (slotEnCp gd src s) s

/-- en.cp2d: rows with strides (R224). -/
def slotEnCp2d (gd : Guard) (src : Src) : Slot := enDesc gd src fun m f s =>
  enSubmit m (m.command s 1 m.enT (BitVec.ofNat 64 (f 0 8)) (BitVec.ofNat 64 (f 8 8)) (f 16 4) (f 20 4) (signed32 (f 24 4)) (signed32 (f 28 4))) false s
/-- EN_CP2D. -/
def execEnCp2d (gd : Guard) (src : Src) (s : State) : Host.Outcome State Fault Refusal := asStep (slotEnCp2d gd src s) s

/-- Bytes of a B block of cpb's KIND word (R242, R244): dense, or one mms operand. -/
def blockBytes (kind : Nat) : Nat :=
  if kind % 2 = 0 then 4096 else match kind / 2 % 4 with | 0 => 4736 | 1 => 5376 | _ => 6656

/-- en.cpb: B blocks into the clover's B-store (R227). -/
def slotEnCpb (gd : Guard) (src : Src) : Slot := enDesc gd src fun m f s =>
  let kind := f 16 4
  let n := f 12 4 * blockBytes kind
  let bad := decide (8 ≤ kind) || kind / 2 == 3 || f 20 4 != 0 || f 24 8 != 0 || decide (12582912 < f 8 4 + n) || (kind % 2 == 1 && !s.featack.getLsbD 1)
  enSubmit m (m.command s 2 m.enT (BitVec.ofNat 64 (f 0 8)) 0 n (f 8 4) 0 0) bad s
/-- EN_CPB. -/
def execEnCpb (gd : Guard) (src : Src) (s : State) : Host.Outcome State Fault Refusal := asStep (slotEnCpb gd src s) s

/-- en.cpt: packed quantised tiles (R225). -/
def slotEnCpt (gd : Guard) (src : Src) : Slot := withReal gd src fun m s =>
  let w := m.enC
  let n := wfield w 15 0
  let lt := if wfield w 16 16 = 1 then 1104 else 2128
  let bad := wfield w 31 17 != 0 || n == 0 || m.enA.toNat % 16 != 0 || m.enB.toNat % 16 != 0
  enSubmit m (m.command s 3 m.enT m.enA m.enB (n * lt) lt 0 0) bad s
/-- EN_CPT. -/
def execEnCpt (gd : Guard) (src : Src) (s : State) : Host.Outcome State Fault Refusal := asStep (slotEnCpt gd src s) s

/-- A gather or scatter (R224): the index list must lie in the scratchpad (R223). -/
def enIndexed (op : Nat) (gd : Guard) (src : Src) : Slot := enDesc gd src fun m f s =>
  let n := f 20 4
  let esz := f 24 2
  let bad := decide (esz < 4 ∨ 128 < esz ∨ n = 0 ∨ 65536 < n) || esz % 4 != 0 || f 0 8 % 4 != 0 || f 8 8 % 4 != 0 || f 28 4 % 4 != 0 || f 16 4 % 4 != 0 || f 26 2 != 0
  let c := m.command s op m.enT (BitVec.ofNat 64 (f 0 8)) (BitVec.ofNat 64 (f 8 8)) esz n (f 16 4) (f 28 4)
  if bad || flagsBad s c.flags then m.engineTrap
  else if s.scratchOf m < f 16 4 + 4 * n then m.trap 0x07 m.real (BitVec.ofNat 64 (f 16 4))
  else enSubmit m c false s

/-- en.ga. -/
def slotEnGa (gd : Guard) (src : Src) : Slot := enIndexed 4 gd src
/-- EN_GA. -/
def execEnGa (gd : Guard) (src : Src) (s : State) : Host.Outcome State Fault Refusal := asStep (slotEnGa gd src s) s

/-- en.sc. -/
def slotEnSc (gd : Guard) (src : Src) : Slot := enIndexed 5 gd src
/-- EN_SC. -/
def execEnSc (gd : Guard) (src : Src) (s : State) : Host.Outcome State Fault Refusal := asStep (slotEnSc gd src s) s

/-- en.fill (R224). -/
def slotEnFill (gd : Guard) (src : Src) : Slot := enDesc gd src fun m f s =>
  let bad := f 0 8 % 4 != 0 || f 8 8 % 4 != 0 || f 20 4 != 0 || f 24 8 != 0
  enSubmit m (m.command s 6 m.enT 0 (BitVec.ofNat 64 (f 0 8)) (f 8 8) (f 16 4) 0 0) bad s
/-- EN_FILL. -/
def execEnFill (gd : Guard) (src : Src) (s : State) : Host.Outcome State Fault Refusal := asStep (slotEnFill gd src s) s

/-- en.status: code and detail of one of the wave's last 16 commands (R228). -/
def slotEnStatus (gd : Guard) (src : Src) : Slot := withReal gd src fun m s =>
  let (code, detail) := match m.x.cmds.find? fun (t, _, _) => t == m.enT with
    | some (_, c, d) => (c, d)
    | none => (4, 0)
  .ok (s.start m.w .en [.res, .st] m.en 4 fun _ => ⟨BitVec.ofNat 32 code, 0, BitVec.ofNat 32 detail⟩)
/-- EN_STATUS. -/
def execEnStatus (gd : Guard) (src : Src) (s : State) : Host.Outcome State Fault Refusal := asStep (slotEnStatus gd src s) s

/-! Peer packages (R301, R404, R405). -/

/-- The answer to a packet: of an enqueue, its status and result; of a transfer, a fault cause or 0, and the bytes read. -/
def State.peerAnswer (s : State) (id code data : Nat) : State :=
  match Map.find? s.packets id with
  | none => s
  | some p =>
    let s := { s with packets := Map.erase s.packets id }
    match p.op, p.cmd with
    | some q, _ => (match s.qop? q with
      | some o => ((s.quPerformed o).setQop q { o with res := BitVec.ofNat 32 data, st := BitVec.ofNat 32 code }).after 0 .queueAnswer [q]
      | none => s)
    | none, some k =>
      let n (i : Nat) : Nat := p.args.getD i 0
      if ((s.cmd? k).map (·.code)).getD 1 != 0 then s
      else if code != 0 then s.engFault k (n 2) code (if n 1 = 0 then n 3 else n 4)
      else if n 1 = 0 then s.engData k (n 2) (n 3) (n 4) (n 5) data
      else s.pieceDone k
    | none, none => s

/-- The stored forms of an enqueue, from its words: each field mask tells how many words follow it (R210, R211). -/
def packedForms : Nat → List Nat → List (List Word)
  | 0, _ => []
  | _, [] => []
  | fuel + 1, fm :: ws =>
    let n := popCount8 (fm % 256)
    ((fm :: ws.take n).map (BitVec.ofNat 32)) :: packedForms fuel (ws.drop n)

/-- The packet at the head of a peer link's order leaves, in the flits from the first free one on; a link that carries nothing keeps it (R403, R404). A
reply that has left is the outside world's; any other packet has its answer after the round trip of R405 at the earliest, or its time-out. -/
def State.peerLeave (s : State) (l : Nat) : State :=
  let k := s.link l
  match k.entry with
  | [] => s
  | n :: rest =>
    let f := max k.next (k.flitAt s.now)
    if !k.up then s
    else if k.beatCycle (8 * f) != s.now then s.armPeer l
    else match Map.find? s.packets n with
      | none => (s.modLink l fun k => { k with entry := rest }).armPeer l
      | some p =>
        let m := p.flits
        let s := s.modLink l fun k => { k with entry := rest, next := f + m }
        let late := k.beatCycle (8 * (f + m) - 1) + 1 - s.now - m
        let s := if p.reply then { s with packets := Map.erase s.packets n, peerSent := (l, p.args) :: s.peerSent }
          else { s with packets := Map.put s.packets n { p with flit := some f, earliest := s.now + late + p.due } }.after (2 ^ 20) .peerTimeout [n, f]
        (s.armPeer l).testWake l

/-- A packet reaches its peer link, behind the others; one of a wave's operation only in its turn (R278, R404). -/
def State.peerEnter (s : State) (n : Nat) : State :=
  match Map.find? s.packets n with
  | none => s
  | some p =>
    let waits := ((p.op.bind s.qop?).map fun o => (o.wave.map fun w => (s.wave w).mustWait o.op).getD false).getD false
    if waits then s.after 1 .peerPacket [0, n]
    else
      let s := s.modLink p.link fun k => { k with entry := k.entry ++ [n] }
      (if s.linkUp p.link then s.armPeer p.link else s).testWake p.link

/-- The home of a byte that a peer names, and its address, if it translates with the right needed (R404). -/
def State.peerHome (s : State) (die part va : Nat) (write : Bool) : Option (Nat × Nat) :=
  (s.devAddr die part va write).map fun pa => (s.home die pa, pa)

/-- The fault cause of an access that a peer names and that may not be made: its page does not permit it, or there is none (R404). -/
def State.peerCause (s : State) (die part va : Nat) : Nat := match s.devXlate die part va with | .page _ => 0x05 | _ => 0x03

/-- PEER_PACKET: 0, a packet of this package reaches its peer link (R403); 6, the link's next packet leaves; 1, an answer comes: packet, status or fault
cause, result or bytes; 2, a peer's enqueue enters on a die: package, its number of the transfer, issuing partition, handle, the words of its 1 to 32
stored forms; 3, a peer's write enters: package, number, partition, address, length, bytes; 4, a peer's read: package, number, partition, address, length.
A write, or the line of a read, goes by the ring to its home (7, 8), and the answer back (9). (DEDUCED, log 25) -/
def State.peerPacket (s : State) (a : List Nat) : State :=
  let n (k : Nat) : Nat := a.getD k 0
  let reply (s : State) (code size data : Nat) : State := s.sendReply (n 1) (n 2) (n 3) code size data
  match n 0 with
  | 0 => s.peerEnter (n 1)
  | 6 => s.peerLeave (n 1)
  | 1 => match Map.find? s.packets (n 1) with
    | some p => if p.flit.isNone then s else if s.now < p.earliest then s.at_ p.earliest .peerPacket a else s.peerAnswer (n 1) (n 2) (n 3)
    | none => s
  | 2 =>
    let forms := packedForms 32 (a.drop 6)
    s.sendQueue (n 1) { QuOp.blank with kind := .enq, handle := BitVec.ofNat 64 (n 5 % 2 ^ 38), part := n 4, count := forms.length, forms := forms,
                                         peer := some (n 1, n 2, n 3) } (2 * (forms.length - 1))
  | 3 => match s.devTask (n 1) [(n 4, n 5, n 6, 0)] .peerPacket (a.take 8) with
    | (false, s) => s
    | (true, s) => match s.peerHome (n 1) (n 4) (n 5) true with
      | some (h, _) => s.after (180 * ringDist (n 1) h) .peerPacket ([7] ++ (a.take 8).drop 1)
      | none => reply s (s.peerCause (n 1) (n 4) (n 5)) 0 0
  | 4 => match s.devTask (n 1) [(n 4, n 5, n 6, 0)] .peerPacket (a.take 7) with
    | (false, s) => s
    | (true, s) => match s.devXlate (n 1) (n 4) (n 5) with
      | .page p => if p.r then s.readLine (n 1) (p.addr (n 5)) p.coh p.hb ([8] ++ (a.take 7).drop 1) else reply s (s.peerCause (n 1) (n 4) (n 5)) 0 0
      | _ => reply s (s.peerCause (n 1) (n 4) (n 5)) 0 0
  | 7 => match s.devReady (n 1) (n 4) (n 5) (n 6) with
    | (0, s) => match s.peerHome (n 1) (n 4) (n 5) true with
      | some (h, _) => (s.devStore (n 1) (n 4) (n 5) (toBytes (n 6) (n 7))).after (180 * ringDist (n 1) h) .peerPacket [9, n 1, n 2, n 3]
      | none => reply s (s.peerCause (n 1) (n 4) (n 5)) 0 0
    | (d + 1, s) => s.after (d + 1) .peerPacket a
  | 8 => match s.peerHome (n 1) (n 4) (n 5) false with
    | some (_, pa) => if (s.line (pa / 128)).poison && (s.scratchAt pa).isNone then reply s 0x0C 0 0 else reply s 0 (n 6) (s.read pa (n 6))
    | none => reply s (s.peerCause (n 1) (n 4) (n 5)) 0 0
  | 9 => reply s 0 0 0
  | _ => s

/-- PEER_TIMEOUT: the peer has not answered in 2^20 cycles: FAULT 0x21, or OFFLINE (R405). -/
def State.peerTimeout (s : State) (id f : Nat) : State :=
  match Map.find? s.packets id with
  | some p => if p.flit = some f then s.peerAnswer id (if p.op.isSome then 5 else 0x21) 0 else s
  | none => s

/-- HOME_OFFLINE: 0, of a drawer request; 1, of a part of an access; 2, of a piece of an engine command; 3, of another read of the device: sent
again once the die's table names another home (R417). -/
def State.offlineReply (s : State) (a : List Nat) : State :=
  let n (k : Nat) : Nat := a.getD k 0
  match n 0 with
  | 0 => s.homeOffline (n 1)
  | 1 => s.askAgain (n 1) (n 2) (n 3) (n 4)
  | 3 => if s.home (n 2) (n 3) = n 1 then s.after 1 .homeOffline a else s.readLine (n 2) (n 3) (n 4) false (a.drop 5)
  | _ => match s.cmd? (n 2) with
    | some c => if s.home c.die (n (if n 3 = 1 then 8 else 9)) = n 1 then s.after 1 .homeOffline a else s.after 0 .engineLineTransfer (a.drop 2)
    | none => s

/-- ENGINE_LINE_TRANSFER: command, step, and the piece (R230). -/
def execEngineLineTransfer (s : State) : Host.Outcome State Fault Refusal := .next (s.engineLine s.ev)
/-- RELEASE_POINT: command (R226). -/
def execReleasePoint (s : State) : Host.Outcome State Fault Refusal := .next (s.releasePoint (s.arg 0))
/-- PEER_PACKET (R404). (DESIGN CHOICE, log 90) -/
def execPeerPacket (s : State) : Host.Outcome State Fault Refusal := .next (s.peerPacket s.ev)
/-- PEER_TIMEOUT: packet, its first flit (R405). -/
def execPeerTimeout (s : State) : Host.Outcome State Fault Refusal := .next (s.peerTimeout (s.arg 0) (s.arg 1))
/-- HOME_OFFLINE (R417). -/
def execHomeOffline (s : State) : Host.Outcome State Fault Refusal := .next (s.offlineReply s.ev)

end Sys2Proof.Machine
end

