-- ==== Sys2Proof/Machine/Special.lean ====
section
/-! DEFINITION. The special functions xf (R138, R139). -/
namespace Sys2Proof.Machine

/-- An xf operation on one input: a NaN follows R133, an infinity and a finite value what the function gives them. -/
def xf1 (lat : Nat) (gd : Guard) (src : Src) (ofInf : Bool → LaneOut) (ofFin : Exact → LaneOut) : Slot :=
  laneOp .xf lat gd src (in1 fun a => match ofFp32 a with
    | .nan _ => arith [a] .rne false none
    | .inf s => ofInf s
    | .fin x => ofFin x)

/-- A result without flags, an invalid operation, and an exact infinity from finite operands (R139). -/
def xfExact (v : Word) : LaneOut := fpOut v 0
def xfInvalid : LaneOut := fpOut defaultNan (fpFlags true false false false false)
def xfPole (neg : Bool) : LaneOut := fpOut (fpInf neg) (fpFlags false true false false false)
def fpOne (neg : Bool) : Word := if neg then 0xBF800000#32 else 0x3F800000#32
/-- A rounded exact result, and a rounded transcendental one (R132, R138). -/
def xfRound (x : Exact) : LaneOut := arithFin x .rne false false
def xfApprox (x : Exact) : LaneOut := arithFin x .rne false true
/-- A rounded square root of R138: exact, or standing in for an irrational one. -/
def xfRoot (r : Exact × Bool) : LaneOut := arithFin r.1 .rne false (!r.2)

/-- a / b (R138, R139). The zero that 0 divided by a finite number gives has the sign of the quotient. (DEDUCED, log 121) -/
def divOut (a b : Word) : LaneOut :=
  if isNan a || isNan b then arith [a, b] .rne false none
  else match ofFp32 a, ofFp32 b with
  | .inf _, .inf _ => xfInvalid
  | .inf s, .fin y => xfExact (fpInf (s != y.neg))
  | .fin x, .inf t => xfExact (fpZero (x.neg != t))
  | .fin x, .fin y =>
    if y.isZero then (if x.isZero then xfInvalid else xfPole (x.neg != y.neg))
    else if x.isZero then xfExact (fpZero (x.neg != y.neg))
    else xfRound ⟨x.neg != y.neg, x.num * y.den, x.den * y.num⟩
  | _, _ => xfInvalid

/-- 2^a for finite a: exact for an integer; a beyond ±200 over- or underflows as ±200 does. -/
def exp2Out (x : Exact) : LaneOut :=
  let m := min (x.num / x.den) 200
  let r := if x.num / x.den ≤ 200 then x.num % x.den else 0
  let one : Exact := ⟨false, 1, 1⟩
  if r = 0 then xfRound (one.scale (if x.neg then -(m : Int) else m))
  else
    let f := toFix r x.den
    let y := if x.neg then fixOne - f else f
    let k : Int := if x.neg then -(m : Int) - 1 else m
    xfApprox ((ofFix false (fixExp (y * fixLn2 / fixOne))).scale k)

/-- log2 a for finite a (R139): exact for a power of two. -/
def log2Out (x : Exact) : LaneOut :=
  if x.isZero then xfPole true
  else if x.neg then xfInvalid
  else
    let k := floorLog2 x.num x.den
    let m := x.scale (-k)
    if m.num = m.den then xfRound (Exact.ofInt k)
    else
      let l := 2 * fixAtanh (toFix (m.num - m.den) (m.num + m.den)) * fixOne / fixLn2
      let v : Int := k * fixOne + l
      xfApprox (ofFix (decide (v < 0)) v.natAbs)

/-- sin(π r) for a fraction r of a half-turn below 1, by symmetry about 1/2. -/
def sinHalfTurn (num den : Nat) : Nat :=
  let n := if 2 * num ≤ den then num else den - num
  fixSin (toFix n den * fixPi / fixOne)

/-- sin(π a) (R139). -/
def sinpiOut (x : Exact) : LaneOut :=
  let n := x.num / x.den
  let r := x.num % x.den
  if r = 0 then xfExact (fpZero x.neg)
  else
    let neg := x.neg != decide (n % 2 = 1)
    if 2 * r = x.den then xfExact (fpOne neg) else xfApprox (ofFix neg (sinHalfTurn r x.den))

/-- cos(π a) = sin(π (a + 1/2)) for the magnitude of a (R139). -/
def cospiOut (x : Exact) : LaneOut :=
  let num := 2 * x.num + x.den
  let den := 2 * x.den
  let n := num / den
  let r := num % den
  let neg := decide (n % 2 = 1)
  if r = 0 then xfExact (fpZero false)
  else if 2 * r = den then xfExact (fpOne neg)
  else xfApprox (ofFix neg (sinHalfTurn r den))

/-- The magnitude of an argument, at most `n`: beyond it tanh, sigm and silu round as they do at `n`. -/
def clampMag (x : Exact) (n : Nat) : Nat := if n * x.den ≤ x.num then n * fixOne else toFix x.num x.den

/-- tanh a = (1 − e^(−2|a|)) / (1 + e^(−2|a|)), with the sign of a; below 2^−60 in magnitude a − a³/3. -/
def tanhOut (x : Exact) : LaneOut :=
  if x.isZero then xfExact (fpZero x.neg)
  else if x.absLt (-60) then
    let c : Exact := ⟨!x.neg, x.num * x.num * x.num, 3 * x.den * x.den * x.den⟩
    xfApprox (x.add c)
  else
    let e := fixExpNeg (2 * clampMag x 200)
    xfApprox (ofFix x.neg ((fixOne - e) * fixOne / (fixOne + e)))

/-- 1 / (1 + e^(−a)) (R138). -/
def sigmFix (x : Exact) : Nat :=
  let e := fixExpNeg (clampMag x 250)
  if x.neg then e * fixOne / (fixOne + e) else fixOne * fixOne / (fixOne + e)
def sigmOut (x : Exact) : LaneOut := if x.isZero then xfExact 0x3F000000#32 else xfApprox (ofFix false (sigmFix x))

/-- silu: v / (1 + e^(−v)), correctly rounded (R252). -/
def silu (v : Word) : Word :=
  match ofFp32 v with
  | .nan _ => v
  | .inf neg => if neg then fpZero true else v
  | .fin x =>
    if x.isZero then v
    else
      let s := sigmFix x
      let s := if s = 0 then 1 else s
      (xfApprox ⟨x.neg, x.num * s, x.den * fixOne⟩).res

/-- xf.rcp (R138, R139): Correctly rounded reciprocal. -/
def slotXfRcp (gd : Guard) (src : Src) : Slot := xf1 12 gd src (fun s => xfExact (fpZero s)) fun x => if x.isZero then xfPole x.neg else xfRound ⟨x.neg, x.den, x.num⟩
/-- xf.rcp on its own. -/
def execXfRcp (gd : Guard) (src : Src) (s : State) : Host.Outcome State Fault Refusal := asStep (slotXfRcp gd src s) s

/-- xf.rsqrt (R138, R139): Correctly rounded reciprocal square root. -/
def slotXfRsqrt (gd : Guard) (src : Src) : Slot := xf1 12 gd src (fun s => if s then xfInvalid else xfExact (fpZero false)) fun x =>
  if x.isZero then xfPole x.neg else if x.neg then xfInvalid else xfRoot (sqrtX x.den x.num)
/-- xf.rsqrt on its own. -/
def execXfRsqrt (gd : Guard) (src : Src) (s : State) : Host.Outcome State Fault Refusal := asStep (slotXfRsqrt gd src s) s

/-- xf.sqrt (R138, R139): Correctly rounded square root. -/
def slotXfSqrt (gd : Guard) (src : Src) : Slot := xf1 16 gd src (fun s => if s then xfInvalid else xfExact (fpInf false)) fun x =>
  if x.isZero then xfExact (fpZero x.neg) else if x.neg then xfInvalid else xfRoot (sqrtX x.num x.den)
/-- xf.sqrt on its own. -/
def execXfSqrt (gd : Guard) (src : Src) (s : State) : Host.Outcome State Fault Refusal := asStep (slotXfSqrt gd src s) s

/-- xf.div (R138, R139): Correctly rounded division. -/
def slotXfDiv (gd : Guard) (src : Src) : Slot := laneOp .xf 20 gd src (in2 .xf divOut)
/-- xf.div on its own. -/
def execXfDiv (gd : Guard) (src : Src) (s : State) : Host.Outcome State Fault Refusal := asStep (slotXfDiv gd src s) s

/-- xf.exp2 (R138, R139): Correctly rounded 2^a. -/
def slotXfExp2 (gd : Guard) (src : Src) : Slot := xf1 12 gd src (fun s => xfExact (if s then fpZero false else fpInf false)) exp2Out
/-- xf.exp2 on its own. -/
def execXfExp2 (gd : Guard) (src : Src) (s : State) : Host.Outcome State Fault Refusal := asStep (slotXfExp2 gd src s) s

/-- xf.log2 (R138, R139): Correctly rounded log2 a. -/
def slotXfLog2 (gd : Guard) (src : Src) : Slot := xf1 12 gd src (fun s => if s then xfInvalid else xfExact (fpInf false)) log2Out
/-- xf.log2 on its own. -/
def execXfLog2 (gd : Guard) (src : Src) (s : State) : Host.Outcome State Fault Refusal := asStep (slotXfLog2 gd src s) s

/-- xf.sinpi (R138, R139): Correctly rounded sin(πa). -/
def slotXfSinpi (gd : Guard) (src : Src) : Slot := xf1 12 gd src (fun _ => xfInvalid) sinpiOut
/-- xf.sinpi on its own. -/
def execXfSinpi (gd : Guard) (src : Src) (s : State) : Host.Outcome State Fault Refusal := asStep (slotXfSinpi gd src s) s

/-- xf.cospi (R138, R139): Correctly rounded cos(πa). -/
def slotXfCospi (gd : Guard) (src : Src) : Slot := xf1 12 gd src (fun _ => xfInvalid) cospiOut
/-- xf.cospi on its own. -/
def execXfCospi (gd : Guard) (src : Src) (s : State) : Host.Outcome State Fault Refusal := asStep (slotXfCospi gd src s) s

/-- xf.tanh (R138, R139): Correctly rounded tanh a. -/
def slotXfTanh (gd : Guard) (src : Src) : Slot := xf1 12 gd src (fun s => xfExact (fpOne s)) tanhOut
/-- xf.tanh on its own. -/
def execXfTanh (gd : Guard) (src : Src) (s : State) : Host.Outcome State Fault Refusal := asStep (slotXfTanh gd src s) s

/-- xf.sigm (R138, R139): Correctly rounded logistic sigmoid. -/
def slotXfSigm (gd : Guard) (src : Src) : Slot := xf1 12 gd src (fun s => xfExact (if s then fpZero false else fpOne false)) sigmOut
/-- xf.sigm on its own. -/
def execXfSigm (gd : Guard) (src : Src) (s : State) : Host.Outcome State Fault Refusal := asStep (slotXfSigm gd src s) s

end Sys2Proof.Machine
end

