-- ==== Sys2Proof/Machine/Matrix.lean ====
section
/-! DEFINITION. The matrix engine: the baton, accumulators, dense and sparse operations, retiring, the epilogue, and ABFT
(R232 to R258). -/
namespace Sys2Proof.Machine

/-! Checks (R236, R246, R247). -/

/-- Whether the issuing wave holds the baton. -/
def State.isHolder (s : State) (w : Nat) : Bool :=
  match (s.clover (cloverOf w)).baton with
  | some (v, _, _) => v == w
  | none => false

/-- BATON, MX_HAZARD and ENGINE at the slot; TINFO of such an ENGINE is 0, tag and cause alike. (DESIGN CHOICE, log 125) -/
def MoveIn.batonTrap (m : MoveIn) : SlotRes := m.trap 0x0B m.real 0
def MoveIn.hazardTrap (m : MoveIn) : SlotRes := m.trap 0x0A m.real 0
def MoveIn.mxTrap (m : MoveIn) : SlotRes := m.trap 0x13 m.real 0

/-- An mma, mms or epi less than 4 cycles after the clover's previous one (R247). -/
def State.mxShort (s : State) (c : Nat) : Bool :=
  match (s.clover c).lastMx with
  | some t => decide (s.now < t + 4)
  | none => false

/-- An operation of the baton holder alone (R236). -/
def mxHeld (gd : Guard) (src : Src) (f : MoveIn → Slot) : Slot := withReal gd src fun m s =>
  if s.isHolder m.w then f m s else m.batonTrap

/-- Ports of an operation that is over in the next cycle: 0 and 0 (R248). -/
def mxDone (m : MoveIn) (s : State) : State := s.start m.w .mx [.res, .st] m.en 1 fun _ => ⟨0, 0, 0⟩

def State.modTlc (s : State) (w : Nat) (f : Nat → Nat) : State := s.modWave w (·.mapCtx fun c => { c with tlc := f c.tlc })

/-! The baton (R234, R235). -/

/-- The request the arbiter chooses: highest priority, then the one that entered the table earliest. -/
def Clover.choose (k : Clover) : Option MxReq :=
  k.table.foldl (fun b r => match b with
    | some q => if q.prio < r.prio ∨ (q.prio = r.prio ∧ r.entered < q.entered) then some r else b
    | none => some r) none

/-- Posts a request: into the table, or behind it when it is full (R234). -/
def State.mxPost (s : State) (w op : Nat) (lanes : Mask) (prio : Nat) : State :=
  let c := cloverOf w
  let r : MxReq := { wave := w, op := op, lanes := lanes, prio := prio, entered := s.now, since := s.now }
  let s := (s.modClover c fun k => { k with waiting := k.waiting ++ [r] }).mxAdmit c
  let k := s.clover c
  if k.baton.isNone && !k.granting then (s.setClover c { k with granting := true }).after 4 .batonGrant [c] else s

/-- BATON_GRANT (R235): mx.st becomes ready with 0, and the pass begins (R237). -/
def State.batonGrant (s : State) (c : Nat) : State :=
  let k := { s.clover c with granting := false }
  match k.baton, k.choose with
  | none, some r =>
    let l := (s.wave r.wave).launch
    let max := ((s.launch? l).map fun l => l.lrec.maxpass).getD (2 ^ 24)
    let s := (s.setClover c { k with baton := some (r.wave, l, s.now), table := k.table.filter (· != r) }).mxAdmit c
    let s := s.modWave r.wave fun x =>
      x.mapCtx (·.deliver r.op { unit := .mx, lanes := r.lanes, vals := [], ports := [portVec .mx .st] })
    s.after (max + 1) .watchdog [c, s.now]
  | _, _ => s.setClover c k

/-- AGING_PROMOTION: a request has waited 65,536 cycles at its priority (R235). -/
def State.agePromote (s : State) (c w stamp : Nat) : State :=
  let k := s.clover c
  match k.table.find? fun r => r.wave == w && r.since == stamp && decide (r.prio < 3) with
  | some r =>
    let q := { r with prio := r.prio + 1, since := s.now }
    let s := s.setClover c { k with table := k.table.map fun p => if p = r then q else p }
    if q.prio < 3 then s.after 65536 .agingPromotion [c, w, s.now] else s
  | none => s

/-- mx.req (R234). It is the latest operation of the unit, and gives st alone: res, if an older ret or epi has not made it ready, stays as it
is until another operation does. (DEDUCED, log 24; DESIGN CHOICE, log 96) -/
def slotMxReq (gd : Guard) (src : Src) : Slot := withReal gd src fun m s =>
  let t := m.tw m.low
  let p := wfield t 1 0
  let c := cloverOf m.w
  let k := s.clover c
  let mine (r : MxReq) : Bool := r.wave == m.w
  let again (s : State) : SlotRes := .ok (s.start m.w .mx [.st] m.en 1 fun _ => ⟨0, 0, 1⟩)
  if wfield t 31 2 != 0 then m.mxTrap
  else if s.isHolder m.w then again s
  else if (k.table ++ k.waiting).any mine then
    let up (r : MxReq) : MxReq := if mine r && decide (r.prio < p) then { r with prio := p, since := s.now } else r
    let s' := s.setClover c { k with table := k.table.map up, waiting := k.waiting.map up }
    let grew := k.table.any fun r => mine r && decide (r.prio < p)
    again (if grew && decide (p < 3) then s'.after 65536 .agingPromotion [c, m.w, s.now] else s')
  else
    let x := s.wave m.w
    let n := x.nextOp
    .ok ((s.setWave m.w (x.begin .mx [.st] m.en)).mxPost m.w n m.en p)
/-- MX_REQ. -/
def execMxReq (gd : Guard) (src : Src) (s : State) : Host.Outcome State Fault Refusal := asStep (slotMxReq gd src s) s

/-- Releases the baton once every ret and epi has read its accumulator (R236). (DEDUCED, log 35) -/
def State.relBaton (s : State) (c : Nat) : State :=
  let t := (s.clover c).ops.foldl (fun t (_, o) => if o.kind = 0 then t else max t o.start) s.now
  if t = s.now then s.freeBaton c else (s.modClover c fun k => { k with releasing := true }).at_ t .batonRelease [c]

/-- mx.rel (R236). -/
def slotMxRel (gd : Guard) (src : Src) : Slot := mxHeld gd src fun m s =>
  if (s.clover (cloverOf m.w)).live.isEmpty then .ok ((mxDone m s).relBaton (cloverOf m.w)) else m.batonTrap
/-- MX_REL. -/
def execMxRel (gd : Guard) (src : Src) (s : State) : Host.Outcome State Fault Refusal := asStep (slotMxRel gd src s) s

/-! Accumulators (R238). -/

/-- The word of an accumulator as the operations triggered so far will leave it. -/
def Clover.word (k : Clover) (a i : Nat) : Word :=
  match (k.ops.filter fun (_, o) => o.kind == 0 && o.acc == a).reverse.findSome? fun (_, o) => Map.find? o.vals i with
  | some v => v
  | none => Map.get 0 k.acc (2048 * a + i)

/-- All 2,048 words of an accumulator. -/
def Clover.words (k : Clover) (a : Nat) : Map Word := (List.range 2048).foldl (fun m i => Map.set 0 m i (k.word a i)) []

/-- The exact value of a finite FP32 word, in multiples of 2^-600. -/
def fp32Fixed (v : Word) : Option Int :=
  match ofFp32 v with
  | .fin x => some x.fixed
  | _ => none

/-! Operands (R241, R242, R244). -/

/-- The widths a slot is accepted with: both formats alike, and no FP32 (R239). -/
def FmtSlot.accepted (sl : FmtSlot) : Bool := sl.afmt != .fp32 && sl.bfmt != .fp32 && sl.afmt.width == sl.bfmt.width
/-- K of R239. -/
def FmtSlot.k (sl : FmtSlot) : Nat := 512 / sl.afmt.width
/-- Sub-blocks of a sparse operand, and their size. -/
def FmtSlot.subs (sl : FmtSlot) : Nat := 16 / sl.afmt.width
def FmtSlot.subBytes (sl : FmtSlot) : Nat := 640 + 64 * sl.afmt.width * 4

/-- `n` bytes of the B-store. -/
def Clover.bRead (k : Clover) (a n : Nat) : Nat := ofBytes (Memory.readAll k.bstore a n)
/-- Element `e` of an array of `w`-bit elements in the B-store. -/
def Clover.bElem (k : Clover) (a w e : Nat) : Nat := k.bRead (a + e * w / 8) 2 / 2 ^ (e * w % 8) % 2 ^ w

/-- What an mma or mms reads: the control word, A rows, and the scale codes. -/
structure MxIn where
  sl : FmtSlot
  d : Word
  a : Nat
  stride : Nat
  b : Nat
  sparse : Bool
deriving DecidableEq, Repr

def MxIn.acc (i : MxIn) : Nat := wfield i.d 1 0
/-- Bytes of an A row, and blocks of 32 elements it covers. -/
def MxIn.rowBytes (i : MxIn) : Nat := if i.sparse then 256 else 64
def MxIn.blocks (i : MxIn) : Nat := if i.sparse then 4 * i.sl.subs else i.sl.k / 32
def MxIn.scaleA (i : MxIn) (r h : Nat) : Nat := wfield i.d 15 4 * 128 + 16 * r + h
def MxIn.scaleB (i : MxIn) (j h : Nat) : Nat := wfield i.d 31 16 * 256 + 16 * j + h

/-- The live groups of a sub-block's bitmap, ascending (R244). -/
def liveGroups (bm : Nat) : List Nat := (List.range 32).filter fun g => bm / 2 ^ g % 2 = 1
/-- The index nibble of live group `g'` in column `j`. -/
def Clover.nibble (k : Clover) (base g j : Nat) : Nat := k.bRead (base + 128 + 32 * g + j / 2) 1 / 2 ^ (4 * (j % 2)) % 16

/-- Whether a sparse operand's headers are sound (R244). -/
def Clover.sparseOk (k : Clover) (i : MxIn) : Bool :=
  (List.range i.sl.subs).all fun t =>
    let base := i.b + t * i.sl.subBytes
    (liveGroups (k.bRead base 4)).length == 16 &&
      (List.range 16).all fun g => (List.range 64).all fun j => let n := k.nibble base g j; decide (n % 4 < n / 4)

/-- The terms of a row and column (R243, R245): position and value codes with their scales. -/
def State.mxTerms (s : State) (k : Clover) (team : Nat) (i : MxIn) (r : Nat) : Nat → List Term :=
  let row := s.scrRead team (i.a + r * i.stride) i.rowBytes
  let sa (h : Nat) : Nat := if i.sl.scaled then s.scrRead team (i.scaleA r h) 1 else 127
  fun j =>
    let sb (h : Nat) : Nat := if i.sl.scaled then k.bRead (i.scaleB j h) 1 else 127
    let w := i.sl.afmt.width
    if i.sparse then
      (List.range i.sl.subs).flatMap fun t =>
        let base := i.b + t * i.sl.subBytes
        (liveGroups (k.bRead base 4)).zipIdx.flatMap fun (g, g') =>
          let n := k.nibble base g' j
          [n % 4, n / 4].zipIdx.map fun (x, v) =>
            let p := 128 * t + 4 * g + x
            { a := element i.sl.afmt row p, b := k.bElem (base + 640) w ((64 * g' + j) * 2 + v), sa := sa (p / 32), sb := sb (p / 32) }
    else (List.range i.sl.k).map fun e =>
      { a := element i.sl.afmt row e, b := k.bElem (i.b + 64 * j) w e, sa := sa (e / 32), sb := sb (e / 32) }

/-- The exact sum of a list of terms, where every one of them is a number. -/
def termsFixed (fa fb : Fmt) (ts : List Term) : Option Int :=
  ts.foldl (fun s t => match s, Term.nan? fa fb t, Term.product fa fb t with
    | some s, none, some (.fin x) => some (s + x.fixed)
    | _, _, _ => none) (some 0)

/-- The checksum of a column after one more word of it has been computed (R256). (DESIGN CHOICE, log 23) -/
def Abft.note (f : Abft) (sl : FmtSlot) (key : Nat) (c old new : Word) (ts : List Term) : Abft :=
  if sl.accInt then
    { f with csI := Map.set 0 f.csI key (Map.get 0 f.csI key + c - old + dotInt sl.afmt sl.bfmt 0 ts) }
  else match fp32Fixed c, fp32Fixed old, termsFixed sl.afmt sl.bfmt ts with
    | some c, some o, some t =>
      let tol : Int := match fp32Fixed new with | some n => (n.natAbs : Int) / 2 ^ 24 + 2 ^ 450 | none => 0
      { f with cs := Map.set 0 f.cs key (Map.get 0 f.cs key + (c - o + t)), tau := Map.set 0 f.tau key (Map.get 0 f.tau key + tol) }
    | _, _, _ => { f with bad := if f.bad.contains key then f.bad else f.bad ++ [key] }

/-- The words an mma or mms writes, and what it does to the checksums (R243, R245, R256). -/
def State.mxCompute (s : State) (team : Nat) (k : Clover) (i : MxIn) (rows : Mask) (f : Option Abft) : Map Word × Option Abft :=
  (lanesOf rows).foldl (fun (vals, f) r =>
    let terms := s.mxTerms k team i r
    (List.range 64).foldl (fun ((vals, f) : Map Word × Option Abft) j =>
      let old := k.word i.acc (64 * r + j)
      let c := if i.d.getLsbD 2 then 0 else old
      let ts := terms j
      let new := if i.sl.accInt then dotInt i.sl.afmt i.sl.bfmt c ts else (dotSum i.sl.afmt i.sl.bfmt c ts).code
      (Map.put vals (64 * r + j) new, f.map fun f => f.note i.sl (64 * (r / 8) + j) c old new ts)) (vals, f)) ([], f)

/-- An mma or mms (R240 to R246). (DEDUCED, log 83; DESIGN CHOICE, log 124) -/
def mxMul (sparse : Bool) (gd : Guard) (n : Fin 8) (src : Src) : Slot := mxHeld gd src fun m s =>
  let cl := cloverOf m.w
  let k := s.clover cl
  let i : MxIn := { sl := s.slotOf m.x n.val, d := m.tw m.low, a := (m.latchW .mx .o1 m.low).toNat, stride := (m.latchW .mx .o2 m.low).toNat,
                    b := (m.latchW .mx .o3 m.low).toNat, sparse := sparse }
  let size := s.scratchOf m
  let bLen := if sparse then i.sl.subs * i.sl.subBytes else 4096
  let bad := i.d.getLsbD 3 || !i.sl.accepted || i.b % 128 != 0 || decide (12582912 < i.b + bLen) ||
    (i.sl.scaled && decide (12582912 < i.scaleB 0 0 + 1024)) || (sparse && !k.sparseOk i)
  let out := maskWhere fun r => m.real.getLsbD r &&
    (decide (size < i.a + r * i.stride + i.rowBytes) || (i.sl.scaled && decide (size < i.scaleA r 0 + i.blocks)))
  let low := (lowest out).getD 0
  if s.mxShort cl then m.hazardTrap
  else if bad then m.mxTrap
  else if out != 0 then
    m.trap 0x07 out (BitVec.ofNat 64 (if size < i.a + low * i.stride + i.rowBytes then i.a + low * i.stride else i.scaleA low 0))
  else if i.a % 64 != 0 || i.stride % 64 != 0 then m.trap 0x06 m.real (BitVec.ofNat 64 i.a)
  else
    let f := (Map.find? k.abft i.acc).bind fun f => if f.on then some { f with kinds := if f.kinds.contains i.sl.accInt then f.kinds else f.kinds ++ [i.sl.accInt] } else none
    let (vals, f') := s.mxCompute m.x.team k i m.real f
    let id := k.nextOp
    let o : MxOp := { wave := some m.w, kind := 0, acc := i.acc, op := 0, lanes := m.en, start := s.now, vals := vals, base := 0, slot := 0, ctl := 0,
                      dstr := 0, scales := [], biases := [], check := none, cmd := 0, ovf := 0, chunks := 0, status := 0 }
    let s := mxDone m s
    let s := s.setClover cl { k with
      ops := Map.put k.ops id o, nextOp := id + 1, lastMx := some s.now, accTill := Map.put k.accTill i.acc (s.now + 16)
      live := if k.live.contains i.acc then k.live else k.live ++ [i.acc]
      abft := match f' with | some f => Map.put k.abft i.acc f | none => k.abft }
    .ok ((s.modTlc m.w (· + 1)).after 16 .mmaComplete [cl, id])

/-- mx.mma: dense (R243). -/
def slotMxMma (gd : Guard) (n : Fin 8) (src : Src) : Slot := mxMul false gd n src
/-- MX_MMA. -/
def execMxMma (gd : Guard) (n : Fin 8) (src : Src) (s : State) : Host.Outcome State Fault Refusal := asStep (slotMxMma gd n src s) s

/-- mx.mms: sparse (R245). -/
def slotMxMms (gd : Guard) (n : Fin 8) (src : Src) : Slot := mxMul true gd n src
/-- MX_MMS. -/
def execMxMms (gd : Guard) (n : Fin 8) (src : Src) (s : State) : Host.Outcome State Fault Refusal := asStep (slotMxMms gd n src s) s

/-- An operation on the clover's engine ends. -/
def State.dropMx (s : State) (c id : Nat) : State := s.modClover c fun k => { k with ops := Map.erase k.ops id }

/-- MMA_COMPLETE: the accumulator is updated and TLC drops (R248). -/
def State.mmaComplete (s : State) (c id : Nat) : State :=
  match Map.find? (s.clover c).ops id with
  | none => s
  | some o =>
    let s := s.modClover c fun k => { k with acc := o.vals.foldl (fun m (i, v) => Map.set 0 m (2048 * o.acc + i) v) k.acc }
    let s := s.dropMx c id
    match o.wave with
    | some w => s.modTlc w (· - 1)
    | none => s

/-- mx.ret (R249): T is the accumulator and the first register. -/
def slotMxRet (gd : Guard) (src : Src) : Slot := mxHeld gd src fun m s =>
  let t := m.tw m.low
  let base := wfield t 15 8
  if wfield t 7 2 != 0 || wfield t 31 16 != 0 || decide (128 < base) then m.mxTrap
  else
    let cl := cloverOf m.w
    let k := s.clover cl
    let a := wfield t 1 0
    let start := max s.now (Map.get 0 k.accTill a)
    let id := k.nextOp
    let o : MxOp := { wave := some m.w, kind := 1, acc := a, op := 0, lanes := m.real, start := start, vals := k.words a, base := base, slot := 0, ctl := 0,
                      dstr := 0, scales := [], biases := [], check := none, cmd := 0, ovf := 0, chunks := 0, status := 0 }
    let s := s.start m.w .mx [.res, .st] m.en (start + 20 - s.now) fun _ => ⟨0, 0, 0⟩
    let s := s.setClover cl { k with ops := Map.put k.ops id o, nextOp := id + 1, live := k.live.filter (· != a) }
    .ok ((s.modTlc m.w (· + 1)).at_ (start + 4) .retComplete [cl, id, 0])
/-- MX_RET. -/
def execMxRet (gd : Guard) (src : Src) (s : State) : Host.Outcome State Fault Refusal := asStep (slotMxRet gd src s) s

/-- RET_COMPLETE: part q < 16 writes four registers at s + 4 + q; part 16, at s + 20, ends the operation (R248, R249). -/
def State.retComplete (s : State) (c id q : Nat) : State :=
  match Map.find? (s.clover c).ops id with
  | none => s
  | some o =>
    if q < 16 then
      let put (x : Ctx) : Ctx := (List.range 4).foldl (fun x e =>
        x.setLanes (o.base + 4 * q + e) (lanesOf o.lanes) fun l => Map.get 0 o.vals (64 * l + 4 * q + e)) x
      let s := match o.wave with
        | some w => s.modWave w (·.mapCtx put)
        | none => s
      s.after 1 .retComplete [c, id, q + 1]
    else
      let s := s.dropMx c id
      match o.wave with
      | some w => s.modTlc w (· - 1)
      | none => s

/-- mx.zero (R250). -/
def slotMxZero (gd : Guard) (src : Src) : Slot := mxHeld gd src fun m s =>
  let t := m.tw m.low
  let a := wfield t 1 0
  if wfield t 31 2 != 0 then m.mxTrap
  else
    .ok ((mxDone m s).modClover (cloverOf m.w) fun k =>
      { k with
        acc := k.acc.filter fun (i, _) => i / 2048 != a
        ops := k.ops.map fun ((i, o) : Nat × MxOp) => (i, if o.kind = 0 ∧ o.acc = a then { o with vals := [] } else o)
        live := k.live.filter (· != a), abft := Map.erase k.abft a })
/-- MX_ZERO. -/
def execMxZero (gd : Guard) (src : Src) (s : State) : Host.Outcome State Fault Refusal := asStep (slotMxZero gd src s) s

/-- Checksums of the words as they stand: exact, and modulo 2^32 (R255). -/
def Clover.checkStart (k : Clover) (a : Nat) : Abft :=
  (List.range 2048).foldl (fun f i =>
    let v := k.word a i
    let key := 64 * (i / 64 / 8) + i % 64
    let f := { f with csI := Map.set 0 f.csI key (Map.get 0 f.csI key + v) }
    match fp32Fixed v with
    | some x => { f with cs := Map.set 0 f.cs key (Map.get 0 f.cs key + x) }
    | none => { f with bad := if f.bad.contains key then f.bad else f.bad ++ [key] })
    { on := true, cs := [], csI := [], tau := [], kinds := [], bad := [], inject := [] }

/-- mx.abft (R255). -/
def slotMxAbft (gd : Guard) (src : Src) : Slot := mxHeld gd src fun m s =>
  let t := m.tw m.low
  let a := wfield t 1 0
  if wfield t 31 3 != 0 then m.mxTrap
  else .ok ((mxDone m s).modClover (cloverOf m.w) fun k =>
    { k with abft := if t.getLsbD 2 then Map.put k.abft a (k.checkStart a) else Map.erase k.abft a })
/-- MX_ABFT. -/
def execMxAbft (gd : Guard) (src : Src) (s : State) : Host.Outcome State Fault Refusal := asStep (slotMxAbft gd src s) s

/-! The epilogue (R251 to R254). -/

/-- mx.epi (R251, R253, R254). -/
def slotMxEpi (gd : Guard) (n : Fin 8) (src : Src) : Slot := mxHeld gd src fun m s =>
  let cl := cloverOf m.w
  let k := s.clover cl
  let off := (m.tw m.low).toNat
  let team := m.x.team
  let f (o b : Nat) : Nat := s.scrRead team (off + o) b
  let bits := s.slotBits m.x n.val
  let sl := FmtSlot.ofBits bits
  let size := s.scratchOf m
  let dst := f 0 8
  let ctl := BitVec.ofNat 32 (f 12 4)
  let scl := ctl.getLsbD 2
  let bias := ctl.getLsbD 3
  let narrow := decide (sl.ofmt.width ≤ 8)
  let bad := f 24 40 != 0 || wfield ctl 31 9 != 0 || wfield ctl 5 4 == 3 || (if narrow then dst % 16 != 0 else dst % 4 != 0 || f 8 4 % 4 != 0)
  let far (on : Bool) (o : Nat) : Bool := on && decide (size < o + 256)
  let odd (on : Bool) (o : Nat) : Bool := on && o % 4 != 0
  if s.mxShort cl then m.hazardTrap
  else if size < off + 64 then m.trap 0x07 m.real (BitVec.ofNat 64 off)
  else if off % 64 != 0 then m.trap 0x06 m.real (BitVec.ofNat 64 off)
  else if bad then m.mxTrap
  else if far scl (f 16 4) then m.trap 0x07 m.real (BitVec.ofNat 64 (f 16 4))
  else if far bias (f 20 4) then m.trap 0x07 m.real (BitVec.ofNat 64 (f 20 4))
  else if odd scl (f 16 4) then m.trap 0x06 m.real (BitVec.ofNat 64 (f 16 4))
  else if odd bias (f 20 4) then m.trap 0x06 m.real (BitVec.ofNat 64 (f 20 4))
  else
    let a := wfield ctl 1 0
    let vec (on : Bool) (o : Nat) : List Word := if on then (List.range 64).map fun j => BitVec.ofNat 32 (s.scrRead team (o + 4 * j) 4) else []
    let start := max s.now (Map.get 0 k.accTill a)
    let id := k.nextOp
    let (cmd, s) := s.fresh
    let c : Cmd := { m.command s 16 (BitVec.ofNat 32 (wfield ctl 7 6 * 4 + wfield ctl 8 8 * 2)) 0 (BitVec.ofNat 64 dst) 0 0 0 0 with tag := BitVec.ofNat 32 id, after := [] }
    let x := s.wave m.w
    let o : MxOp := { wave := some m.w, kind := 2, acc := a, op := x.nextOp, lanes := m.en, start := start, vals := k.words a, base := 0, slot := bits, ctl := ctl,
                      dstr := f 8 4, scales := vec scl (f 16 4), biases := vec bias (f 20 4), check := Map.find? k.abft a, cmd := cmd, ovf := 0, chunks := 0, status := 0 }
    let s := (s.setWave m.w (x.begin .mx [.res, .st] m.en)).setCmd cmd c
    let s := s.setClover cl { k with ops := Map.put k.ops id o, nextOp := id + 1, lastMx := some s.now, live := k.live.filter (· != a) }
    .ok ((s.modTlc m.w (· + 1)).at_ (start + 8) .epiChunk [cl, id, 0])
/-- MX_EPI. -/
def execMxEpi (gd : Guard) (n : Fin 8) (src : Src) (s : State) : Host.Outcome State Fault Refusal := asStep (slotMxEpi gd n src s) s

/-- The value of an accumulator word before it is stored (R252). -/
def MxOp.value (o : MxOp) (i : Nat) : Word :=
  let sl := FmtSlot.ofBits o.slot
  let u := Map.get 0 o.vals i
  let v := if sl.accInt then rneFp32 (Exact.ofInt u.toInt) else u
  let s? := o.scales[i % 64]?
  let b? := o.biases[i % 64]?
  let v := match s?, b? with
    | some s, some b => (arith [v, s, b] .rne false ((mulX (ofFp32 v) (ofFp32 s)).bind fun p => addX p (ofFp32 b))).res
    | some s, none => (arith [v, s] .rne false (mulX (ofFp32 v) (ofFp32 s))).res
    | none, some b => (arith [v, b] .rne false (addX (ofFp32 v) (ofFp32 b))).res
    | none, none => v
  match wfield o.ctl 5 4 with
  | 1 => if !isNan v && v.getLsbD 31 && v.toNat % 2 ^ 31 != 0 then 0 else v
  | 2 => silu v
  | _ => v

/-- The values of columns `j` to `j + n - 1` of a row. -/
def MxOp.row (o : MxOp) (r j n : Nat) : List Word := (List.range n).map fun e => o.value (64 * r + j + e)

/-- Packs element codes of `w` bits into bytes (R96). -/
def packCodes (w : Nat) (cs : List Nat) : List (BitVec 8) :=
  toBytes (cs.length * w / 8) (cs.zipIdx.foldl (fun n (c, i) => n + c % 2 ^ w * 2 ^ (w * i)) 0)

/-- What a chunk stores: runs of bytes at offsets from DST, and the conversions that set OVF (R252, R254). A tile's trailer goes with
chunk 3. -/
def MxOp.chunkBytes (o : MxOp) (k : Nat) : List (Nat × List (BitVec 8)) × Nat :=
  let sl := FmtSlot.ofBits o.slot
  let rows := (List.range 8).map (8 * k + ·)
  let w := sl.ofmt.width
  if 8 < w then
    let one (r : Nat) : (Nat × List (BitVec 8)) × Nat :=
      let cs := (o.row r 0 64).map fun v => if w = 32 then (⟨v.toNat, false, false⟩ : Cvt) else cvtDn (ofFp32 v) sl.ofmt sl.rnd sl.sat
      ((r * o.dstr, packCodes w (cs.map (·.code))), (cs.filter (·.ovf)).length)
    let l := rows.map one
    (l.map (·.1), (l.map (·.2)).foldl (· + ·) 0)
  else
    let grp (r h : Nat) : GroupOut := convGroup sl (o.row r (32 * h) 32)
    let gs (rs : List Nat) : List GroupOut := rs.flatMap fun r => [grp r 0, grp r 1]
    let elems (g : List GroupOut) : List (BitVec 8) := packCodes w (g.flatMap (·.codes))
    let scs (g : List GroupOut) : List (BitVec 8) := g.map fun g => BitVec.ofNat 8 g.scale
    let g := gs rows
    let body := [(8 * k * 8 * w, elems g), (256 * w + 16 * k, scs g)]
    let sat := (g.map (·.sat)).foldl (· + ·) 0
    if k = 3 ∧ sl.trl then
      let all := gs (List.range 32)
      let bytes := elems all ++ scs all
      let ws := (List.range (bytes.length / 4)).map fun i => wordAt bytes (4 * i)
      let (s1, s2) := trailerSums ws
      let total := (all.map (·.sat)).foldl (· + ·) 0
      (body ++ [(256 * w + 64, [maxAbs ((List.range 2048).map o.value), BitVec.ofNat 32 total, s1, s2].flatMap fun v => toBytes 4 v.toNat)], sat)
    else (body, sat)

/-- Cuts a run of bytes at the lines' bounds. The first argument bounds the number of parts. -/
def cutLines : Nat → Nat → List (BitVec 8) → List (Nat × List (BitVec 8))
  | 0, _, _ => []
  | _, _, [] => []
  | n + 1, a, bs => let k := 128 - a % 128; (a, bs.take k) :: cutLines n (a + k) (bs.drop k)

/-- Whether a chunk's sums fail its checksums (R257); a checksum that has met a value that is no number is an open one. -/
def MxOp.fails (o : MxOp) (f : Abft) (k : Nat) (open_ : Nat → Bool) : Bool :=
  let int := match f.kinds with | [b] => b | _ => (FmtSlot.ofBits o.slot).accInt
  f.on && decide (f.kinds.length ≤ 1) && (List.range 64).any fun j =>
    let ws := (List.range 8).map fun r => Map.get 0 o.vals (64 * (8 * k + r) + j)
    let key := 64 * k + j
    if int then (ws.foldl (· + ·) 0) != Map.get 0 f.csI key
    else if ws.any fun v => isNan v || isInf v then false
    else if f.bad.contains key then open_ j
    else
      let sum := ws.foldl (fun s v => s + (fp32Fixed v).getD 0) 0
      decide (Map.get 0 f.tau key < ((sum - Map.get 0 f.cs key).natAbs : Int))

/-- The fault of the first store of a chunk that faults, before any of it is issued (R254). (DEDUCED, log 21) -/
def State.chunkFault (s : State) (c : Cmd) (ps : List (Nat × List (BitVec 8))) : Option (Nat × Nat) :=
  ps.findSome? fun (va, _) => match s.cmdXlate c va with
    | .page p =>
      if !p.w || p.coh = 3 then some (0x05, va)
      else if (p.hb || isHostPa (p.addr va)) && decide (c.scope < 3) then some (0x20, va) else none
    | .fault => some (0x03, va)
    | _ => some (0x04, va)

/-- An epilogue ends once its stores have performed: TLC, mx.res and mx.st (R253, R254). (DEDUCED, log 22) -/
def State.epiEnd (s : State) (c id : Nat) (o : MxOp) : State :=
  if o.chunks < 4 ∧ o.status = 0 then s
  else if ((s.cmd? o.cmd).map (·.out)).getD 0 ≠ 0 then s
  else
    let s := { s.dropMx c id with cmds := Map.erase s.cmds o.cmd }
    match o.wave with
    | some w => (s.modTlc w (· - 1)).modWave w fun x =>
        x.mapCtx (·.deliver o.op (x.pending .mx [.res, .st] o.lanes fun _ => ⟨BitVec.ofNat 32 o.ovf, 0, BitVec.ofNat 32 o.status⟩))
    | none => s

/-- ABFT_MISMATCH (R257): inside a region that nothing keeps from restarting, the wave restarts in the cycle of the check, whatever its fragments
wait for, and this epilogue alone writes neither of its ports (R253, R372, R444); otherwise the trap is delivered at a bundle (R358). (DEDUCED, log 108) -/
def State.abftMismatch (s : State) (c : Cmd) (op : Nat) (info : Dword) : State :=
  let x := s.wave c.wave
  if c.alive && x.ctx.regn && !x.ctx.sup && x.region.isSome && x.traps.isEmpty && x.stop == .running then
    (s.regionRestart c.wave).modCtx c.wave fun c => { c with last := c.last.filter fun (_, k) => k != op }
  else s.engineEvent c 0x09 info

/-- The check of chunk k of an epilogue: whether it fails (R257). -/
def State.chunkCheck (s : State) (cl k : Nat) (o : MxOp) : Bool × State :=
  let live := Map.find? (s.clover cl).abft o.acc
  let checked := (o.check.map fun f => f.on && decide (f.kinds.length ≤ 1)).getD false
  let shot := checked && (live.map fun f => f.inject.contains k).getD false
  let n := s.free
  let bad := shot || ((o.check.map fun f => o.fails f k fun j => (Config.freeWord (n + j)).getLsbD 0).getD false)
  let s := if (o.check.map fun f => !f.bad.isEmpty).getD false then { s with free := n + 64 } else s
  (bad, if shot then s.modClover cl fun q => { q with abft := match Map.find? q.abft o.acc with
      | some f => Map.put q.abft o.acc { f with inject := f.inject.filter (· != k) }
      | none => q.abft } else s)

/-- An epilogue stores no further chunk (R254, R443). -/
def State.epiStop (s : State) (cl id : Nat) : State := (s.modMx cl id fun o => { o with status := 1 }).after 0 .epiChunk [cl, id, 4]

/-- The stores of a chunk that has passed its check are issued once each of their pages is at hand, so that a chunk stores all or nothing; the next chunk
follows (R254, R472). -/
def State.chunkStores (s : State) (cl id k : Nat) (o : MxOp) (c : Cmd) : State :=
  let (runs, ovf) := o.chunkBytes k
  let ps := runs.flatMap fun (off, bs) => cutLines 64 (vaAdd c.dst.toNat off) bs
  let wants (va : Nat) : Bool := (c.page va).isNone || (match s.cmdXlate c va with | .page p => p.flip | _ => false)
  let ask := ((ps.filter fun (va, _) => wants va).map fun ((va, _) : Nat × List (BitVec 8)) => (c.part, va / 2 ^ 16 * 2 ^ 16, 1, 0)).eraseDups
  match s.devTask c.die ask .epiChunk [cl, id, k, 1] with
  | (false, s) => s
  | (true, s) => match s.chunkFault c ps with
    | some (cause, va) =>
      ((s.modCmd o.cmd fun c => { c with detail := cause, fault := BitVec.ofNat 64 va }).engineEvent c 0x13 (engineInfo 0 cause)).epiStop cl id
    | none =>
      let s := s.modMx cl id fun o => { o with ovf := o.ovf + ovf, chunks := k + 1, parts := o.parts ++ [ovf] }
      let s := (s.modCmd o.cmd fun c => { c with out := c.out + ps.length }).modClover cl fun q => { q with engOut := q.engOut + ps.length }
      let s := ps.foldl (fun s (va, bs) => s.after 0 .engineLineTransfer [o.cmd, 4, k, 0, va, bs.length, ofBytes bs]) s
      if k < 3 then s.after 2 .epiChunk [cl, id, k + 1] else s

/-- EPI_CHUNK: chunk k < 4 at s + 8 + 2k is checked and its stores are issued; with 4, the stores issued so far have all performed
(R254, R257, R443). `stage` 1: it has been checked, and waited for its pages. (DEDUCED, log 21) -/
def State.epiChunk (s : State) (cl id k stage : Nat) : State :=
  match Map.find? (s.clover cl).ops id with
  | none => s
  | some o =>
    match s.cmd? o.cmd with
    | none => s
    | some c =>
      if 4 ≤ k then s.epiEnd cl id (if c.code ≠ 0 then { o with status := 1 } else o)
      else if o.status ≠ 0 then s
      else if stage = 1 then s.chunkStores cl id k o c
      else match s.chunkCheck cl k o with
        | (true, s) => (s.abftMismatch c o.op (BitVec.ofNat 64 (o.acc + 4 * k))).epiStop cl id
        | (false, s) => s.chunkStores cl id k o c

/-- BATON_GRANT: clover (R235). -/
def execBatonGrant (s : State) : Host.Outcome State Fault Refusal := .next (s.batonGrant (s.arg 0))
/-- AGING_PROMOTION: clover, wave, cycle since which it has waited (R235). -/
def execAgingPromotion (s : State) : Host.Outcome State Fault Refusal := .next (s.agePromote (s.arg 0) (s.arg 1) (s.arg 2))
/-- BATON_RELEASE: clover (R236). -/
def execBatonRelease (s : State) : Host.Outcome State Fault Refusal :=
  .next (if (s.clover (s.arg 0)).releasing then s.freeBaton (s.arg 0) else s)
/-- MMA_COMPLETE: clover, operation (R248). -/
def execMmaComplete (s : State) : Host.Outcome State Fault Refusal := .next (s.mmaComplete (s.arg 0) (s.arg 1))
/-- RET_COMPLETE: clover, operation, part (R249). -/
def execRetComplete (s : State) : Host.Outcome State Fault Refusal := .next (s.retComplete (s.arg 0) (s.arg 1) (s.arg 2))
/-- EPI_CHUNK: clover, operation, chunk, and whether it has waited for its pages (R254). -/
def execEpiChunk (s : State) : Host.Outcome State Fault Refusal := .next (s.epiChunk (s.arg 0) (s.arg 1) (s.arg 2) (s.arg 3))

end Sys2Proof.Machine
end

