-- ==== Sys2Proof/Machine/System.lean ====
section
/-! DEFINITION. The system unit sy (R259 to R276): special registers, translation maintenance, the return from a trap, the mailbox,
links, dies, injections and partition registers. -/
namespace Sys2Proof.Machine

/-! Answers (R260). -/

/-- The status codes of st (R260). -/
def syFull : Word := 2
def syDenied : Word := 4

/-- An sy operation whose answer is known: it is ready `lat` cycles on. -/
def syWrite (m : MoveIn) (lat : Nat) (res st : Word) (s : State) : State :=
  s.start m.w .sy [.res, .st] m.en lat fun _ => ⟨res, 0, st⟩

/-- An sy operation that is carried out elsewhere: its number, and its ports not ready. -/
def syBegin (m : MoveIn) (s : State) : Nat × State :=
  let x := s.wave m.w
  let k := x.nextOp
  let x := x.begin .sy [.res, .st] m.en
  (k, s.setWave m.w { x with pend := Map.put x.pend k { unit := .sy, lanes := m.en, vals := [], ports := [portVec .sy .res, portVec .sy .st] } })

/-- Notes the answer of an operation carried out elsewhere; it is ready in `back` cycles. -/
def State.syAnswer (s : State) (w k back : Nat) (res st : Word) : State :=
  (s.modWave w fun x => match Map.find? x.pend k with
    | some p =>
      let put (v : Nat) (a : Word) (t : Map Word) : Map Word := (lanesOf p.lanes).foldl (fun t l => Map.set 0 t (32 * v + l) a) t
      { x with pend := Map.put x.pend k { p with vals := put (portVec .sy .st) st (put (portVec .sy .res) res []) } }
    | none => x).after back .resultReady [w, k]

/-- The inputs of R55: o1, o2 and T of the lowest enabled lane. -/
def MoveIn.sy1 (m : MoveIn) : Word := m.latchW .sy .o1 m.low
def MoveIn.sy2 (m : MoveIn) : Word := m.latchW .sy .o2 m.low
def MoveIn.syT (m : MoveIn) : Word := m.tw m.low

/-- The trap of R261. -/
def MoveIn.privilege (m : MoveIn) : SlotRes := m.trap 0x02 m.real 0

/-- An sy operation that needs SUP, and the right of PCAP in bit `right` where one is named (R260, R261, R274). -/
def syPriv (right : Option Nat) (gd : Guard) (src : Src) (f : MoveIn → Slot) : Slot := withReal gd src fun m s =>
  if !m.x.ctx.sup || (match right with | some b => !(s.part m.x.part).pcap.getLsbD b | none => false) then m.privilege else f m s

/-! Special registers (R263 to R266). -/

/-- FEAT: every feature of R422. -/
def feat : Dword := 0xFFF

/-- The value of a special register; `none` for a reserved index (R263). -/
def State.sr (s : State) (w i : Nat) : Option Dword :=
  let x := s.wave w
  let c := s.core (coreOf w)
  match i with
  | 0x00 => some (x.ctx.wstat.setWidth 64)
  | 0x01 => some (x.ctx.vac.setWidth 64)
  | 0x02 => some (s.ident w)
  | 0x03 => some s.time
  | 0x04 => some (BitVec.ofNat 64 (s.now - (s.die (dieOf w)).cycleBase))
  | 0x05 => some feat
  | 0x06 => some s.featack
  | 0x08 => some (x.tstate.setWidth 64)
  | 0x09 => some (x.tmask.setWidth 64)
  | 0x0A => some x.tpc
  | 0x0B => some x.tinfo
  | 0x10 => some c.polign
  | 0x11 => some c.rollbk
  | 0x12 => some c.swaps
  | _ => none

/-- The effect of wrsr: RM at any privilege; SHD and the trap registers with SUP alone; nothing else (R18, R263, R265). -/
def Wave.wrsr (x : Wave) (i : Nat) (v : Dword) : Wave :=
  let sup := x.ctx.sup
  match i with
  | 0x00 =>
    let c := x.ctx.setWstat 2 2 (dfield v 2 2)
    { x with ctx := if sup then c.setWstat 3 3 (dfield v 3 3) else c }
  | 0x08 => if sup then { x with tstate := setField x.tstate 11 0 (dfield v 11 0) } else x
  | 0x09 => if sup then { x with tmask := lowWord v } else x
  | 0x0A => if sup then { x with tpc := v } else x
  | 0x0B => if sup then { x with tinfo := v } else x
  | _ => x

/-- sy.rdsr (R263). -/
def slotSyRdsr (gd : Guard) (src : Src) : Slot := withReal gd src fun m s =>
  match s.sr m.w (wfield m.syT 7 0) with
  | some v => .ok (syWrite m 4 (lowWord v) (highWord v) s)
  | none => m.privilege
/-- SY_RDSR. -/
def execSyRdsr (gd : Guard) (src : Src) (s : State) : Host.Outcome State Fault Refusal := asStep (slotSyRdsr gd src s) s

/-- sy.wrsr (R263): the write takes effect when the bundle ends. -/
def slotSyWrsr (gd : Guard) (src : Src) : Slot := withReal gd src fun m s =>
  let i := wfield m.syT 7 0
  match s.sr m.w i with
  | some _ => .ok ((syWrite m 4 0 0 s).modCur fun c => { c with wrsr := some (i, joinWords m.sy2 m.sy1) })
  | none => m.privilege
/-- SY_WRSR. -/
def execSyWrsr (gd : Guard) (src : Src) (s : State) : Host.Outcome State Fault Refusal := asStep (slotSyWrsr gd src s) s

/-! Translation (R267 to R269). -/

/-- The dies that hold clovers of a partition. -/
def State.partDies (s : State) (p : Nat) : List Nat :=
  (List.range 4).filter fun d => (List.range 24).any fun i => (s.part p).clovers.getLsbD (24 * d + i)

/-- The latency of an invalidation (R268). -/
def State.invCost (s : State) (p q : Nat) : Nat := 96 + 360 * ((s.partDies p).map (ringDist q)).foldl max 0

/-- sy.tlbinv (R267, R268): the invalidation is in force when st becomes ready. -/
def slotSyTlbinv (gd : Guard) (src : Src) : Slot := syPriv none gd src fun m s =>
  let t := s.invCost m.x.part (dieOf m.w)
  if wfield m.syT 31 2 != 0 then .ok (syWrite m t 0 syDenied s)
  else
    let (k, s) := syBegin m s
    .ok (s.after t .resultReady [m.w, k, 1, m.x.part, wfield m.syT 0 0, (joinWords m.sy2 m.sy1).toNat, wfield m.syT 1 1])
/-- SY_TLBINV. -/
def execSyTlbinv (gd : Guard) (src : Src) (s : State) : Host.Outcome State Fault Refusal := asStep (slotSyTlbinv gd src s) s

/-- The PA of the entry for a VA at level 3, or with `l2` at level 2; `none` when a table above it is absent (R269, R320). -/
def State.pteAddr (s : State) (p va : Nat) (l2 : Bool) : Option Nat :=
  let e1 := s.read ((s.part p).ptbase.toNat + 8 * (va / 2 ^ 42 % 8192)) 8
  if !isTable e1 then none else
  let a2 := bitsOf e1 51 16 * 2 ^ 16 + 8 * (va / 2 ^ 29 % 8192)
  if l2 then some a2 else
  let e2 := s.read a2 8
  if isTable e2 then some (bitsOf e2 51 16 * 2 ^ 16 + 8 * (va / 2 ^ 16 % 8192)) else none

/-- Sends the store of a page-table entry from die `q` to the entry's line, as a UC store (R269, R318). (DEDUCED, log 49) -/
def State.pmapSend (s : State) (q pa : Nat) (args : List Nat) : State :=
  match s.engCost q pa 2 (isHostPa pa) true with
  | some t => s.after t .resultReady args
  | none => match (s.line (pa / 128)).fetching with
    | some r => s.joinFetch r (.sys false args)
    | none => s.drawerSend q (pa / 128) false [] [.sys true args] none false (80 + 360 * ringDist q (s.home q pa))

/-- sy.pmap (R269): its store is an access not yet performed, which later accesses and irrevocable operations wait for (R278, R285, R295). -/
def slotSyPmap (gd : Guard) (src : Src) : Slot := syPriv none gd src fun m s =>
  let q := dieOf m.w
  let t := s.invCost m.x.part q
  let va := joinWords m.sy2 m.sy1
  let l2 := m.syT.getLsbD 4
  if wfield m.syT 31 5 != 0 || !canonical va then .ok (syWrite m t 0 syDenied s)
  else match s.pteAddr m.x.part va.toNat l2 with
    | none => .ok (syWrite m t 0 syDenied s)
    | some pa =>
      let (k, s) := syBegin m s
      let s := s.modWave m.w fun x => { x with quOut := x.quOut ++ [k] }
      .ok (s.pmapSend q pa [m.w, k, 2, m.x.part, q, va.toNat, if l2 then 1 else 0, pa, (m.x.ctx.baseReg (wfield m.syT 3 0)).toNat])
/-- SY_PMAP. -/
def execSyPmap (gd : Guard) (src : Src) (s : State) : Host.Outcome State Fault Refusal := asStep (slotSyPmap gd src s) s

/-- The lines of a page of which an L1 or a die cache may hold a copy. -/
def State.pageLines (s : State) (p : Page) : List Nat :=
  let lo := p.pa / 128
  let n := (if p.big then 2 ^ 29 else 2 ^ 16) / 128
  ((s.lines.map (·.1) ++ s.cores.flatMap (fun (_, c) => c.l1.flatMap fun (_, es) => es.map (·.line)) ++
    s.dies.flatMap fun (_, d) => d.cache.flatMap (·.2)).filter fun l => decide (lo ≤ l ∧ l < lo + n)).eraseDups

/-- Drops every copy of a page's lines from every L1 and die cache; a dirty one is written back (R311). -/
def State.dropPageCopies (s : State) (p : Page) : State := (s.pageLines p).foldl (fun s l => State.dropLine s l []) s

/-- The store of pmap is performed at the entry's line, in its turn among the wave's operations (R278); then the page is invalidated as tlbinv does (R269), and the copies of a page that was RO
are dropped, now and when the invalidation is in force (R311). -/
def State.pmapStore (s : State) (args : List Nat) : State :=
  let n (i : Nat) : Nat := args.getD i 0
  let (p, q, va, l2, pa) := (n 3, n 4, n 5, n 6 == 1, n 7)
  let finish (s : State) : State :=
    let old := s.read pa 8
    let ro := match s.leaf p va old l2 with
      | .page g => g.coh == 3
      | _ => false
    let s := if ro then s.dropPageCopies (pageOf p va old l2) else s
    let s := s.write pa (toBytes 8 (n 8))
    let s := s.modWave (n 0) fun x => { x with quOut := x.quOut.filter (· != n 1) }
    let s := { s with waves := s.waves.map fun ((i, x) : Nat × Wave) => (i, { x with claims := x.claims.filter fun (a, _) => a != pa }) }
    s.after (s.invCost p q) .resultReady [n 0, n 1, 1, p, 0, va, n 6, if ro then old else 0]
  if (s.wave (n 0)).mustWait (n 1) then s.after 1 .resultReady args else
  match s.scratchAt pa with
  | some (t, o) => finish (s.scratchWrite t (o / 128) (some (n 0)))
  | none =>
    let line := pa / 128
    let host := isHostPa pa
    let s := if host then s.modLine line fun e => { e with grant := some true } else s
    match s.lineWait q line host (some (n 0)) false with
    | (some 0, s) => finish ((if host then s.own q line else s).writeLine q line (some (n 0)))
    | (some (d + 1), s) => s.after (d + 1) .resultReady args
    | (none, s) => s.pmapSend q pa args

/-! The return from a trap (R270). -/

/-- sy.sret: the return follows every other slot of the bundle. -/
def slotSySret (gd : Guard) (src : Src) : Slot := syPriv none gd src fun _ s => .ok (s.modCur fun c => { c with sret := true })
/-- SY_SRET. -/
def execSySret (gd : Guard) (src : Src) (s : State) : Host.Outcome State Fault Refusal := asStep (slotSySret gd src s) s

/-! The mailbox (R271, R364). -/

/-- sy.mbox: a message of 32 scratchpad bytes; the device writes its kind and the wave's identity. (DESIGN CHOICE, log 45) -/
def slotSyMbox (gd : Guard) (src : Src) : Slot := syPriv none gd src fun m s =>
  let t := m.syT.toNat
  if s.scratchOf m < t + 32 then m.trap 0x07 m.real (BitVec.ofNat 64 t)
  else if t % 32 != 0 then m.trap 0x06 m.real (BitVec.ofNat 64 t)
  else
    let b := (List.range 32).map fun i => s.scrByte m.x.team (t + i)
    let bytes := [0] ++ (b.drop 1).take 3 ++ toBytes 4 (lowWord (s.ident m.w)).toNat ++ b.drop 8
    let c := cloverOf m.w
    match (s.clover c).freeSlot (coreOf m.w % 4) with
    | some n =>
      let s := s.modClover c fun k => { k with mail := Map.put k.mail n ⟨bytes, coreOf m.w % 4⟩ }
      .ok (syWrite m 40 (BitVec.ofNat 32 (mailNumber n)) 0 s)
    | none => let (v, s) := s.freeWord
      .ok (syWrite m 40 v syFull s)
/-- SY_MBOX. -/
def execSyMbox (gd : Guard) (src : Src) (s : State) : Host.Outcome State Fault Refusal := asStep (slotSyMbox gd src s) s

/-! Links (R272, R395, R448). -/

/-- Whether the swath table that is live on a link grants a partition a swath of the present frame (R272, R383). -/
def Link.grants (k : Link) (now p : Nat) : Bool :=
  let f := (max 1 k.width * (now - k.t0) + k.beat) / 10240 * 256
  (List.range 256).any fun i => let e := k.entryOf (f + i); wfield e 6 5 != 3 && wfield e 3 0 == p

/-- A write of a link register: the status, and the state (R395, R397, R400, R422). -/
def State.linkWrite (s : State) (l r : Nat) (v : Word) : Word × State :=
  match r with
  | 1 => if wfield v 31 10 != 0 || wfield v 1 0 == 3 || (wfield v 9 0 != 0 && !s.featack.getLsbD 7) then (syDenied, s) else (0, s.lctlWrite l v)
  | 2 => if wfield v 31 24 != 0 then (syDenied, s) else (0, s.berthrWrite l false v)
  | 3 => if wfield v 31 24 != 0 then (syDenied, s) else (0, s.berthrWrite l true v)
  | 4 => if wfield v 31 4 != 0 then (syDenied, s) else (0, s.modLink l fun k => { k with fecsel := v })
  | _ => if r ≤ 9 then (0, s) else (syDenied, s)

/-- A link register before it is written; a reserved number has no value to give. -/
def State.linkOld (s : State) (l r : Nat) : Word × State := if r ≤ 9 then ((s.link l).register (s.depth l) r, s) else s.freeWord

/-- sy.lnk (R272): carried out in the cycle in which st becomes ready (R448). (DEDUCED, log 48) -/
def slotSyLnk (gd : Guard) (src : Src) : Slot := syPriv (some 0) gd src fun m s =>
  let a := m.sy1
  let d := wfield a 7 6
  let peer := a.getLsbD 12
  let ok := wfield a 31 13 == 0 && !(peer && wfield a 5 3 != 0)
  let l := 72 * d + (if peer then 64 + wfield a 2 0 else wfield a 5 0)
  let (k, s) := syBegin m s
  .ok (s.after (60 + 360 * ringDist (dieOf m.w) d) .resultReady
    [m.w, k, 3, if ok then 1 else 0, m.x.part, l, wfield a 11 8, m.syT.toNat])
/-- SY_LNK. -/
def execSyLnk (gd : Guard) (src : Src) (s : State) : Host.Outcome State Fault Refusal := asStep (slotSyLnk gd src s) s

/-- The register access of sy.lnk: the previous value, and OK or DENIED; OFFLINE (R260) is no answer of it. (DEDUCED, log 46; DESIGN CHOICE, log 127) -/
def State.lnkAt (s : State) (args : List Nat) : State :=
  let n (i : Nat) : Nat := args.getD i 0
  let l := n 5
  let (old, s) := s.linkOld l (n 6)
  let (st, s) := if n 3 = 0 ∨ (l % 72 < 64 ∧ (s.link l).grants s.now (n 4) = false) then (syDenied, s) else s.linkWrite l (n 6) (BitVec.ofNat 32 (n 7))
  (s.syAnswer (n 0) (n 1) 0 old st)

/-! Dies (R273, R464). -/

/-- The step of a die that a command runs. -/
def dieCommand (b : Nat) : Instr := match b with | 0 => .dieStatus | 1 => .dieQuiesce | 2 => .dieReset | _ => .dieReadmit

/-- The code of a die's state (R273). -/
def dieCode : DieState → Nat
  | .run => 0 | .quiescing => 1 | .offline => 2 | .resetting => 3 | .selftest => 4

/-- sy.dctl: the command takes effect at the die 60 + 180 × h cycles on, and is answered after as many hops back (R260, R464). A command
with a reserved bit, or one that names no command, is answered DENIED there. -/
def slotSyDctl (gd : Guard) (src : Src) : Slot := syPriv (some 1) gd src fun m s =>
  let d := wfield m.sy1 1 0
  let q := dieOf m.w
  let h := ringDist q d
  let bad := wfield m.sy1 31 2 != 0 || wfield m.syT 31 4 != 0 || decide (3 < wfield m.syT 3 0)
  let (k, s) := syBegin m s
  .ok (s.after (60 + 180 * h) (if bad then .dieStatus else dieCommand (wfield m.syT 3 0)) [d, m.w + 1, k, 180 * h, q, if bad then 1 else 0])
/-- SY_DCTL. -/
def execSyDctl (gd : Guard) (src : Src) (s : State) : Host.Outcome State Fault Refusal := asStep (slotSyDctl gd src s) s

/-! Injection (R275). -/

/-- The line of device memory at a VA that an access of the device may read, if it names one (R275, R472). -/
def State.devLine (s : State) (die part : Nat) (va : Nat) : Option Nat :=
  (s.devAddr die part va false).bind fun pa => if isNearPa pa || isFarPa pa then some (pa / 128) else none

/-- The address of sy.inj is translated: the line has its error at once, or the answer is DENIED; `kind` 1 SOFT, else UNCORR. The answer is ready 4
cycles on (R275). -/
def State.injAt (s : State) (w k kind va : Nat) : State :=
  match s.devLine (dieOf w) (s.wave w).part va with
  | some line => (s.after 0 (if kind = 1 then .injSoft else .injUncorr) [line]).syAnswer w k 4 0 0
  | none => s.syAnswer w k 4 0 syDenied

/-- sy.inj (R275). -/
def slotSyInj (gd : Guard) (src : Src) : Slot := syPriv (some 2) gd src fun m s =>
  let a := m.sy1
  let b := m.syT
  let deny (s : State) : SlotRes := .ok (syWrite m 4 0 syDenied s)
  match wfield a 3 0 with
  | 0 => if wfield a 31 4 != 0 then deny s
    else .ok ((syWrite m 4 0 0 s).after 0 .injAbft [cloverOf m.w, wfield b 1 0, wfield b 3 2])
  | 3 =>
    let u := wfield a 9 5
    if wfield a 31 10 != 0 || a.getLsbD 4 || !([4, 6, 8, 11].contains u) then deny s
    else .ok ((syWrite m 4 0 0 s).after 0 .injTwin [m.w, u, wfield b 4 0])
  | n =>
    if 3 < n || wfield a 31 8 != 0 then deny s
    else
      let va := (m.x.ctx.baseReg (wfield a 7 4)).toNat
      let (k, s) := syBegin m s
      .ok (match s.devTask (dieOf m.w) [(m.x.part, va, 1, 0)] .resultReady [m.w, k, 5, n, va] with
        | (true, s) => s.injAt m.w k n va
        | (false, s) => s)
/-- SY_INJ. -/
def execSyInj (gd : Guard) (src : Src) (s : State) : Host.Outcome State Fault Refusal := asStep (slotSyInj gd src s) s

/-- INJ_ABFT: clover, accumulator, chunk: its next check fails (R275). -/
def execInjAbft (s : State) : Host.Outcome State Fault Refusal := .next (s.modClover (s.arg 0) fun k =>
  match Map.find? k.abft (s.arg 1) with
  | some f => { k with abft := Map.put k.abft (s.arg 1) { f with inject := if f.inject.contains (s.arg 2) then f.inject else f.inject ++ [s.arg 2] } }
  | none => k)
/-- INJ_SOFT: line: a correctable error in it (R275). -/
def execInjSoft (s : State) : Host.Outcome State Fault Refusal := .next (s.modLine (s.arg 0) fun e => { e with soft := true })
/-- INJ_UNCORR: line: it is poisoned at its holder (R275, R313). -/
def execInjUncorr (s : State) : Host.Outcome State Fault Refusal := .next (s.modLine (s.arg 0) fun e => { e with poison := true })
/-- INJ_TWIN: wave, unit, lane: its next res of the unit has bit 0 inverted (R275). -/
def execInjTwin (s : State) : Host.Outcome State Fault Refusal := .next (s.modWave (s.arg 0) fun x =>
  let i := 32 * s.arg 1 + s.arg 2
  if x.inject.contains i then x else { x with inject := x.inject ++ [i] })

/-! Partition registers (R274). -/

/-- Replaces the low half (0), the high half (1) or all (2) of a register. -/
def halfWrite (old : Dword) (half v : Nat) : Dword :=
  match half with
  | 0 => joinWords (highWord old) (BitVec.ofNat 32 v)
  | 1 => joinWords (BitVec.ofNat 32 v) (lowWord old)
  | _ => BitVec.ofNat 64 v

/-- Writes back every cached queue context of a partition, on every die (R206, R274). -/
def State.flushPart (s : State) (p : Nat) : State := (List.range 4).foldl (fun s d => State.flushQ s d (some p)) s

/-- Whether that may be done now: cycles until it is tried again (R282). -/
def State.flushPartReady (s : State) (p : Nat) : Nat × State :=
  (List.range 4).foldl (fun ((c, s) : Nat × State) d => let (e, s) := s.flushReady d (some p)
    (max c e, s)) (0, s)

/-- A write of QTBASE, QTLEN or PTBASE (R274). -/
def State.qtbaseWrite (s : State) (p half v : Nat) : State := (s.flushPart p).modPart p fun k => { k with qtbase := halfWrite k.qtbase half v }
def State.qtlenWrite (s : State) (p v : Nat) : State := (s.flushPart p).modPart p fun k => { k with qtlen := BitVec.ofNat 64 v }
def State.ptbaseWrite (s : State) (p half v : Nat) : State := (s.modPart p fun k => { k with ptbase := halfWrite k.ptbase half v }).tlbInv p true 0 false

/-- QTBASE: partition, half, value (R274). -/
def execQtbase (s : State) : Host.Outcome State Fault Refusal := .next (match s.flushPartReady (s.arg 0) with
  | (0, t) => t.qtbaseWrite (s.arg 0) (s.arg 1) (s.arg 2)
  | (c + 1, t) => t.after (c + 1) .qtbase s.ev)
/-- QTLEN: partition, value (R274). -/
def execQtlen (s : State) : Host.Outcome State Fault Refusal := .next (match s.flushPartReady (s.arg 0) with
  | (0, t) => t.qtlenWrite (s.arg 0) (s.arg 1)
  | (c + 1, t) => t.after (c + 1) .qtlen s.ev)
/-- PTBASE: partition, half, value (R274). -/
def execPtbase (s : State) : Host.Outcome State Fault Refusal := .next (s.ptbaseWrite (s.arg 0) (s.arg 1) (s.arg 2))

/-- The value of a partition register as sy.part numbers them; `none` for any other number. -/
def Part.register (k : Part) (r : Nat) : Option Word :=
  match r with
  | 0 => some (lowWord k.pcap)
  | 1 => some (lowWord k.qtbase) | 2 => some (highWord k.qtbase)
  | 3 => some (lowWord k.qtlen)
  | 4 => some (lowWord k.ttbase) | 5 => some (highWord k.ttbase)
  | 6 => some (lowWord k.ptbase) | 7 => some (highWord k.ptbase)
  | 8 => some (lowWord k.lnkstall)
  | _ => none

/-- Whether a partition register takes a value: not PCAP, and within the limits of R274. -/
def partTakes (r v : Nat) : Bool :=
  match r with
  | 1 => v % 64 == 0 | 3 => decide (v ≤ 2 ^ 20) | 4 => v % 256 == 0 | 6 => v % 65536 == 0
  | 2 => true | 5 => true | 7 => true | 8 => true
  | _ => false

/-- A write of a partition register by number (R274). -/
def State.partWrite (s : State) (p r v : Nat) : State :=
  match r with
  | 1 => s.qtbaseWrite p 0 v
  | 2 => s.qtbaseWrite p 1 v
  | 3 => s.qtlenWrite p v
  | 4 => s.modPart p fun k => { k with ttbase := halfWrite k.ttbase 0 v }
  | 5 => s.modPart p fun k => { k with ttbase := halfWrite k.ttbase 1 v }
  | 6 => s.ptbaseWrite p 0 v
  | 7 => s.ptbaseWrite p 1 v
  | 8 => s.lnkstallWrite p (BitVec.ofNat 64 v)
  | _ => s

/-- sy.part: carried out at die 0 (R260, R274). -/
def slotSyPart (gd : Guard) (src : Src) : Slot := syPriv (some 3) gd src fun m s =>
  let h := ringDist (dieOf m.w) 0
  let p := wfield m.sy1 3 0
  let ok := wfield m.sy1 31 4 == 0 && wfield m.sy2 31 8 == 0 && (p == m.x.part || (s.part m.x.part).pcap.getLsbD 4)
  let (k, s) := syBegin m s
  .ok (s.after (60 + 180 * h) .resultReady [m.w, k, 4, if ok then 1 else 0, p, wfield m.sy2 7 0, m.syT.toNat, 180 * h])
/-- SY_PART. -/
def execSyPart (gd : Guard) (src : Src) (s : State) : Host.Outcome State Fault Refusal := asStep (slotSyPart gd src s) s

/-- The register access of sy.part at die 0: the previous value, and OK or DENIED. A change of the queue table waits for the write-backs it makes
(R206, R274). -/
def State.partAt (s : State) (args : List Nat) : State :=
  let n (i : Nat) : Nat := args.getD i 0
  match (s.part (n 4)).register (n 5) with
  | some old =>
    if n 3 = 1 ∧ partTakes (n 5) (n 6) = true then
      match (if 1 ≤ n 5 ∧ n 5 ≤ 3 then s.flushPartReady (n 4) else (0, s)) with
      | (0, s) => (s.partWrite (n 4) (n 5) (n 6)).syAnswer (n 0) (n 1) (n 7) old 0
      | (c + 1, s) => s.after (c + 1) .resultReady args
    else s.syAnswer (n 0) (n 1) (n 7) old syDenied
  | none =>
    let (v, s) := s.freeWord
    s.syAnswer (n 0) (n 1) (n 7) v syDenied

/-- What an operation does in a later cycle: 0 its results are ready; 1 an invalidation comes into force (R267); 2 the store of pmap is
performed (R269); 3 sy.lnk and 4 sy.part are carried out; 5 the address of sy.inj is translated. -/
def State.opStep (s : State) (args : List Nat) : State :=
  let n (i : Nat) : Nat := args.getD i 0
  match n 2 with
  | 0 => s.resultReady (n 0) (n 1)
  | 1 =>
    let s := if n 7 = 0 then s else s.dropPageCopies (pageOf (n 3) (n 5) (n 7) (n 6 == 1))
    (s.tlbInv (n 3) (n 4 == 1) (n 5) (n 6 == 1)).resultReady (n 0) (n 1)
  | 2 => s.pmapStore args
  | 3 => s.lnkAt args
  | 4 => s.partAt args
  | _ => s.injAt (n 0) (n 1) (n 3) (n 4)

/-- RESULT_READY: wave, operation, and for some sy operations what is done first (R12, R58). -/
def execResultReady (s : State) : Host.Outcome State Fault Refusal := .next (s.opStep s.ev)

end Sys2Proof.Machine
end

