-- ==== Sys2Proof/Machine/Ready.lean ====
section
/-! DEFINITION. The next bundle of a fragment: its parsing and its illegal encodings (R43 to R64), the reconvergence test (R30), and
the issue test (R57, R285, R351). -/
namespace Sys2Proof.Machine

/-! Parsing. -/

/-- A move of a bundle. -/
structure Move where
  instr : Instr
  f : MoveFields
deriving DecidableEq, Repr

/-- A bundle with a legal header: a slot that is no move holds none. -/
structure Bundle where
  head : Header
  words : List Nat
  moves : List (Option Move)
  /-- The slots that raise ILLEGAL_BUNDLE (R63, R64). -/
  bads : List Nat
deriving DecidableEq, Repr

/-- The first illegal slot from slot `first` on. -/
def Bundle.bad (b : Bundle) (first : Nat) : Option Nat := b.bads.find? fun k => decide (first ≤ k)
/-- Length in bytes (R43). -/
def Bundle.len (b : Bundle) : Nat := 4 * (1 + b.head.nmov.val + b.head.nlim.val)
/-- The long-immediate words. -/
def Bundle.longs (b : Bundle) : List Word := (b.words.drop (1 + b.head.nmov.val)).map fun w => BitVec.ofNat 32 w

/-- The unit that a move triggers. -/
def Move.unit? (m : Move) : Option FuncUnit := if m.f.port = 2 then unitOf m.f.unit else none
/-- The unit whose latch a move writes. -/
def Move.latch? (m : Move) : Option (FuncUnit × LatchNo) :=
  match m.instr with
  | .latchWrite _ u k _ => some (u, k)
  | _ => none

/-- The ct operations that may stand beside one another (R59). -/
def ctFree (op : Nat) : Bool := [0, 1, 2, 4, 7].contains op

/-- Whether a trigger follows an earlier one of its unit, ct apart (R59). -/
def clash (a b : Move) : Bool :=
  match a.unit?, b.unit? with
  | some u, some v => u == v && u != .ct
  | _, _ => false

/-- The second ct trigger of a bundle whose ct triggers may not stand together (R59). -/
def ctClash (ms : List (Option Move)) : Option Nat :=
  let cts := ms.zipIdx.filterMap fun (o, k) => match o with
    | some m => if m.unit? = some .ct then some (m.f.op, k) else none
    | none => none
  if cts.all fun (o, _) => ctFree o then none else (cts[1]?).map (·.2)

/-- Whether a move needs a feature that is not accepted (R422). -/
def Move.disabled (m : Move) (featack : Dword) : Bool :=
  match m.unit? with
  | some .mx => (m.f.op / 8 == 1 && !featack.getLsbD 1) || (m.f.op == 28 && !featack.getLsbD 3)
  | some .ct => m.f.op == 5 && !featack.getLsbD 9
  | some .sy => m.f.op == 8 && !featack.getLsbD 11
  | _ => false

/-- A long-immediate source beyond NLIM (R51, R64). -/
def Move.longBad (m : Move) (nlim : Nat) : Bool := match m.f.src with | .long i => decide (nlim ≤ i.val) | _ => false

/-- Reads one move word. -/
def parseMove (w : Nat) : Option Move :=
  match decodeMove w with
  | .ok i => (moveFields i).map fun f => ⟨i, f⟩
  | .error _ => none

/-- Parses the words of a bundle; none where its header is no legal one (R63, R64). -/
def parseBundle (featack : Dword) (ws : List Nat) : Option Bundle :=
  match ws with
  | [] => none
  | h :: rest => match decodeHeader h with
    | .error _ => none
    | .ok head =>
      let ms := (rest.take head.nmov.val).map parseMove
      let wrong (k : Nat) : Bool := match ms[k]? with
        | some (some m) => ctClash ms == some k || m.disabled featack || m.longBad head.nlim.val || (ms.take k).any fun o => match o with | some a => clash a m | none => false
        | _ => true
      some { head := head, words := ws, moves := ms, bads := (List.range head.nmov.val).filter wrong }

/-- What stands at a fragment's PC. -/
inductive Next
  /-- The fetch faults (R46). -/
  | fault (cause : Nat) (addr : Dword)
  /-- The header is no legal one. -/
  | illegal
  | bundle (b : Bundle)
deriving DecidableEq, Repr

/-- The next bundle of a fragment: as captured, or as it stands in memory. -/
def State.nextBundle (s : State) (w : Nat) (g : Seq) : Next :=
  let read : Next := match s.bundleWords w g.pages g.pc.toNat with
    | .error (c, a) => .fault c (BitVec.ofNat 64 a)
    | .ok ws => match parseBundle s.featack ws with
      | some b => .bundle b
      | none => .illegal
  match g.fetch, g.part with
  | .bad c a, _ => .fault c a
  | _, some p => if p.cap.words.isEmpty then read else
    match parseBundle s.featack p.cap.words with
    | some b => .bundle b
    | none => .illegal
  | _, none => read

/-! Classes of operations. -/

/-- Loads, stores and line operations of ls and sp (R283). -/
def isLoadOp (u : FuncUnit) (op : Nat) : Bool := (u == .ls && decide (op < 5)) || (u == .sp && decide (op < 3))
def isStoreOp (u : FuncUnit) (op : Nat) : Bool :=
  (u == .ls && ((decide (5 ≤ op) && decide (op < 8)) || (decide (20 ≤ op) && decide (op < 23)))) || (u == .sp && decide (3 ≤ op) && decide (op < 6))
def isAtomicOp (u : FuncUnit) (op : Nat) : Bool := (u == .ls && decide (8 ≤ op) && decide (op < 19)) || (u == .sp && decide (6 ≤ op))
/-- The copy-class commands (R21). -/
def isCopyOp (u : FuncUnit) (op : Nat) : Bool := u == .en && decide (op < 7)
/-- The operations that TLC counts (R21). -/
def isTileOp (u : FuncUnit) (op : Nat) : Bool := u == .mx && (decide (op < 24) || op == 26)
/-- The irrevocable operations, and ct.exit (R295, R196). -/
def isIrrevocable (u : FuncUnit) (op : Nat) : Bool :=
  isAtomicOp u op || isCopyOp u op ||
    (match u with
     | .qu => op != 6 && op != 9
     | .mx => true
     | .sy => true
     | .ct => [5, 6, 7, 8, 9, 13].contains op
     | _ => false)
/-- The ports a trigger makes not ready (R12). -/
def opPorts (u : FuncUnit) (op : Nat) : List PortNo :=
  match u with
  | .ls => if op = 19 ∨ op = 24 then [] else [.st]
  | .ct => if [2, 5, 6, 8, 9, 10].contains op then [.res, .st] else []
  | .sy => if op = 4 then [] else [.res, .st]
  | _ => portsOf u
/-- The units before whose triggers pending marks are delivered (R123). -/
def marksBefore (u : FuncUnit) : Bool := match u with | .ls => true | .sp => true | .qu => true | .en => true | .mx => true | .ct => true | .sy => true | _ => false

/-! The bundle's moves with their enabled lanes. -/

/-- A move of the bundle and its enabled lanes. -/
structure Live where
  slot : Nat
  m : Move
  en : Mask

/-- The moves from slot `first` on that have an enabled lane: as captured, less lanes vacant since, or as they stand. (DEDUCED, log 51) -/
def State.liveMoves (_s : State) (x : Wave) (g : Seq) (b : Bundle) : List Live :=
  let c := x.ctx
  let first := (g.part.map (·.first)).getD 0
  let en (k : Nat) (m : Move) : Mask := match g.part with
    | some p => Map.get 0 p.cap.en k &&& (~~~c.vac ||| c.shadows)
    | none => c.enabled g.mask m.f.gd
  (b.moves.zipIdx.filterMap fun (o, k) => match o with
    | some m => if first ≤ k ∧ ((b.bad first).map fun j => decide (k < j)).getD true = true ∧ en k m ≠ 0 then some ⟨k, m, en k m⟩ else none
    | none => none)

/-- A trigger that acts: of a wave-uniform unit, ls or sp only where some enabled lane is no shadow. -/
def Live.trigger (v : Live) (c : Ctx) : Option (FuncUnit × Nat) :=
  match v.m.unit? with
  | some u => if (uniformUnit u || u == .ls || u == .sp) && c.real v.en == 0 then none else some (u, v.m.f.op)
  | none => none

/-- The register vectors a move would log (R284). -/
def Live.vectors (v : Live) (c : Ctx) : List Nat :=
  match v.m.instr with
  | .moveM0 _ r _ => [r.val]
  | .moveM1 _ r _ => [128 + r.val]
  | .moveLf _ (.opnd i) _ => [opndVec i.val]
  | .moveLf _ _ _ => []
  | .latchWrite _ u k _ =>
    if uniformUnit u && c.real v.en == 0 then [] else
      if wideLatch u k then [latchVec u k, latchVec u k + 1] else [latchVec u k]
  | _ => match v.trigger c with
    | some (u, op) => (opPorts u op).map (portVec u)
    | none => []

/-! The issue test. -/

/-- How a fragment stands towards its next bundle: it may issue, it is held in a counted wait, it is held in a way that restarts the count
of a wait-swap (R351), or it is held otherwise. -/
inductive Ready
  | yes | counted | restarts | no
deriving DecidableEq, Repr

/-- Whether a fragment is at a safe point (R368). -/
def State.atSafe (s : State) (x : Wave) (w : Nat) (g : Seq) : Bool :=
  (g.loops.isEmpty || g.safe) && !s.holdsBaton w && g.part.isNone && x.stop == .running

/-- Whether a fragment's next bundle holds a yield that can take effect. -/
def State.yieldsNext (s : State) (x : Wave) (w : Nat) (g : Seq) : Bool :=
  match s.nextBundle w g with
  | .bundle b => (s.liveMoves x g b).any fun v => v.trigger x.ctx == some (.ct, 12)
  | _ => false

/-- Whether the yield deadline has stopped a fragment; a yield that issues in the deadline's own cycle still takes effect (R369). -/
def State.stoppedAtSafe (s : State) (x : Wave) (w : Nat) (g : Seq) : Bool :=
  match s.team? x.team with
  | some t => !g.go && t.past && s.atSafe x w g && !(t.deadline == some s.now && s.yieldsNext x w g)
  | none => false

/-- Port and head-latch reads of a move wait (R12, R15, R57); lanes that are shadows do not count (R356). (DEDUCED, log 50) -/
def Live.readWaits (v : Live) (c : Ctx) : Bool :=
  c.real v.en != 0 &&
  match v.m.f.src with
  | .port .ls .res => (c.lsFifo.head?.map fun e => !e.filled).getD true
  | .port .sp .res => (c.spFifo.head?.map fun e => !e.filled).getD true
  | .port u p => !c.ready (portVec u p) (c.real v.en)
  | .head q _ => let h := c.head q.val; h.bound && !h.stale && h.recs.isEmpty
  | _ => false

/-- A pop of the header waits for a record (R218); it is no read, and its wait is none of those that R351 counts. -/
def headerPopWaits (h : Header) (c : Ctx) : Bool :=
  (List.range 4).any fun q => h.pop.val / 2 ^ q % 2 == 1 && (let l := c.head q; l.bound && !l.stale && l.recs.isEmpty)

/-- Whether ct.wait's limits hold (R193). -/
def Ctx.within (c : Ctx) : Hold → Bool
  | .counters l st cp t => decide (c.ldc ≤ l ∧ c.stc ≤ st ∧ c.cpc ≤ cp ∧ c.tlc ≤ t)
  | .none => true
  | _ => false

/-- A ct.wait whose four limits hold together is over, whatever the counters do next (R193). -/
def Ctx.releaseWaits (c : Ctx) : Ctx :=
  let f (m : Map Seq) : Map Seq := m.map fun (i, q) => (i, match q.hold with
    | .counters _ _ _ _ => if c.within q.hold then { q with hold := .none } else q
    | _ => q)
  { c with seqs := f c.seqs, spill := f c.spill }

/-- Whether a bundle must deliver pending marks first (R123). -/
def Bundle.marks (b : Bundle) : Bool := b.head.region || b.moves.any fun o => match o.bind Move.unit? with | some u => marksBefore u | none => false

/-- The triggers of the bundle that act, from `first` on. -/
def triggersOf (c : Ctx) (vs : List Live) : List (FuncUnit × Nat) := vs.filterMap fun v => v.trigger c

/-- The accesses of a bundle that a window holds (R283). -/
def accessesOf (ts : List (FuncUnit × Nat)) : List (FuncUnit × Nat) := ts.filter fun (u, op) => isLoadOp u op || isStoreOp u op

/-- Whether windows may open for a wave (R293, R297, R362). -/
def Wave.mayOpen (x : Wave) : Bool := x.ctx.esc != 2 && x.noWin == 0 && !x.ctx.sup

/-- Room for the bundle's ls and sp triggers and counters (R15, R21). -/
def roomFor (x : Wave) (ts : List (FuncUnit × Nat)) : Bool :=
  let c := x.ctx
  let n (p : FuncUnit × Nat → Bool) : Nat := (ts.filter p).length
  let takes (t : FuncUnit × Nat) : Bool := isLoadOp t.1 t.2 || isAtomicOp t.1 t.2
  (n (fun t => t.1 == .ls && takes t) == 0 || (decide (0 < x.fifoRoom false) && decide (c.ldc < 16))) &&
  (n (fun t => t.1 == .sp && takes t) == 0 || decide (0 < x.fifoRoom true)) &&
  decide (c.stc + n (fun t => isStoreOp t.1 t.2) ≤ 63) && decide (c.cpc + n (fun t => isCopyOp t.1 t.2) ≤ 15) &&
  decide (c.tlc + n (fun t => isTileOp t.1 t.2) ≤ 15)

/-- Room in an open window's store buffer and undo log for a bundle (R285). -/
def Wave.windowRoom (x : Wave) (vs : List Live) : Bool :=
  match x.win with
  | some v =>
    let stores := ((accessesOf (triggersOf x.ctx vs)).filter fun (u, op) => isStoreOp u op).length
    let held := (x.accs.filter fun (_, a) => a.win && a.storing).length
    let fresh := ((vs.flatMap fun l => l.vectors x.ctx).eraseDups.filter fun n => !v.logged.contains n).length
    decide (held + stores ≤ 16) && decide (v.logged.length + fresh ≤ 32)
  | none => true

/-- The other conditions of R285, and those of R196, R262 and R371. -/
def State.windowAllows (s : State) (w : Nat) (x : Wave) (b : Bundle) (vs : List Live) (first : Nat) : Bool :=
  let c := x.ctx
  let ts := triggersOf c vs
  let acc := accessesOf ts
  let alone := x.win.isNone && !x.unperformed
  let irrevocable := ts.any fun (u, op) => isIrrevocable u op
  let irrevocable := irrevocable || b.head.pop.val != 0 || (b.head.region && first == 0)
  let yields := ts.any fun (u, op) => u == .ct && op == 12 && s.yieldStops w
  let sy := ts.any fun (u, _) => u == .sy
  let epis := b.head.region && first == 0 && (s.clover (cloverOf w)).ops.any fun (_, o) => o.wave == some w && o.kind == 2 && o.check.isSome && decide (o.chunks < 4) && o.status == 0
  let window : Bool := match x.win with
    | some v => c.esc != 1 || acc.isEmpty || decide (v.count + acc.length ≤ 4)
    | none => acc.isEmpty || !x.unperformed || x.mayOpen
  (!irrevocable || alone) && (!yields || x.win.isNone) && (!sy || Map.get 0 c.busy (portVec .sy .st) == 0) && !epis && window

/-- Whether a wave may issue at all now: it runs, its team is here, and no rollback or start-up delay holds it. -/
def State.waveRuns (s : State) (x : Wave) : Bool :=
  x.stop == .running && !x.dead && decide (x.from_ ≤ s.now) && decide (x.rollTill ≤ s.now) &&
    ((s.team? x.team).map fun t => t.state == .resident).getD false

/-- Whether a fragment's next bundle stands ready to be tested: fetched, due, and not waiting for a page. -/
def State.atHand (s : State) (g : Seq) : Bool :=
  g.parked.isNone && !g.kept && decide (g.due ≤ s.now) && (match g.fetch with | .ready => true | .bad _ _ => true | _ => false)

/-- Whether a held bundle waits for its translations. -/
def State.partWaits (s : State) (g : Seq) : Bool :=
  match g.part with
  | some p => decide (s.now < p.due) || !p.look.isEmpty || p.pages.any fun (_, o) => o.waits
  | none => false

/-- A held bundle whose pages another handler owns waits as at a result port (R331, R351); every other wait at translation restarts the count. -/
def State.partReady (s : State) (g : Seq) : Ready :=
  match g.part with
  | some p => if p.due ≤ s.now ∧ p.pages.any (fun (_, o) => o == .claimed) then .counted else .restarts
  | none => .no

/-- A fragment whose bundle is not yet fetched: the wait on a POOL entry that another handler owns is counted, one at a bias flip restarts
the count (R331, R334, R351). -/
def State.fetchReady (s : State) (x : Wave) (g : Seq) : Ready :=
  match g.fetch with
  | .held =>
    if g.parked.isSome || g.kept || !s.waveRuns x || s.now < g.due then .no
    else if g.pages.any (·.2 == .claimed) then .counted else .restarts
  | _ => .no

/-- Whether the marks of a bundle's check are not all in: in the fragment's lanes (R123), and for a REGION bundle in all of the wave's (R371). -/
def Wave.marksWait (x : Wave) (g : Seq) (b : Bundle) : Bool :=
  b.marks && !x.ctx.ready (portVec .ck .st) (if b.head.region then ~~~x.ctx.vac else g.mask)

/-- Whether a REGION bundle waits for marks that other fragments have to deliver (R371). -/
def Wave.marksElsewhere (x : Wave) (g : Seq) (b : Bundle) : Bool :=
  b.head.region && (List.range 32).any fun l => !x.ctx.vac.getLsbD l && !g.mask.getLsbD l && (x.ctx.port .ck .st l).getLsbD 0

/-- Whether a bundle that sy.sret has made re-enter is still to complete (R358). -/
def Ctx.reenters (c : Ctx) : Bool := (c.seqs ++ c.spill).any fun (_, q) => q.reenter
/-- Whether one of another fragment than that of sequencer `k` is. -/
def Ctx.reentersBut (c : Ctx) (k : Nat) : Bool := (c.seqs.any fun (i, q) => i != k && q.reenter) || c.spill.any fun (_, q) => q.reenter

/-- Whether a merged fragment waits with its reconvergence bundle, since its STACK can be delivered only after the re-entry of another fragment
(R31, R358). -/
def Wave.stackWaits (x : Wave) (q : Nat) (g : Seq) : Bool := g.stacked && !x.handling && !x.traps.isEmpty && x.ctx.reentersBut q

/-- How a fragment stands in this cycle (R57, R285, R351, R355). -/
def State.fragReady (s : State) (w q : Nat) : Ready :=
  match s.wave? w with
  | none => .no
  | some x => match Map.find? x.ctx.seqs q with
    | none => .no
    | some g =>
      if s.waveRuns x && g.parked.isNone && !g.kept && g.part.isNone && !x.ctx.within g.hold then .counted
      else if !s.waveRuns x || !s.atHand g then s.fetchReady x g
      else if x.stackWaits q g then .no
      else if s.stoppedAtSafe x w g then .no
      else if s.partWaits g then s.partReady g
      else match s.nextBundle w g with
        | .fault _ _ => .yes
        | .illegal => .yes
        | .bundle b =>
          let c := x.ctx
          let vs := s.liveMoves x g b
          let first := (g.part.map (·.first)).getD 0
          let reads := g.part.isNone && vs.any fun v => v.readWaits c
          if !x.windowRoom vs then .restarts
          else if reads || (g.part.isNone && x.marksWait g b) then .counted
          else if (g.part.isNone && headerPopWaits b.head c) || !roomFor x (triggersOf c vs) || !s.windowAllows w x b vs first || (g.part.isNone && x.marksElsewhere g b) then .no
          else .yes

/-- Whether a fragment waits for nothing but results of the core's own lane units, which come after a fixed number of cycles: R429 has no team stop there,
inside an iteration. (DEDUCED, log 117) -/
def State.unitStall (s : State) (x : Wave) (w : Nat) (g : Seq) : Bool :=
  s.atHand g && g.part.isNone && x.ctx.within g.hold &&
    match s.nextBundle w g with
    | .bundle b => (s.liveMoves x g b).all fun v => !v.readWaits x.ctx || (match v.m.f.src with | .port u _ => !uniformUnit u && u != .ls && u != .sp | _ => false)
    | _ => false

/-- Whether a fragment parks at its bundle instead of issuing it: the token (R30). -/
def State.parksAt (s : State) (w q : Nat) : Option Nat :=
  match s.wave? w with
  | none => none
  | some x => match Map.find? x.ctx.seqs q with
    | none => none
    | some g =>
      if !s.waveRuns x || !s.atHand g || g.part.isSome || !x.ctx.within g.hold || s.stoppedAtSafe x w g then none
      else match s.nextBundle w g with
        | .bundle b => if b.head.rcv then
            (match Map.find? x.ctx.join b.head.rtok.val with
             | some j => if g.mask &&& j.expect != 0 then some b.head.rtok.val else none
             | none => none)
          else none
        | _ => none

/-- E of R60: the issue cycles a bundle takes beyond the first; a slot that does not decode names no register. (DESIGN CHOICE, log 95) -/
def Bundle.extra (b : Bundle) : Nat :=
  let ms := b.moves.filterMap id
  let reads := (ms.flatMap fun m => match m.f.src with | .main i => [i.val] | .pair i => [2 * i.val, 2 * i.val + 1] | _ => []).eraseDups.length
  let writes := (ms.filterMap fun m => match m.instr with | .moveM0 _ r _ => some r.val | .moveM1 _ r _ => some (128 + r.val) | _ => none).eraseDups.length
  max (max ((reads + 3) / 4) ((writes + 2) / 3)) 1 - 1

/-! The choice of the core (R355). -/

/-- The wave slots of a core with their waves. -/
def State.coreWaves (s : State) (core : Nat) : List (Nat × Wave) := s.waves.filter fun (w, _) => coreOf w == core

/-- A ready fragment as R355 compares it. -/
structure Cand where
  w : Nat
  q : Nat
  fid : Nat
  prio : Nat
  since : Nat
  placed : Nat

/-- The ready fragments of a core. -/
def State.readyOn (s : State) (core : Nat) : List Cand :=
  (s.coreWaves core).flatMap fun (w, x) => x.ctx.seqs.filterMap fun (q, g) =>
    if s.fragReady w q = .yes then some { w := w, q := q, fid := g.fid, prio := x.ctx.prio, since := g.since, placed := x.placed } else none

/-- The least of a list by an order. -/
def leastBy {α : Type} (lt : α → α → Bool) : List α → Option α
  | [] => none
  | a :: t => some (t.foldl (fun b c => if lt c b then c else b) a)

/-- The fragment a core issues (R355). -/
def State.choose (s : State) (core : Nat) : Option (Nat × Nat) :=
  let all := s.readyOn core
  let top := (all.map (·.prio)).foldl max 0
  let cs := all.filter (·.prio == top)
  let late := cs.filter fun c => decide (c.since + 256 ≤ s.now)
  let byAge (a b : Cand) : Bool := decide (a.since < b.since) || (a.since == b.since && (decide (a.w < b.w) || (a.w == b.w && decide (a.q < b.q))))
  let oldest (a b : Cand) : Bool :=
    decide (a.placed < b.placed) || (a.placed == b.placed && (decide (a.w < b.w) || (a.w == b.w && (decide (a.since < b.since) || (a.since == b.since && decide (a.q < b.q))))))
  match leastBy byAge late with
  | some c => some (c.w, c.q)
  | none =>
    match cs.find? fun c => (s.core core).prev == some (c.w, c.fid) with
    | some c => some (c.w, c.q)
    | none => (leastBy oldest cs).map fun c => (c.w, c.q)

end Sys2Proof.Machine
end

