-- ==== Sys2Proof/Machine/Float.lean ====
section
/-! DEFINITION. The units fa and fb (R131 to R137): four cycles (R129), rounding by WSTAT.RM as it stands at the trigger. -/
namespace Sys2Proof.Machine

/-- An operation of fa or fb with one, two or three inputs; `f` takes the rounding mode first. -/
def fa1 (gd : Guard) (t : Twin) (src : Src) (f : Rnd → Word → LaneOut) : Slot :=
  laneOp (twin t .fa .fb) 4 gd src fun m => in1 (f m.x.ctx.rm) m
def fa2 (gd : Guard) (t : Twin) (src : Src) (f : Rnd → Word → Word → LaneOut) : Slot :=
  laneOp (twin t .fa .fb) 4 gd src fun m => in2 (twin t .fa .fb) (f m.x.ctx.rm) m
def fa3 (gd : Guard) (t : Twin) (src : Src) (f : Rnd → Word → Word → Word → LaneOut) : Slot :=
  laneOp (twin t .fa .fb) 4 gd src fun m => in3 (twin t .fa .fb) (f m.x.ctx.rm) m

/-- The fused forms (R134). -/
def fusedOut (p q : Bool) (rm : Rnd) (a b c : Word) : LaneOut := arith [a, b, c] rm false (fusedX p q a b c)

/-- The lesser or greater of two numbers (R135). -/
def pickNum (greater : Bool) (a b : Word) : Word :=
  if (if greater then decide (fpKey b ≤ fpKey a) else decide (fpKey a ≤ fpKey b)) then a else b

/-- min and max (R135). -/
def minMax (greater : Bool) (a b : Word) : LaneOut := arith [a, b] .rne false (some (.nan (pickNum greater a b)))

/-- minn and maxn (R135). -/
def minMaxNum (greater : Bool) (a b : Word) : LaneOut :=
  if isNan a && !isNan b then fpOut b (fpFlags (isSnan a) false false false false)
  else if isNan b && !isNan a then fpOut a (fpFlags (isSnan b) false false false false)
  else minMax greater a b

/-- A comparison (R136); `anyNan` says that a quiet NaN, too, sets NV. -/
def fpCompare (anyNan : Bool) (p : Int → Int → Bool) (a b : Word) : LaneOut :=
  let n := isNan a || isNan b
  fpOut (if !n && p (fpKey0 a) (fpKey0 b) then 1 else 0) (fpFlags (if anyNan then n else isSnan a || isSnan b) false false false false)

/-- rint (R137). -/
def rintOut (rm : Rnd) (a : Word) : LaneOut :=
  match ofFp32 a with
  | .fin x =>
    if x.isZero then fpOut a 0
    else
      let n := roundQuot rm x.num x.den
      fpOut (if n = 0 then fpZero x.neg else rneFp32 ⟨x.neg, n, 1⟩) 0
  | v => arith [a] rm false (some v)

/-- frac (R137). -/
def fracOut (a : Word) : LaneOut :=
  match ofFp32 a with
  | .fin x => fpOut (rneFp32 ⟨x.neg, x.num % x.den, x.den⟩) 0
  | .inf _ => arith [a] .rne false none
  | v => arith [a] .rne false (some v)

/-- fa.add (R134): FP32 addition rounded under WSTAT.RM. -/
def slotFaAdd (gd : Guard) (t : Twin) (src : Src) : Slot := fa2 gd t src fun rm a b => arith [a, b] rm false (addX (ofFp32 a) (ofFp32 b))
/-- fa.add on its own. -/
def execFaAdd (gd : Guard) (t : Twin) (src : Src) (s : State) : Host.Outcome State Fault Refusal := asStep (slotFaAdd gd t src s) s

/-- fa.sub (R134): FP32 subtraction. -/
def slotFaSub (gd : Guard) (t : Twin) (src : Src) : Slot := fa2 gd t src fun rm a b => arith [a, b] rm false (addX (ofFp32 a) (negX (ofFp32 b)))
/-- fa.sub on its own. -/
def execFaSub (gd : Guard) (t : Twin) (src : Src) (s : State) : Host.Outcome State Fault Refusal := asStep (slotFaSub gd t src s) s

/-- fa.mul (R134): FP32 multiplication. -/
def slotFaMul (gd : Guard) (t : Twin) (src : Src) : Slot := fa2 gd t src fun rm a b => arith [a, b] rm false (mulX (ofFp32 a) (ofFp32 b))
/-- fa.mul on its own. -/
def execFaMul (gd : Guard) (t : Twin) (src : Src) (s : State) : Host.Outcome State Fault Refusal := asStep (slotFaMul gd t src s) s

/-- fa.fma (R134): Fused a × b + c with one rounding. -/
def slotFaFma (gd : Guard) (t : Twin) (src : Src) : Slot := fa3 gd t src (fusedOut false false)
/-- fa.fma on its own. -/
def execFaFma (gd : Guard) (t : Twin) (src : Src) (s : State) : Host.Outcome State Fault Refusal := asStep (slotFaFma gd t src s) s

/-- fa.fms (R134): Fused a × b − c. -/
def slotFaFms (gd : Guard) (t : Twin) (src : Src) : Slot := fa3 gd t src (fusedOut false true)
/-- fa.fms on its own. -/
def execFaFms (gd : Guard) (t : Twin) (src : Src) (s : State) : Host.Outcome State Fault Refusal := asStep (slotFaFms gd t src s) s

/-- fa.fnma (R134): Fused −(a × b) − c. -/
def slotFaFnma (gd : Guard) (t : Twin) (src : Src) : Slot := fa3 gd t src (fusedOut true true)
/-- fa.fnma on its own. -/
def execFaFnma (gd : Guard) (t : Twin) (src : Src) (s : State) : Host.Outcome State Fault Refusal := asStep (slotFaFnma gd t src s) s

/-- fa.fnms (R134): Fused −(a × b) + c. -/
def slotFaFnms (gd : Guard) (t : Twin) (src : Src) : Slot := fa3 gd t src (fusedOut true false)
/-- fa.fnms on its own. -/
def execFaFnms (gd : Guard) (t : Twin) (src : Src) (s : State) : Host.Outcome State Fault Refusal := asStep (slotFaFnms gd t src s) s

/-- fa.min (R134): IEEE minimum with NaN propagation. -/
def slotFaMin (gd : Guard) (t : Twin) (src : Src) : Slot := fa2 gd t src fun _ a b => minMax false a b
/-- fa.min on its own. -/
def execFaMin (gd : Guard) (t : Twin) (src : Src) (s : State) : Host.Outcome State Fault Refusal := asStep (slotFaMin gd t src s) s

/-- fa.max (R134): IEEE maximum with NaN propagation. -/
def slotFaMax (gd : Guard) (t : Twin) (src : Src) : Slot := fa2 gd t src fun _ a b => minMax true a b
/-- fa.max on its own. -/
def execFaMax (gd : Guard) (t : Twin) (src : Src) (s : State) : Host.Outcome State Fault Refusal := asStep (slotFaMax gd t src s) s

/-- fa.minn (R134): minimumNumber: a single NaN input yields the other operand. -/
def slotFaMinn (gd : Guard) (t : Twin) (src : Src) : Slot := fa2 gd t src fun _ a b => minMaxNum false a b
/-- fa.minn on its own. -/
def execFaMinn (gd : Guard) (t : Twin) (src : Src) (s : State) : Host.Outcome State Fault Refusal := asStep (slotFaMinn gd t src s) s

/-- fa.maxn (R134): maximumNumber: a single NaN input yields the other operand. -/
def slotFaMaxn (gd : Guard) (t : Twin) (src : Src) : Slot := fa2 gd t src fun _ a b => minMaxNum true a b
/-- fa.maxn on its own. -/
def execFaMaxn (gd : Guard) (t : Twin) (src : Src) (s : State) : Host.Outcome State Fault Refusal := asStep (slotFaMaxn gd t src s) s

/-- fa.eq (R134): FP32 equality comparison to 1 or 0. -/
def slotFaEq (gd : Guard) (t : Twin) (src : Src) : Slot := fa2 gd t src fun _ => fpCompare false fun x y => x == y
/-- fa.eq on its own. -/
def execFaEq (gd : Guard) (t : Twin) (src : Src) (s : State) : Host.Outcome State Fault Refusal := asStep (slotFaEq gd t src s) s

/-- fa.lt (R134): FP32 less-than comparison. -/
def slotFaLt (gd : Guard) (t : Twin) (src : Src) : Slot := fa2 gd t src fun _ => fpCompare true fun x y => decide (x < y)
/-- fa.lt on its own. -/
def execFaLt (gd : Guard) (t : Twin) (src : Src) (s : State) : Host.Outcome State Fault Refusal := asStep (slotFaLt gd t src s) s

/-- fa.le (R134): FP32 less-or-equal comparison. -/
def slotFaLe (gd : Guard) (t : Twin) (src : Src) : Slot := fa2 gd t src fun _ => fpCompare true fun x y => decide (x ≤ y)
/-- fa.le on its own. -/
def execFaLe (gd : Guard) (t : Twin) (src : Src) (s : State) : Host.Outcome State Fault Refusal := asStep (slotFaLe gd t src s) s

/-- fa.un (R134): 1 when either operand is NaN. -/
def slotFaUn (gd : Guard) (t : Twin) (src : Src) : Slot := fa2 gd t src fun _ a b => fpOut (if isNan a || isNan b then 1 else 0) (fpFlags (isSnan a || isSnan b) false false false false)
/-- fa.un on its own. -/
def execFaUn (gd : Guard) (t : Twin) (src : Src) (s : State) : Host.Outcome State Fault Refusal := asStep (slotFaUn gd t src s) s

/-- fa.abs (R134): Clears the sign bit. -/
def slotFaAbs (gd : Guard) (t : Twin) (src : Src) : Slot := fa1 gd t src fun _ a => fpOut (a &&& 0x7FFFFFFF#32) 0
/-- fa.abs on its own. -/
def execFaAbs (gd : Guard) (t : Twin) (src : Src) (s : State) : Host.Outcome State Fault Refusal := asStep (slotFaAbs gd t src s) s

/-- fa.neg (R134): Inverts the sign bit. -/
def slotFaNeg (gd : Guard) (t : Twin) (src : Src) : Slot := fa1 gd t src fun _ a => fpOut (a ^^^ 0x80000000#32) 0
/-- fa.neg on its own. -/
def execFaNeg (gd : Guard) (t : Twin) (src : Src) (s : State) : Host.Outcome State Fault Refusal := asStep (slotFaNeg gd t src s) s

/-- fa.csgn (R134): Takes a's magnitude with b's sign. -/
def slotFaCsgn (gd : Guard) (t : Twin) (src : Src) : Slot := fa2 gd t src fun _ a b => fpOut ((a &&& 0x7FFFFFFF#32) ||| (b &&& 0x80000000#32)) 0
/-- fa.csgn on its own. -/
def execFaCsgn (gd : Guard) (t : Twin) (src : Src) (s : State) : Host.Outcome State Fault Refusal := asStep (slotFaCsgn gd t src s) s

/-- fa.rint (R134): Rounds to an integral FP32 value under WSTAT.RM. -/
def slotFaRint (gd : Guard) (t : Twin) (src : Src) : Slot := fa1 gd t src rintOut
/-- fa.rint on its own. -/
def execFaRint (gd : Guard) (t : Twin) (src : Src) (s : State) : Host.Outcome State Fault Refusal := asStep (slotFaRint gd t src s) s

/-- fa.frac (R134): Fractional part a − trunc(a). -/
def slotFaFrac (gd : Guard) (t : Twin) (src : Src) : Slot := fa1 gd t src fun _ => fracOut
/-- fa.frac on its own. -/
def execFaFrac (gd : Guard) (t : Twin) (src : Src) (s : State) : Host.Outcome State Fault Refusal := asStep (slotFaFrac gd t src s) s

end Sys2Proof.Machine
end

