-- ==== Sys2Proof/Machine/Int.lean ====
section
/-! DEFINITION. Moves to registers and latches (R48 to R50), and the integer, shift and check units
(05_integer_units.md). -/
namespace Sys2Proof.Machine

/-- A move to main-file register m0 to m127 (R48, R50). -/
def slotMoveM0 (gd : Guard) (r : Fin 128) (src : Src) : Slot := withMove gd src fun m s => .ok (s.writeVec m r.val)
/-- MOVE_M0. -/
def execMoveM0 (gd : Guard) (r : Fin 128) (src : Src) (s : State) : Host.Outcome State Fault Refusal := asStep (slotMoveM0 gd r src s) s

/-- A move to main-file register m128 to m191 (R48, R50). -/
def slotMoveM1 (gd : Guard) (r : Fin 64) (src : Src) : Slot := withMove gd src fun m s => .ok (s.writeVec m (128 + r.val))
/-- MOVE_M1. -/
def execMoveM1 (gd : Guard) (r : Fin 64) (src : Src) (s : State) : Host.Outcome State Fault Refusal := asStep (slotMoveM1 gd r src s) s

/-- A move to the lane file (R49, R50). -/
def slotMoveLf (gd : Guard) (d : LfDest) (src : Src) : Slot := withMove gd src fun m s => .ok (s.writeLf m d)
/-- MOVE_LF. -/
def execMoveLf (gd : Guard) (d : LfDest) (src : Src) (s : State) : Host.Outcome State Fault Refusal := asStep (slotMoveLf gd d src s) s

/-- A latch write (R48, R20); a latch the unit lacks is an illegal bundle at this slot (R14). -/
def slotLatchWrite (gd : Guard) (u : FuncUnit) (k : LatchNo) (src : Src) : Slot := fun s =>
  match s.curWave with
  | none => .ok s
  | some (c, x) =>
    if hasLatch u k then withMove gd src (fun m s => .ok (s.writeLatch m u k)) s
    else .trap { cause := 0x01, slot := c.slot, mask := c.cap.mask &&& ~~~x.ctx.vac, info := 0, pc := none }
/-- LATCH_WRITE. -/
def execLatchWrite (gd : Guard) (u : FuncUnit) (k : LatchNo) (src : Src) (s : State) : Host.Outcome State Fault Refusal :=
  asStep (slotLatchWrite gd u k src s) s

/-! The integer ALU: one cycle (R108). -/

/-- An ALU operation with one, two or three inputs. -/
def ia1 (gd : Guard) (t : Twin) (src : Src) (f : Word → LaneOut) : Slot := laneOp (twin t .ia .ib) 1 gd src (in1 f)
def ia2 (gd : Guard) (t : Twin) (src : Src) (f : Word → Word → LaneOut) : Slot := laneOp (twin t .ia .ib) 1 gd src (in2 (twin t .ia .ib) f)
def ia3 (gd : Guard) (t : Twin) (src : Src) (f : Word → Word → Word → LaneOut) : Slot := laneOp (twin t .ia .ib) 1 gd src (in3 (twin t .ia .ib) f)

/-- min.s and max.s, min.u and max.u (R110). -/
def minS (a b : Word) : Word := if a.slt b then a else b
def maxS (a b : Word) : Word := if a.slt b then b else a
def minU (a b : Word) : Word := if a.ult b then a else b
def maxU (a b : Word) : Word := if a.ult b then b else a

/-- ia.add (R110, R111): Integer addition modulo 2^32 with flags in hi. -/
def slotIaAdd (gd : Guard) (t : Twin) (src : Src) : Slot := ia2 gd t src fun a b => addOut a b 0
/-- ia.add on its own. -/
def execIaAdd (gd : Guard) (t : Twin) (src : Src) (s : State) : Host.Outcome State Fault Refusal := asStep (slotIaAdd gd t src s) s

/-- ia.sub (R110, R111): Integer subtraction modulo 2^32 with flags in hi. -/
def slotIaSub (gd : Guard) (t : Twin) (src : Src) : Slot := ia2 gd t src fun a b => subOut a b 0
/-- ia.sub on its own. -/
def execIaSub (gd : Guard) (t : Twin) (src : Src) (s : State) : Host.Outcome State Fault Refusal := asStep (slotIaSub gd t src s) s

/-- ia.and (R110, R111): Bitwise AND. -/
def slotIaAnd (gd : Guard) (t : Twin) (src : Src) : Slot := ia2 gd t src fun a b => plainOut (a &&& b)
/-- ia.and on its own. -/
def execIaAnd (gd : Guard) (t : Twin) (src : Src) (s : State) : Host.Outcome State Fault Refusal := asStep (slotIaAnd gd t src s) s

/-- ia.or (R110, R111): Bitwise OR. -/
def slotIaOr (gd : Guard) (t : Twin) (src : Src) : Slot := ia2 gd t src fun a b => plainOut (a ||| b)
/-- ia.or on its own. -/
def execIaOr (gd : Guard) (t : Twin) (src : Src) (s : State) : Host.Outcome State Fault Refusal := asStep (slotIaOr gd t src s) s

/-- ia.xor (R110, R111): Bitwise exclusive OR. -/
def slotIaXor (gd : Guard) (t : Twin) (src : Src) : Slot := ia2 gd t src fun a b => plainOut (a ^^^ b)
/-- ia.xor on its own. -/
def execIaXor (gd : Guard) (t : Twin) (src : Src) (s : State) : Host.Outcome State Fault Refusal := asStep (slotIaXor gd t src s) s

/-- ia.andn (R110, R111): a AND NOT b. -/
def slotIaAndn (gd : Guard) (t : Twin) (src : Src) : Slot := ia2 gd t src fun a b => plainOut (a &&& ~~~b)
/-- ia.andn on its own. -/
def execIaAndn (gd : Guard) (t : Twin) (src : Src) (s : State) : Host.Outcome State Fault Refusal := asStep (slotIaAndn gd t src s) s

/-- ia.orn (R110, R111): a OR NOT b. -/
def slotIaOrn (gd : Guard) (t : Twin) (src : Src) : Slot := ia2 gd t src fun a b => plainOut (a ||| ~~~b)
/-- ia.orn on its own. -/
def execIaOrn (gd : Guard) (t : Twin) (src : Src) (s : State) : Host.Outcome State Fault Refusal := asStep (slotIaOrn gd t src s) s

/-- ia.min.s (R110, R111): Signed minimum. -/
def slotIaMinS (gd : Guard) (t : Twin) (src : Src) : Slot := ia2 gd t src fun a b => plainOut (minS a b)
/-- ia.min.s on its own. -/
def execIaMinS (gd : Guard) (t : Twin) (src : Src) (s : State) : Host.Outcome State Fault Refusal := asStep (slotIaMinS gd t src s) s

/-- ia.max.s (R110, R111): Signed maximum. -/
def slotIaMaxS (gd : Guard) (t : Twin) (src : Src) : Slot := ia2 gd t src fun a b => plainOut (maxS a b)
/-- ia.max.s on its own. -/
def execIaMaxS (gd : Guard) (t : Twin) (src : Src) (s : State) : Host.Outcome State Fault Refusal := asStep (slotIaMaxS gd t src s) s

/-- ia.min.u (R110, R111): Unsigned minimum. -/
def slotIaMinU (gd : Guard) (t : Twin) (src : Src) : Slot := ia2 gd t src fun a b => plainOut (minU a b)
/-- ia.min.u on its own. -/
def execIaMinU (gd : Guard) (t : Twin) (src : Src) (s : State) : Host.Outcome State Fault Refusal := asStep (slotIaMinU gd t src s) s

/-- ia.max.u (R110, R111): Unsigned maximum. -/
def slotIaMaxU (gd : Guard) (t : Twin) (src : Src) : Slot := ia2 gd t src fun a b => plainOut (maxU a b)
/-- ia.max.u on its own. -/
def execIaMaxU (gd : Guard) (t : Twin) (src : Src) (s : State) : Host.Outcome State Fault Refusal := asStep (slotIaMaxU gd t src s) s

/-- ia.eq (R110, R111): 1 if a equals b, else 0. -/
def slotIaEq (gd : Guard) (t : Twin) (src : Src) : Slot := ia2 gd t src fun a b => boolOut (a == b)
/-- ia.eq on its own. -/
def execIaEq (gd : Guard) (t : Twin) (src : Src) (s : State) : Host.Outcome State Fault Refusal := asStep (slotIaEq gd t src s) s

/-- ia.ne (R110, R111): 1 if a differs from b, else 0. -/
def slotIaNe (gd : Guard) (t : Twin) (src : Src) : Slot := ia2 gd t src fun a b => boolOut (a != b)
/-- ia.ne on its own. -/
def execIaNe (gd : Guard) (t : Twin) (src : Src) (s : State) : Host.Outcome State Fault Refusal := asStep (slotIaNe gd t src s) s

/-- ia.lt.s (R110, R111): Signed less-than comparison. -/
def slotIaLtS (gd : Guard) (t : Twin) (src : Src) : Slot := ia2 gd t src fun a b => boolOut (a.slt b)
/-- ia.lt.s on its own. -/
def execIaLtS (gd : Guard) (t : Twin) (src : Src) (s : State) : Host.Outcome State Fault Refusal := asStep (slotIaLtS gd t src s) s

/-- ia.le.s (R110, R111): Signed less-or-equal comparison. -/
def slotIaLeS (gd : Guard) (t : Twin) (src : Src) : Slot := ia2 gd t src fun a b => boolOut (a.sle b)
/-- ia.le.s on its own. -/
def execIaLeS (gd : Guard) (t : Twin) (src : Src) (s : State) : Host.Outcome State Fault Refusal := asStep (slotIaLeS gd t src s) s

/-- ia.lt.u (R110, R111): Unsigned less-than comparison. -/
def slotIaLtU (gd : Guard) (t : Twin) (src : Src) : Slot := ia2 gd t src fun a b => boolOut (a.ult b)
/-- ia.lt.u on its own. -/
def execIaLtU (gd : Guard) (t : Twin) (src : Src) (s : State) : Host.Outcome State Fault Refusal := asStep (slotIaLtU gd t src s) s

/-- ia.le.u (R110, R111): Unsigned less-or-equal comparison. -/
def slotIaLeU (gd : Guard) (t : Twin) (src : Src) : Slot := ia2 gd t src fun a b => boolOut (a.ule b)
/-- ia.le.u on its own. -/
def execIaLeU (gd : Guard) (t : Twin) (src : Src) (s : State) : Host.Outcome State Fault Refusal := asStep (slotIaLeU gd t src s) s

/-- ia.sel (R110, R111): Selects a if c is non-zero, else b. -/
def slotIaSel (gd : Guard) (t : Twin) (src : Src) : Slot := ia3 gd t src fun a b c => plainOut (if c ≠ 0 then a else b)
/-- ia.sel on its own. -/
def execIaSel (gd : Guard) (t : Twin) (src : Src) (s : State) : Host.Outcome State Fault Refusal := asStep (slotIaSel gd t src s) s

/-- ia.sext.b (R110, R111): Sign-extends the low byte. -/
def slotIaSextB (gd : Guard) (t : Twin) (src : Src) : Slot := ia1 gd t src fun a => plainOut ((a.setWidth 8).signExtend 32)
/-- ia.sext.b on its own. -/
def execIaSextB (gd : Guard) (t : Twin) (src : Src) (s : State) : Host.Outcome State Fault Refusal := asStep (slotIaSextB gd t src s) s

/-- ia.sext.h (R110, R111): Sign-extends the low half-word. -/
def slotIaSextH (gd : Guard) (t : Twin) (src : Src) : Slot := ia1 gd t src fun a => plainOut ((a.setWidth 16).signExtend 32)
/-- ia.sext.h on its own. -/
def execIaSextH (gd : Guard) (t : Twin) (src : Src) (s : State) : Host.Outcome State Fault Refusal := asStep (slotIaSextH gd t src s) s

/-- ia.zext.b (R110, R111): Zero-extends the low byte. -/
def slotIaZextB (gd : Guard) (t : Twin) (src : Src) : Slot := ia1 gd t src fun a => plainOut ((a.setWidth 8).setWidth 32)
/-- ia.zext.b on its own. -/
def execIaZextB (gd : Guard) (t : Twin) (src : Src) (s : State) : Host.Outcome State Fault Refusal := asStep (slotIaZextB gd t src s) s

/-- ia.zext.h (R110, R111): Zero-extends the low half-word. -/
def slotIaZextH (gd : Guard) (t : Twin) (src : Src) : Slot := ia1 gd t src fun a => plainOut ((a.setWidth 16).setWidth 32)
/-- ia.zext.h on its own. -/
def execIaZextH (gd : Guard) (t : Twin) (src : Src) (s : State) : Host.Outcome State Fault Refusal := asStep (slotIaZextH gd t src s) s

/-- ia.abs (R110, R111): Absolute value of the signed operand. -/
def slotIaAbs (gd : Guard) (t : Twin) (src : Src) : Slot := ia1 gd t src fun a => iaOut (if a.getLsbD 31 then -a else a) false (a == 0x80000000#32)
/-- ia.abs on its own. -/
def execIaAbs (gd : Guard) (t : Twin) (src : Src) (s : State) : Host.Outcome State Fault Refusal := asStep (slotIaAbs gd t src s) s

/-- ia.neg (R110, R111): Two's-complement negation. -/
def slotIaNeg (gd : Guard) (t : Twin) (src : Src) : Slot := ia1 gd t src fun a => iaOut (-a) (a != 0) (a == 0x80000000#32)
/-- ia.neg on its own. -/
def execIaNeg (gd : Guard) (t : Twin) (src : Src) (s : State) : Host.Outcome State Fault Refusal := asStep (slotIaNeg gd t src s) s

/-- ia.adds.s (R110, R111): Saturating signed addition. -/
def slotIaAddsS (gd : Guard) (t : Twin) (src : Src) : Slot := ia2 gd t src fun a b => satOut (a.toInt + b.toInt)
/-- ia.adds.s on its own. -/
def execIaAddsS (gd : Guard) (t : Twin) (src : Src) (s : State) : Host.Outcome State Fault Refusal := asStep (slotIaAddsS gd t src s) s

/-- ia.subs.s (R110, R111): Saturating signed subtraction. -/
def slotIaSubsS (gd : Guard) (t : Twin) (src : Src) : Slot := ia2 gd t src fun a b => satOut (a.toInt - b.toInt)
/-- ia.subs.s on its own. -/
def execIaSubsS (gd : Guard) (t : Twin) (src : Src) (s : State) : Host.Outcome State Fault Refusal := asStep (slotIaSubsS gd t src s) s

/-- ia.add.co (R110, R111): Addition with carry-in from c[0] and carry-out in hi. -/
def slotIaAddCo (gd : Guard) (t : Twin) (src : Src) : Slot := ia3 gd t src fun a b c => addOut a b (c.toNat % 2)
/-- ia.add.co on its own. -/
def execIaAddCo (gd : Guard) (t : Twin) (src : Src) (s : State) : Host.Outcome State Fault Refusal := asStep (slotIaAddCo gd t src s) s

/-- ia.sub.bo (R110, R111): Subtraction with borrow-in from c[0] and borrow-out in hi. -/
def slotIaSubBo (gd : Guard) (t : Twin) (src : Src) : Slot := ia3 gd t src fun a b c => subOut a b (c.toNat % 2)
/-- ia.sub.bo on its own. -/
def execIaSubBo (gd : Guard) (t : Twin) (src : Src) (s : State) : Host.Outcome State Fault Refusal := asStep (slotIaSubBo gd t src s) s

/-- ia.mov (R110, R111): Copies its operand to res. -/
def slotIaMov (gd : Guard) (t : Twin) (src : Src) : Slot := ia1 gd t src fun a => plainOut a
/-- ia.mov on its own. -/
def execIaMov (gd : Guard) (t : Twin) (src : Src) (s : State) : Host.Outcome State Fault Refusal := asStep (slotIaMov gd t src s) s

/-! Multiply and divide (R112 to R117). -/

/-- A multiply form: three cycles (R115). -/
def ma2 (gd : Guard) (t : Twin) (src : Src) (f : Word → Word → LaneOut) : Slot := laneOp (twin t .ma .mb) 3 gd src (in2 (twin t .ma .mb) f)
def ma3 (gd : Guard) (t : Twin) (src : Src) (f : Word → Word → Word → LaneOut) : Slot := laneOp (twin t .ma .mb) 3 gd src (in3 (twin t .ma .mb) f)

/-- A signed 64-bit product or sum as an unsigned pattern (R112). -/
def mod64 (i : Int) : Nat := (i % 2 ^ 64).toNat

/-- Quotient and remainder, truncated toward zero when signed; the case 0x8000_0000 / 0xFFFF_FFFF gives 0x8000_0000 and 0
(R112, R113). A division by 0, which only a shadow lane carries out, has a free result. (DESIGN CHOICE, log 97) -/
def divide (signed : Bool) (a b : Word) : Word × Word :=
  if b = 0 then Config.divByZero signed a
  else if signed then (BitVec.ofInt 32 (Int.tdiv a.toInt b.toInt), BitVec.ofInt 32 (Int.tmod a.toInt b.toInt))
  else (BitVec.ofNat 32 (a.toNat / b.toNat), BitVec.ofNat 32 (a.toNat % b.toNat))

/-- The number of significant bits of a natural number. -/
def sigBits (n : Nat) : Nat := if n = 0 then 0 else Nat.log2 n + 1

/-- |q| of R117. -/
def quotMag (signed : Bool) (a b : Word) : Nat :=
  if signed then (Int.tdiv a.toInt b.toInt).natAbs else a.toNat / b.toNat

/-- The latency of a divide over its enabled lanes (R117). -/
def divLatency (qs : List Nat) : Nat := 8 + 7 * ((qs.foldl (fun m q => max m (sigBits q)) 0 + 7) / 8)

/-- A divide or remainder: ARITH when an enabled lane divides by zero (R114); the quotient in res or in hi (R112). -/
def divOp (gd : Guard) (t : Twin) (src : Src) (signed rem : Bool) : Slot := withMove gd src fun m s =>
  let u := twin t .ma .mb
  let a (l : Nat) : Word := m.latchW u .o1 l
  let zero := maskWhere fun l => m.real.getLsbD l && (m.tw l == 0)
  if zero ≠ 0 then m.trap 0x0F zero 0
  else
    let out (l : Nat) : LaneOut :=
      let (q, r) := divide signed (a l) (m.tw l)
      let st := maFlags (signed && (a l == 0x80000000#32) && (m.tw l == 0xFFFFFFFF#32)) false
      if rem then ⟨r, q, st⟩ else ⟨q, r, st⟩
    .ok (s.start m.w u (portsOf u) m.en (divLatency ((lanesOf m.real).map fun l => quotMag signed (a l) (m.tw l))) out)

/-- ma.mul.lo (R112, R113): Low 32 bits of the product, high word in hi. -/
def slotMaMulLo (gd : Guard) (t : Twin) (src : Src) : Slot := ma2 gd t src fun a b => wideOut (a.toNat * b.toNat) (overS (a.toInt * b.toInt)) (decide (2 ^ 32 ≤ a.toNat * b.toNat))
/-- ma.mul.lo on its own. -/
def execMaMulLo (gd : Guard) (t : Twin) (src : Src) (s : State) : Host.Outcome State Fault Refusal := asStep (slotMaMulLo gd t src s) s

/-- ma.mul.hi.s (R112, R113): High 32 bits of the signed product. -/
def slotMaMulHiS (gd : Guard) (t : Twin) (src : Src) : Slot := ma2 gd t src fun a b => highOut (mod64 (a.toInt * b.toInt))
/-- ma.mul.hi.s on its own. -/
def execMaMulHiS (gd : Guard) (t : Twin) (src : Src) (s : State) : Host.Outcome State Fault Refusal := asStep (slotMaMulHiS gd t src s) s

/-- ma.mul.hi.u (R112, R113): High 32 bits of the unsigned product. -/
def slotMaMulHiU (gd : Guard) (t : Twin) (src : Src) : Slot := ma2 gd t src fun a b => highOut (a.toNat * b.toNat)
/-- ma.mul.hi.u on its own. -/
def execMaMulHiU (gd : Guard) (t : Twin) (src : Src) (s : State) : Host.Outcome State Fault Refusal := asStep (slotMaMulHiU gd t src s) s

/-- ma.mad.lo (R112, R113): Low 32 bits of a × b + c. -/
def slotMaMadLo (gd : Guard) (t : Twin) (src : Src) : Slot := ma3 gd t src fun a b c => wideOut (a.toNat * b.toNat + c.toNat) (overS (a.toInt * b.toInt + c.toInt)) (decide (2 ^ 32 ≤ a.toNat * b.toNat + c.toNat))
/-- ma.mad.lo on its own. -/
def execMaMadLo (gd : Guard) (t : Twin) (src : Src) (s : State) : Host.Outcome State Fault Refusal := asStep (slotMaMadLo gd t src s) s

/-- ma.mad.wide.s (R112, R113): Full 64-bit signed a × b + c in res and hi. -/
def slotMaMadWideS (gd : Guard) (t : Twin) (src : Src) : Slot := ma3 gd t src fun a b c => wideOut (mod64 (a.toInt * b.toInt + c.toInt)) false false
/-- ma.mad.wide.s on its own. -/
def execMaMadWideS (gd : Guard) (t : Twin) (src : Src) (s : State) : Host.Outcome State Fault Refusal := asStep (slotMaMadWideS gd t src s) s

/-- ma.mad.wide.u (R112, R113): Full 64-bit unsigned a × b + c in res and hi. -/
def slotMaMadWideU (gd : Guard) (t : Twin) (src : Src) : Slot := ma3 gd t src fun a b c => wideOut (a.toNat * b.toNat + c.toNat) false false
/-- ma.mad.wide.u on its own. -/
def execMaMadWideU (gd : Guard) (t : Twin) (src : Src) (s : State) : Host.Outcome State Fault Refusal := asStep (slotMaMadWideU gd t src s) s

/-- ma.div.u (R112, R113): Unsigned quotient with remainder in hi; a zero divisor raises ARITH. -/
def slotMaDivU (gd : Guard) (t : Twin) (src : Src) : Slot := divOp gd t src false false
/-- ma.div.u on its own. -/
def execMaDivU (gd : Guard) (t : Twin) (src : Src) (s : State) : Host.Outcome State Fault Refusal := asStep (slotMaDivU gd t src s) s

/-- ma.div.s (R112, R113): Signed truncating quotient with remainder in hi; a zero divisor raises ARITH. -/
def slotMaDivS (gd : Guard) (t : Twin) (src : Src) : Slot := divOp gd t src true false
/-- ma.div.s on its own. -/
def execMaDivS (gd : Guard) (t : Twin) (src : Src) (s : State) : Host.Outcome State Fault Refusal := asStep (slotMaDivS gd t src s) s

/-- ma.rem.u (R112, R113): Unsigned remainder with quotient in hi; a zero divisor raises ARITH. -/
def slotMaRemU (gd : Guard) (t : Twin) (src : Src) : Slot := divOp gd t src false true
/-- ma.rem.u on its own. -/
def execMaRemU (gd : Guard) (t : Twin) (src : Src) (s : State) : Host.Outcome State Fault Refusal := asStep (slotMaRemU gd t src s) s

/-- ma.rem.s (R112, R113): Signed remainder with quotient in hi; a zero divisor raises ARITH. -/
def slotMaRemS (gd : Guard) (t : Twin) (src : Src) : Slot := divOp gd t src true true
/-- ma.rem.s on its own. -/
def execMaRemS (gd : Guard) (t : Twin) (src : Src) (s : State) : Host.Outcome State Fault Refusal := asStep (slotMaRemS gd t src s) s

/-! Shift and bit-field (R118 to R120): one cycle. -/

def sa1 (gd : Guard) (t : Twin) (src : Src) (f : Word → Word) : Slot :=
  laneOp (twin t .sa .sb) 1 gd src (in1 fun a => resOut (f a))
def sa2 (gd : Guard) (t : Twin) (src : Src) (f : Word → Word → Word) : Slot :=
  laneOp (twin t .sa .sb) 1 gd src (in2 (twin t .sa .sb) fun a b => resOut (f a b))
def sa3 (gd : Guard) (t : Twin) (src : Src) (f : Word → Word → Word → Word) : Slot :=
  laneOp (twin t .sa .sb) 1 gd src (in3 (twin t .sa .sb) fun a b c => resOut (f a b c))

/-- POS and LEN of a field operand (R118, R120). -/
def fieldPos (f : Word) : Nat := min (f.toNat % 256) 32
def fieldLen (f : Word) : Nat := min (f.toNat / 256 % 256) 32

/-- The field of bext (R120). -/
def extractField (a f : Word) : Nat := a.toNat / 2 ^ fieldPos f % 2 ^ fieldLen f

/-- bext.s (R120). -/
def extractSigned (a f : Word) : Word :=
  let t := extractField a f
  let n := fieldLen f
  if n = 0 then 0 else if 2 ^ (n - 1) ≤ t then BitVec.ofInt 32 ((t : Int) - 2 ^ n) else BitVec.ofNat 32 t

/-- bins (R120). -/
def insertField (a b f : Word) : Word :=
  let m := BitVec.ofNat 32 ((2 ^ fieldLen f - 1) * 2 ^ fieldPos f)
  (a &&& ~~~m) ||| (BitVec.ofNat 32 (b.toNat * 2 ^ fieldPos f) &&& m)

/-- The number of 1 bits. -/
def popCount (a : Word) : Nat := laneCount a
/-- Zeros above the highest 1 bit. -/
def leadingZeros (a : Word) : Nat := 32 - sigBits a.toNat
/-- Zeros below the lowest 1 bit. -/
def trailingZeros (a : Word) : Nat := (lowest a).getD 32
/-- The bits in reverse order. -/
def reverseBits (a : Word) : Word := maskWhere fun k => a.getLsbD (31 - k)

/-- perm (R120). -/
def permBytes (a b c : Word) : Word :=
  let v := a.toNat + b.toNat * 2 ^ 32
  let y (k : Nat) : Nat :=
    let n := c.toNat / 16 ^ k % 16
    let x := v / 256 ^ (n % 8) % 256
    if n / 8 = 1 then (if 128 ≤ x then 255 else 0) else x
  BitVec.ofNat 32 (y 0 + y 1 * 256 + y 2 * 65536 + y 3 * 16777216)

/-- sa.shl (R119, R120): Logical shift left. -/
def slotSaShl (gd : Guard) (t : Twin) (src : Src) : Slot := sa2 gd t src fun a b => if 32 ≤ b.toNat then 0 else a <<< b.toNat
/-- sa.shl on its own. -/
def execSaShl (gd : Guard) (t : Twin) (src : Src) (s : State) : Host.Outcome State Fault Refusal := asStep (slotSaShl gd t src s) s

/-- sa.shr (R119, R120): Logical shift right. -/
def slotSaShr (gd : Guard) (t : Twin) (src : Src) : Slot := sa2 gd t src fun a b => if 32 ≤ b.toNat then 0 else a >>> b.toNat
/-- sa.shr on its own. -/
def execSaShr (gd : Guard) (t : Twin) (src : Src) (s : State) : Host.Outcome State Fault Refusal := asStep (slotSaShr gd t src s) s

/-- sa.sar (R119, R120): Arithmetic shift right. -/
def slotSaSar (gd : Guard) (t : Twin) (src : Src) : Slot := sa2 gd t src fun a b => a.sshiftRight (min b.toNat 31)
/-- sa.sar on its own. -/
def execSaSar (gd : Guard) (t : Twin) (src : Src) (s : State) : Host.Outcome State Fault Refusal := asStep (slotSaSar gd t src s) s

/-- sa.rotl (R119, R120): Rotate left by the amount modulo 32. -/
def slotSaRotl (gd : Guard) (t : Twin) (src : Src) : Slot := sa2 gd t src fun a b => a.rotateLeft (b.toNat % 32)
/-- sa.rotl on its own. -/
def execSaRotl (gd : Guard) (t : Twin) (src : Src) (s : State) : Host.Outcome State Fault Refusal := asStep (slotSaRotl gd t src s) s

/-- sa.rotr (R119, R120): Rotate right by the amount modulo 32. -/
def slotSaRotr (gd : Guard) (t : Twin) (src : Src) : Slot := sa2 gd t src fun a b => a.rotateRight (b.toNat % 32)
/-- sa.rotr on its own. -/
def execSaRotr (gd : Guard) (t : Twin) (src : Src) (s : State) : Host.Outcome State Fault Refusal := asStep (slotSaRotr gd t src s) s

/-- sa.bext.u (R119, R120): Extracts an unsigned bit field. -/
def slotSaBextU (gd : Guard) (t : Twin) (src : Src) : Slot := sa2 gd t src fun a b => BitVec.ofNat 32 (extractField a b)
/-- sa.bext.u on its own. -/
def execSaBextU (gd : Guard) (t : Twin) (src : Src) (s : State) : Host.Outcome State Fault Refusal := asStep (slotSaBextU gd t src s) s

/-- sa.bext.s (R119, R120): Extracts a sign-extended bit field. -/
def slotSaBextS (gd : Guard) (t : Twin) (src : Src) : Slot := sa2 gd t src fun a b => extractSigned a b
/-- sa.bext.s on its own. -/
def execSaBextS (gd : Guard) (t : Twin) (src : Src) (s : State) : Host.Outcome State Fault Refusal := asStep (slotSaBextS gd t src s) s

/-- sa.bins (R119, R120): Inserts bits into a field of the base. -/
def slotSaBins (gd : Guard) (t : Twin) (src : Src) : Slot := sa3 gd t src fun a b c => insertField a b c
/-- sa.bins on its own. -/
def execSaBins (gd : Guard) (t : Twin) (src : Src) (s : State) : Host.Outcome State Fault Refusal := asStep (slotSaBins gd t src s) s

/-- sa.popc (R119, R120): Counts the 1 bits. -/
def slotSaPopc (gd : Guard) (t : Twin) (src : Src) : Slot := sa1 gd t src fun a => BitVec.ofNat 32 (popCount a)
/-- sa.popc on its own. -/
def execSaPopc (gd : Guard) (t : Twin) (src : Src) (s : State) : Host.Outcome State Fault Refusal := asStep (slotSaPopc gd t src s) s

/-- sa.clz (R119, R120): Counts leading zeros. -/
def slotSaClz (gd : Guard) (t : Twin) (src : Src) : Slot := sa1 gd t src fun a => BitVec.ofNat 32 (leadingZeros a)
/-- sa.clz on its own. -/
def execSaClz (gd : Guard) (t : Twin) (src : Src) (s : State) : Host.Outcome State Fault Refusal := asStep (slotSaClz gd t src s) s

/-- sa.ctz (R119, R120): Counts trailing zeros. -/
def slotSaCtz (gd : Guard) (t : Twin) (src : Src) : Slot := sa1 gd t src fun a => BitVec.ofNat 32 (trailingZeros a)
/-- sa.ctz on its own. -/
def execSaCtz (gd : Guard) (t : Twin) (src : Src) (s : State) : Host.Outcome State Fault Refusal := asStep (slotSaCtz gd t src s) s

/-- sa.brev (R119, R120): Reverses the bit order. -/
def slotSaBrev (gd : Guard) (t : Twin) (src : Src) : Slot := sa1 gd t src fun a => reverseBits a
/-- sa.brev on its own. -/
def execSaBrev (gd : Guard) (t : Twin) (src : Src) (s : State) : Host.Outcome State Fault Refusal := asStep (slotSaBrev gd t src s) s

/-- sa.perm (R119, R120): Permutes bytes of two words under a nibble selector with sign fill. -/
def slotSaPerm (gd : Guard) (t : Twin) (src : Src) : Slot := sa3 gd t src fun a b c => permBytes a b c
/-- sa.perm on its own. -/
def execSaPerm (gd : Guard) (t : Twin) (src : Src) (s : State) : Host.Outcome State Fault Refusal := asStep (slotSaPerm gd t src s) s

/-- sa.fsh (R119, R120): Funnel shift right of a 64-bit pair. -/
def slotSaFsh (gd : Guard) (t : Twin) (src : Src) : Slot := sa3 gd t src fun a b c => BitVec.ofNat 32 ((a.toNat + 2 ^ 32 * b.toNat) / 2 ^ (c.toNat % 64))
/-- sa.fsh on its own. -/
def execSaFsh (gd : Guard) (t : Twin) (src : Src) (s : State) : Host.Outcome State Fault Refusal := asStep (slotSaFsh gd t src s) s

/-! The check unit (R121 to R123). -/

/-- An immediate check: CHECK_MISMATCH at the slot for the lanes that fail, else st unchanged (R122). A shadow lane does
not contribute (R127). -/
def checkOp (gd : Guard) (src : Src) (fails : MoveIn → Nat → Bool) : Slot := withMove gd src fun m s =>
  let f := maskWhere fun l => m.real.getLsbD l && fails m l
  if f ≠ 0 then m.trap 0x08 f 0
  else .ok (s.start m.w .ck [.st] m.en 1 fun l => ⟨0, 0, m.x.ctx.port .ck .st l⟩)

/-- ck.eq (R121, R122): Raises CHECK_MISMATCH at its slot for lanes where a differs from b. -/
def slotCkEq (gd : Guard) (src : Src) : Slot := checkOp gd src (in2 .ck fun a b => a != b)
/-- ck.eq on its own. -/
def execCkEq (gd : Guard) (src : Src) (s : State) : Host.Outcome State Fault Refusal := asStep (slotCkEq gd src s) s

/-- ck.rng (R121, R122): Raises CHECK_MISMATCH for lanes whose value lies outside the bounds. -/
def slotCkRng (gd : Guard) (src : Src) : Slot := checkOp gd src (in3 .ck fun a b c => c.ult a || b.ult c)
/-- ck.rng on its own. -/
def execCkRng (gd : Guard) (src : Src) (s : State) : Host.Outcome State Fault Refusal := asStep (slotCkRng gd src s) s

/-- ck.mark (R121, R123): Records a deferred mismatch in PEND for later delivery; a shadow lane's PEND stays as it is. (DEDUCED, log 119) -/
def slotCkMark (gd : Guard) (src : Src) : Slot := withMove gd src fun m s =>
  .ok (s.start m.w .ck [.st] m.en 1 fun l =>
    ⟨0, 0, m.x.ctx.port .ck .st l ||| (if m.real.getLsbD l && in2 .ck (fun a b => a != b) m l then 1 else 0)⟩)
/-- ck.mark on its own. -/
def execCkMark (gd : Guard) (src : Src) (s : State) : Host.Outcome State Fault Refusal := asStep (slotCkMark gd src s) s

end Sys2Proof.Machine
end

