-- ==== Sys2Proof/Machine/Xlane.lean ====
section
/-! DEFINITION. The cross-lane unit xl (R197 to R202). -/
namespace Sys2Proof.Machine

/-- An xl operation: every enabled lane receives its results after `lat` cycles; a shadow lane receives its partner's (R197). -/
def xlOp (lat : Nat) (gd : Guard) (src : Src) (f : MoveIn → Nat → LaneOut) : Slot :=
  withReal gd src fun m s =>
    let sh := m.x.ctx.shadows
    .ok (s.start m.w .xl [.res, .hi] m.en lat fun l => f m (if sh.getLsbD l then l ^^^ 16 else l))

/-- A result that is the same in every lane, with the EN mask in hi (R199). -/
def enOut (f : MoveIn → Word) (m : MoveIn) (_ : Nat) : LaneOut := ⟨f m, m.real, 0⟩

/-- The trigger values of the lanes of EN, ascending. -/
def MoveIn.values (m : MoveIn) : List Word := (lanesOf m.real).map m.tw

/-- A take (R198): `pick` gives the source lane from the lane, the segment's base and size, and the lane operand; none is out
of range. -/
def takeOut (pick : Nat → Nat → Nat → Nat → Option Nat) (m : MoveIn) (l : Nat) : LaneOut :=
  let t := m.tw l
  let size := 2 ^ (5 - min (wfield t 10 8) 4)
  let base := l - l % size
  match pick l base size (wfield t 5 0) with
  | some k => if !m.x.ctx.vac.getLsbD k then ⟨m.latchW .xl .o1 k, 1, 0⟩ else ⟨m.latchW .xl .o1 l, 0, 0⟩
  | none => ⟨m.latchW .xl .o1 l, 0, 0⟩

/-- The four ways of naming a source lane (R198). -/
def pickIx (_ base size d : Nat) : Option Nat := some (base + d % size)
def pickRot (l base size d : Nat) : Option Nat := some (base + (l - base + d) % size)
def pickSh (l base size d : Nat) : Option Nat :=
  let k : Int := (l : Int) + (BitVec.ofNat 6 d).toInt
  if k < (base : Int) ∨ ((base + size : Nat) : Int) ≤ k then none else some k.toNat
def pickMir (l base size d : Nat) : Option Nat := some (base + ((l - base) ^^^ (d % size)))

/-- An FP32 number in units of 2^-149: every finite one is a whole number of them. -/
def fpUnits (v : Word) : Int :=
  match ofFp32 v with
  | .fin x => x.signed * 2 ^ 149 / (x.den : Int)
  | _ => 0

/-- The exact sum of FP32 values, rounded once, and its flags (R200). -/
def fpSum (vs : List Word) : Word × Word :=
  match vs.find? isNan with
  | some n => (quiet n, fpFlags (vs.any isSnan) false false false false)
  | none =>
    let pos := vs.any fun v => v == fpInf false
    let neg := vs.any fun v => v == fpInf true
    if pos && neg then (defaultNan, fpFlags true false false false false)
    else if pos then (fpInf false, 0)
    else if neg then (fpInf true, 0)
    else
      let sum := (vs.map fpUnits).foldl (· + ·) 0
      if sum = 0 then (fpZero (vs.all fun v => v == fpZero true), 0)
      else
        let r := arithFin ⟨decide (sum < 0), sum.natAbs, 2 ^ 149⟩ .rne false false
        (r.res, r.st)

/-- The sum of words modulo 2^32. -/
def wordSum (vs : List Word) : Word := vs.foldl (· + ·) 0
/-- A non-empty fold. -/
def foldWords (f : Word → Word → Word) : List Word → Word
  | [] => 0
  | v :: vs => vs.foldl f v

/-- The trigger values of the lanes of EN up to `l` (R201). -/
def MoveIn.prefixOf (m : MoveIn) (l : Nat) : List Word := ((lanesOf m.real).filter fun k => decide (k ≤ l)).map m.tw

/-- The result of a floating sum, its flags in hi. -/
def sumOut (r : Word × Word) : LaneOut := ⟨r.1, r.2, 0⟩

/-- xl.take.ix (R198). -/
def slotXlTakeIx (gd : Guard) (src : Src) : Slot := xlOp 3 gd src (takeOut pickIx)
/-- The same on its own. -/
def execXlTakeIx (gd : Guard) (src : Src) (s : State) : Host.Outcome State Fault Refusal := asStep (slotXlTakeIx gd src s) s

/-- xl.take.rot (R198). -/
def slotXlTakeRot (gd : Guard) (src : Src) : Slot := xlOp 3 gd src (takeOut pickRot)
/-- The same on its own. -/
def execXlTakeRot (gd : Guard) (src : Src) (s : State) : Host.Outcome State Fault Refusal := asStep (slotXlTakeRot gd src s) s

/-- xl.take.sh (R198). -/
def slotXlTakeSh (gd : Guard) (src : Src) : Slot := xlOp 3 gd src (takeOut pickSh)
/-- The same on its own. -/
def execXlTakeSh (gd : Guard) (src : Src) (s : State) : Host.Outcome State Fault Refusal := asStep (slotXlTakeSh gd src s) s

/-- xl.take.mir (R198). -/
def slotXlTakeMir (gd : Guard) (src : Src) : Slot := xlOp 3 gd src (takeOut pickMir)
/-- The same on its own. -/
def execXlTakeMir (gd : Guard) (src : Src) (s : State) : Host.Outcome State Fault Refusal := asStep (slotXlTakeMir gd src s) s

/-- xl.spread: T of the lowest enabled lane (R197). -/
def slotXlSpread (gd : Guard) (src : Src) : Slot := xlOp 3 gd src (enOut fun m => m.tw m.low)
/-- The same on its own. -/
def execXlSpread (gd : Guard) (src : Src) (s : State) : Host.Outcome State Fault Refusal := asStep (slotXlSpread gd src s) s

/-- xl.sum (R199). -/
def slotXlSum (gd : Guard) (src : Src) : Slot := xlOp 8 gd src (enOut fun m => wordSum m.values)
/-- The same on its own. -/
def execXlSum (gd : Guard) (src : Src) (s : State) : Host.Outcome State Fault Refusal := asStep (slotXlSum gd src s) s

/-- xl.min.s (R199). -/
def slotXlMinS (gd : Guard) (src : Src) : Slot := xlOp 8 gd src (enOut fun m => foldWords (fun a b => if b.slt a then b else a) m.values)
/-- The same on its own. -/
def execXlMinS (gd : Guard) (src : Src) (s : State) : Host.Outcome State Fault Refusal := asStep (slotXlMinS gd src s) s

/-- xl.max.s (R199). -/
def slotXlMaxS (gd : Guard) (src : Src) : Slot := xlOp 8 gd src (enOut fun m => foldWords (fun a b => if a.slt b then b else a) m.values)
/-- The same on its own. -/
def execXlMaxS (gd : Guard) (src : Src) (s : State) : Host.Outcome State Fault Refusal := asStep (slotXlMaxS gd src s) s

/-- xl.and (R199). -/
def slotXlAnd (gd : Guard) (src : Src) : Slot := xlOp 8 gd src (enOut fun m => foldWords (· &&& ·) m.values)
/-- The same on its own. -/
def execXlAnd (gd : Guard) (src : Src) (s : State) : Host.Outcome State Fault Refusal := asStep (slotXlAnd gd src s) s

/-- xl.or (R199). -/
def slotXlOr (gd : Guard) (src : Src) : Slot := xlOp 8 gd src (enOut fun m => foldWords (· ||| ·) m.values)
/-- The same on its own. -/
def execXlOr (gd : Guard) (src : Src) (s : State) : Host.Outcome State Fault Refusal := asStep (slotXlOr gd src s) s

/-- xl.fsum: an exact sum rounded once (R200). -/
def slotXlFsum (gd : Guard) (src : Src) : Slot := xlOp 8 gd src fun m _ => sumOut (fpSum m.values)
/-- The same on its own. -/
def execXlFsum (gd : Guard) (src : Src) (s : State) : Host.Outcome State Fault Refusal := asStep (slotXlFsum gd src s) s

/-- xl.every (R199). -/
def slotXlEvery (gd : Guard) (src : Src) : Slot := xlOp 8 gd src (enOut fun m => if m.values.all (· != 0) then 1 else 0)
/-- The same on its own. -/
def execXlEvery (gd : Guard) (src : Src) (s : State) : Host.Outcome State Fault Refusal := asStep (slotXlEvery gd src s) s

/-- xl.some (R199). -/
def slotXlSome (gd : Guard) (src : Src) : Slot := xlOp 8 gd src (enOut fun m => if m.values.any (· != 0) then 1 else 0)
/-- The same on its own. -/
def execXlSome (gd : Guard) (src : Src) (s : State) : Host.Outcome State Fault Refusal := asStep (slotXlSome gd src s) s

/-- xl.mask (R199). -/
def slotXlMask (gd : Guard) (src : Src) : Slot := xlOp 8 gd src (enOut fun m => maskOf ((lanesOf m.real).filter fun l => m.tw l != 0))
/-- The same on its own. -/
def execXlMask (gd : Guard) (src : Src) (s : State) : Host.Outcome State Fault Refusal := asStep (slotXlMask gd src s) s

/-- xl.pre.add: inclusive prefix sums (R201). -/
def slotXlPreAdd (gd : Guard) (src : Src) : Slot := xlOp 10 gd src fun m l => ⟨wordSum (m.prefixOf l), m.real, 0⟩
/-- The same on its own. -/
def execXlPreAdd (gd : Guard) (src : Src) (s : State) : Host.Outcome State Fault Refusal := asStep (slotXlPreAdd gd src s) s

/-- xl.pre.fadd: inclusive prefix of the exact sum (R201). -/
def slotXlPreFadd (gd : Guard) (src : Src) : Slot := xlOp 10 gd src fun m l => sumOut (fpSum (m.prefixOf l))
/-- The same on its own. -/
def execXlPreFadd (gd : Guard) (src : Src) (s : State) : Host.Outcome State Fault Refusal := asStep (slotXlPreFadd gd src s) s

end Sys2Proof.Machine
end

