-- ==== Sys2Proof/Machine/Slots.lean ====
section
/-! DEFINITION. The effect of each kind of move as a slot of a bundle. -/
namespace Sys2Proof.Machine

/-- The effect of a move in the bundle in progress; an event is no move. -/
def moveSlot (i : Instr) : Slot :=
  match i with
  | .moveM0 gd r src => slotMoveM0 gd r src
  | .moveM1 gd r src => slotMoveM1 gd r src
  | .moveLf gd d src => slotMoveLf gd d src
  | .latchWrite gd u k src => slotLatchWrite gd u k src
  | .iaAdd gd t src => slotIaAdd gd t src
  | .iaSub gd t src => slotIaSub gd t src
  | .iaAnd gd t src => slotIaAnd gd t src
  | .iaOr gd t src => slotIaOr gd t src
  | .iaXor gd t src => slotIaXor gd t src
  | .iaAndn gd t src => slotIaAndn gd t src
  | .iaOrn gd t src => slotIaOrn gd t src
  | .iaMinS gd t src => slotIaMinS gd t src
  | .iaMaxS gd t src => slotIaMaxS gd t src
  | .iaMinU gd t src => slotIaMinU gd t src
  | .iaMaxU gd t src => slotIaMaxU gd t src
  | .iaEq gd t src => slotIaEq gd t src
  | .iaNe gd t src => slotIaNe gd t src
  | .iaLtS gd t src => slotIaLtS gd t src
  | .iaLeS gd t src => slotIaLeS gd t src
  | .iaLtU gd t src => slotIaLtU gd t src
  | .iaLeU gd t src => slotIaLeU gd t src
  | .iaSel gd t src => slotIaSel gd t src
  | .iaSextB gd t src => slotIaSextB gd t src
  | .iaSextH gd t src => slotIaSextH gd t src
  | .iaZextB gd t src => slotIaZextB gd t src
  | .iaZextH gd t src => slotIaZextH gd t src
  | .iaAbs gd t src => slotIaAbs gd t src
  | .iaNeg gd t src => slotIaNeg gd t src
  | .iaAddsS gd t src => slotIaAddsS gd t src
  | .iaSubsS gd t src => slotIaSubsS gd t src
  | .iaAddCo gd t src => slotIaAddCo gd t src
  | .iaSubBo gd t src => slotIaSubBo gd t src
  | .iaMov gd t src => slotIaMov gd t src
  | .maMulLo gd t src => slotMaMulLo gd t src
  | .maMulHiS gd t src => slotMaMulHiS gd t src
  | .maMulHiU gd t src => slotMaMulHiU gd t src
  | .maMadLo gd t src => slotMaMadLo gd t src
  | .maMadWideS gd t src => slotMaMadWideS gd t src
  | .maMadWideU gd t src => slotMaMadWideU gd t src
  | .maDivU gd t src => slotMaDivU gd t src
  | .maDivS gd t src => slotMaDivS gd t src
  | .maRemU gd t src => slotMaRemU gd t src
  | .maRemS gd t src => slotMaRemS gd t src
  | .saShl gd t src => slotSaShl gd t src
  | .saShr gd t src => slotSaShr gd t src
  | .saSar gd t src => slotSaSar gd t src
  | .saRotl gd t src => slotSaRotl gd t src
  | .saRotr gd t src => slotSaRotr gd t src
  | .saBextU gd t src => slotSaBextU gd t src
  | .saBextS gd t src => slotSaBextS gd t src
  | .saBins gd t src => slotSaBins gd t src
  | .saPopc gd t src => slotSaPopc gd t src
  | .saClz gd t src => slotSaClz gd t src
  | .saCtz gd t src => slotSaCtz gd t src
  | .saBrev gd t src => slotSaBrev gd t src
  | .saPerm gd t src => slotSaPerm gd t src
  | .saFsh gd t src => slotSaFsh gd t src
  | .ckEq gd src => slotCkEq gd src
  | .ckRng gd src => slotCkRng gd src
  | .ckMark gd src => slotCkMark gd src
  | .faAdd gd t src => slotFaAdd gd t src
  | .faSub gd t src => slotFaSub gd t src
  | .faMul gd t src => slotFaMul gd t src
  | .faFma gd t src => slotFaFma gd t src
  | .faFms gd t src => slotFaFms gd t src
  | .faFnma gd t src => slotFaFnma gd t src
  | .faFnms gd t src => slotFaFnms gd t src
  | .faMin gd t src => slotFaMin gd t src
  | .faMax gd t src => slotFaMax gd t src
  | .faMinn gd t src => slotFaMinn gd t src
  | .faMaxn gd t src => slotFaMaxn gd t src
  | .faEq gd t src => slotFaEq gd t src
  | .faLt gd t src => slotFaLt gd t src
  | .faLe gd t src => slotFaLe gd t src
  | .faUn gd t src => slotFaUn gd t src
  | .faAbs gd t src => slotFaAbs gd t src
  | .faNeg gd t src => slotFaNeg gd t src
  | .faCsgn gd t src => slotFaCsgn gd t src
  | .faRint gd t src => slotFaRint gd t src
  | .faFrac gd t src => slotFaFrac gd t src
  | .xfRcp gd src => slotXfRcp gd src
  | .xfRsqrt gd src => slotXfRsqrt gd src
  | .xfSqrt gd src => slotXfSqrt gd src
  | .xfDiv gd src => slotXfDiv gd src
  | .xfExp2 gd src => slotXfExp2 gd src
  | .xfLog2 gd src => slotXfLog2 gd src
  | .xfSinpi gd src => slotXfSinpi gd src
  | .xfCospi gd src => slotXfCospi gd src
  | .xfTanh gd src => slotXfTanh gd src
  | .xfSigm gd src => slotXfSigm gd src
  | .cvUp gd sl src => slotCvUp gd sl src
  | .cvDn gd sl src => slotCvDn gd sl src
  | .cvDot gd sl src => slotCvDot gd sl src
  | .cvSc gd sl src => slotCvSc gd sl src
  | .cxF2bf gd src => slotCxF2bf gd src
  | .cxF2bfZ gd src => slotCxF2bfZ gd src
  | .cxF2h gd src => slotCxF2h gd src
  | .cxF2hZ gd src => slotCxF2hZ gd src
  | .cxBf2f gd src => slotCxBf2f gd src
  | .cxH2f gd src => slotCxH2f gd src
  | .cxF2i gd src => slotCxF2i gd src
  | .cxF2iZ gd src => slotCxF2iZ gd src
  | .cxF2ui gd src => slotCxF2ui gd src
  | .cxF2uiZ gd src => slotCxF2uiZ gd src
  | .cxI2f gd src => slotCxI2f gd src
  | .cxUi2f gd src => slotCxUi2f gd src
  | .cxPack gd src => slotCxPack gd src
  | .cxUnpack gd src => slotCxUnpack gd src
  | .lsLdB gd src => slotLsLdB gd src
  | .lsLdBs gd src => slotLsLdBs gd src
  | .lsLdH gd src => slotLsLdH gd src
  | .lsLdHs gd src => slotLsLdHs gd src
  | .lsLdW gd src => slotLsLdW gd src
  | .lsStB gd src => slotLsStB gd src
  | .lsStH gd src => slotLsStH gd src
  | .lsStW gd src => slotLsStW gd src
  | .lsAtAdd gd src => slotLsAtAdd gd src
  | .lsAtAnd gd src => slotLsAtAnd gd src
  | .lsAtOr gd src => slotLsAtOr gd src
  | .lsAtXor gd src => slotLsAtXor gd src
  | .lsAtMinS gd src => slotLsAtMinS gd src
  | .lsAtMaxS gd src => slotLsAtMaxS gd src
  | .lsAtMinU gd src => slotLsAtMinU gd src
  | .lsAtMaxU gd src => slotLsAtMaxU gd src
  | .lsAtXchg gd src => slotLsAtXchg gd src
  | .lsAtCas gd src => slotLsAtCas gd src
  | .lsAtFadd gd src => slotLsAtFadd gd src
  | .lsPf gd src => slotLsPf gd src
  | .lsCwb gd src => slotLsCwb gd src
  | .lsCinvWb gd src => slotLsCinvWb gd src
  | .lsCinvDis gd src => slotLsCinvDis gd src
  | .lsFence gd src => slotLsFence gd src
  | .lsPol gd src => slotLsPol gd src
  | .spLdB gd src => slotSpLdB gd src
  | .spLdH gd src => slotSpLdH gd src
  | .spLdW gd src => slotSpLdW gd src
  | .spStB gd src => slotSpStB gd src
  | .spStH gd src => slotSpStH gd src
  | .spStW gd src => slotSpStW gd src
  | .spAtAdd gd src => slotSpAtAdd gd src
  | .spAtCas gd src => slotSpAtCas gd src
  | .spAtXchg gd src => slotSpAtXchg gd src
  | .xlTakeIx gd src => slotXlTakeIx gd src
  | .xlTakeRot gd src => slotXlTakeRot gd src
  | .xlTakeSh gd src => slotXlTakeSh gd src
  | .xlTakeMir gd src => slotXlTakeMir gd src
  | .xlSpread gd src => slotXlSpread gd src
  | .xlSum gd src => slotXlSum gd src
  | .xlMinS gd src => slotXlMinS gd src
  | .xlMaxS gd src => slotXlMaxS gd src
  | .xlAnd gd src => slotXlAnd gd src
  | .xlOr gd src => slotXlOr gd src
  | .xlFsum gd src => slotXlFsum gd src
  | .xlEvery gd src => slotXlEvery gd src
  | .xlSome gd src => slotXlSome gd src
  | .xlMask gd src => slotXlMask gd src
  | .xlPreAdd gd src => slotXlPreAdd gd src
  | .xlPreFadd gd src => slotXlPreFadd gd src
  | .quEnq gd src => slotQuEnq gd src
  | .quClaim gd src => slotQuClaim gd src
  | .quPub gd src => slotQuPub gd src
  | .quBindU gd src => slotQuBindU gd src
  | .quBindS gd src => slotQuBindS gd src
  | .quUnbind gd src => slotQuUnbind gd src
  | .quAvail gd src => slotQuAvail gd src
  | .quCreate gd src => slotQuCreate gd src
  | .quDestroy gd src => slotQuDestroy gd src
  | .quTsnow gd src => slotQuTsnow gd src
  | .enCp gd src => slotEnCp gd src
  | .enCp2d gd src => slotEnCp2d gd src
  | .enCpb gd src => slotEnCpb gd src
  | .enCpt gd src => slotEnCpt gd src
  | .enGa gd src => slotEnGa gd src
  | .enSc gd src => slotEnSc gd src
  | .enFill gd src => slotEnFill gd src
  | .enStatus gd src => slotEnStatus gd src
  | .mxMma gd sl src => slotMxMma gd sl src
  | .mxMms gd sl src => slotMxMms gd sl src
  | .mxEpi gd sl src => slotMxEpi gd sl src
  | .mxReq gd src => slotMxReq gd src
  | .mxRel gd src => slotMxRel gd src
  | .mxRet gd src => slotMxRet gd src
  | .mxZero gd src => slotMxZero gd src
  | .mxAbft gd src => slotMxAbft gd src
  | .ctJmp gd src => slotCtJmp gd src
  | .ctBr gd src => slotCtBr gd src
  | .ctCall gd src => slotCtCall gd src
  | .ctLoop gd src => slotCtLoop gd src
  | .ctLbrk gd src => slotCtLbrk gd src
  | .ctSpawn gd src => slotCtSpawn gd src
  | .ctLaunch gd src => slotCtLaunch gd src
  | .ctExit gd src => slotCtExit gd src
  | .ctBarMeet gd src => slotCtBarMeet gd src
  | .ctBarSign gd src => slotCtBarSign gd src
  | .ctBarHold gd src => slotCtBarHold gd src
  | .ctWait gd src => slotCtWait gd src
  | .ctYield gd src => slotCtYield gd src
  | .ctTrap gd src => slotCtTrap gd src
  | .ctRcvw gd src => slotCtRcvw gd src
  | .syRdsr gd src => slotSyRdsr gd src
  | .syWrsr gd src => slotSyWrsr gd src
  | .syTlbinv gd src => slotSyTlbinv gd src
  | .syPmap gd src => slotSyPmap gd src
  | .sySret gd src => slotSySret gd src
  | .syMbox gd src => slotSyMbox gd src
  | .syLnk gd src => slotSyLnk gd src
  | .syDctl gd src => slotSyDctl gd src
  | .syInj gd src => slotSyInj gd src
  | .syPart gd src => slotSyPart gd src
  | .bundleIssue => .ok
  | .bundleFetch => .ok
  | .bundleDeliveredTrap => .ok
  | .sequencerFill => .ok
  | .spillTimeout => .ok
  | .resultReady => .ok
  | .loadBind => .ok
  | .storePerformed => .ok
  | .atomicPerformed => .ok
  | .lineOperationPerformed => .ok
  | .fenceComplete => .ok
  | .walkComplete => .ok
  | .windowCommit => .ok
  | .rollback => .ok
  | .rollbackEnd => .ok
  | .escDecay => .ok
  | .noWindowPeriodEnd => .ok
  | .leaseExpiry => .ok
  | .watchNotice => .ok
  | .hostAccess => .ok
  | .hostGrant => .ok
  | .hostRecall => .ok
  | .drawerRequest => .ok
  | .outboundSwath => .ok
  | .inboundSwath => .ok
  | .frameBoundary => .ok
  | .fecWindowEnd => .ok
  | .retrainStart => .ok
  | .handBack => .ok
  | .channelFailure => .ok
  | .fullRetrainEnd => .ok
  | .autoWake => .ok
  | .wakeEnd => .ok
  | .linkStall => .ok
  | .peerPacket => .ok
  | .peerTimeout => .ok
  | .queueControllerOp => .ok
  | .queueAnswer => .ok
  | .latchRefill => .ok
  | .engineLineTransfer => .ok
  | .releasePoint => .ok
  | .batonGrant => .ok
  | .agingPromotion => .ok
  | .batonRelease => .ok
  | .watchdog => .ok
  | .mmaComplete => .ok
  | .retComplete => .ok
  | .epiChunk => .ok
  | .barrierTimeout => .ok
  | .mailboxPost => .ok
  | .cmack => .ok
  | .resume => .ok
  | .killwave => .ok
  | .killteam => .ok
  | .lqdoor => .ok
  | .launchAccept => .ok
  | .placement => .ok
  | .teamTransfer => .ok
  | .stealRequest => .ok
  | .stealAnswer => .ok
  | .yieldDeadline => .ok
  | .waitSwap => .ok
  | .teamSwap => .ok
  | .launchComplete => .ok
  | .completionRetry => .ok
  | .resize => .ok
  | .spawnBinArrival => .ok
  | .binTimeout => .ok
  | .taskWavePending => .ok
  | .dieStatus => .ok
  | .dieQuiesce => .ok
  | .writeBack => .ok
  | .reHome => .ok
  | .homeOffline => .ok
  | .dieReset => .ok
  | .selftest => .ok
  | .dieReadmit => .ok
  | .copyBack => .ok
  | .dieFailure => .ok
  | .coldStart => .ok
  | .supplySag => .ok
  | .stretchFall => .ok
  | .temperatureSensor => .ok
  | .featack => .ok
  | .attctl => .ok
  | .attestationReport => .ok
  | .swcommit => .ok
  | .lctl => .ok
  | .berthr => .ok
  | .qtbase => .ok
  | .qtlen => .ok
  | .ptbase => .ok
  | .mwbase => .ok
  | .mwlim => .ok
  | .clvlo => .ok
  | .clvhi => .ok
  | .msixUnmask => .ok
  | .registerWrite => .ok
  | .injAbft => .ok
  | .injSoft => .ok
  | .injUncorr => .ok
  | .injTwin => .ok
  | .storeBufferEntryReady => .ok
  | .scratchpadWriteBack => .ok
  | .dieOffline => .ok
  | .homeTableUpdate => .ok
  | .biasFlip => .ok
  | .softError => .ok
  | .dieTlbLookup => .ok
  | .launchDistribution => .ok

end Sys2Proof.Machine
end

