-- ==== Sys2Proof/Machine/Bundle.lean ====
section
/-! DEFINITION. The execution of a bundle in its phases (R56), traps at its slots (R63, R359), splits, merges, loops and exits at its
end (R25, R29, R30, R181), and the sequencers (R32). -/
namespace Sys2Proof.Machine

/-! Phase 3 (R54, R359). -/

/-- A bundle in progress with nothing noted. -/
def Issue.start (w q first stop : Nat) (cap : Capture) (pages : List (Nat × Xlate)) : Issue :=
  { wave := w, seq := q, slot := first, stop := stop, first := first, cap := cap, pages := pages, outs := [], push := none, skip := none,
    after := none, sret := false, hold := .none, wrsr := none }

/-- What a bundle reads at its start. -/
def State.captureOf (s : State) (w q : Nat) (x : Wave) (g : Seq) (b : Bundle) : Capture :=
  let c := x.ctx
  let cap : Capture := { addr := g.pc, header := b.words.headD 0, words := b.words, longs := b.longs, len := b.len, mask := g.mask,
                         en := [], src := [], avail := (List.range 4).map fun k => (c.head k).recs.length }
  let i := Issue.start w q 0 6 cap []
  { cap with
    en := (b.words.drop 1).take b.head.nmov.val |>.zipIdx.map fun (v, k) => (k, c.enabled g.mask (decodeGuard v))
    src := (b.words.drop 1).take b.head.nmov.val |>.zipIdx.flatMap fun (v, k) => match decodeSrc (v % 2 ^ 16) with
      | .ok f => (List.range 32).map fun l => (32 * k + l, s.readSrc i x f l)
      | .error _ => [] }

/-- Takes the oldest entry off a result FIFO; its lanes remember what they received (R15). (DEDUCED, log 9) -/
def popFifo (es : List FifoEntry) (last : Map Word) : List FifoEntry × Map Word :=
  match es with
  | e :: t => (t, (lanesOf e.mask).foldl (fun m l => Map.set 0 m l (Map.get 0 e.vals l)) last)
  | [] => ([], last)

/-- The FIFO pops that the bundle's reads cause (R15); a read enabled in shadow lanes alone pops nothing (R356, R375). (DEDUCED, log 9) -/
def State.popReads (s : State) (w : Nat) (vs : List Live) : State :=
  let c := (s.wave w).ctx
  let reads (u : FuncUnit) : Bool := vs.any fun v => v.m.f.src == .port u .res && c.real v.en != 0
  let s := if reads .ls then s.modCtx w fun c => let (f, l) := popFifo c.lsFifo c.lsLast; { c with lsFifo := f, lsLast := l } else s
  if reads .sp then s.modCtx w fun c => let (f, l) := popFifo c.spFifo c.spLast; { c with spFifo := f, spLast := l } else s

/-! Phases 4 and 5. -/

/-- How a run of slots ends. -/
inductive Ran
  | done (s : State)
  | trap (slot : Nat) (t : Trap)
  | hold (need : List Nat)

/-- Runs slots in order. -/
def runSlots : List (Nat × Instr) → State → Ran
  | [], s => .done s
  | (k, i) :: r, s => match moveSlot i (s.modCur fun c => { c with slot := k }) with
    | .ok s => runSlots r s
    | .trap t => .trap k t
    | .hold n => .hold n

/-- The slots of a bundle from `first` up to `stop`: destination writes first, then triggers (R56). -/
def Bundle.order (b : Bundle) (first stop : Nat) : List (Nat × Instr) :=
  let ms := b.moves.zipIdx.filterMap fun (o, k) => if first ≤ k ∧ k < stop then o.map fun m => (k, m) else none
  ((ms.filter fun (_, m) => m.unit?.isNone) ++ (ms.filter fun (_, m) => m.unit?.isSome)).map fun (k, m) => (k, m.instr)

/-- The control moves of the slots below `first` give their outcomes again, and nothing else (R63, R363); a yield that committed before the trap
still stops the wave after the bundle, if its request stands (R194). One that a handler's TSLOT has passed over may still have a length to
read; if it traps, it has no outcome. -/
def State.earlierControl (s : State) (b : Bundle) (first : Nat) : Ran :=
  let r := b.moves.zipIdx.foldl (fun r (o, k) => match r, o with
    | .done s, some m => if k < first ∧ m.unit? = some .ct then
        (match moveSlot m.instr (State.modCur s fun c => { c with slot := k }) with
         | .ok t => .done { s with cur := t.cur }
         | .trap _ => .done s
         | .hold n => .hold n) else .done s
    | r, _ => r) (Ran.done s)
  match r with
  | .done s' => .done (s'.modCur fun c => { c with after := none, hold := if c.cap.yielded && s.yieldStops c.wave then .stopped else .none })
  | r => r

/-- Opens a window where an access of the bundle stands behind an unperformed one, of an older bundle or of an earlier slot (R56, R278, R283):
the accesses of both slots belong to it, since its checkpoint lies before either; beside an irrevocable operation they are performed in slot order
instead. (DEDUCED, log 54) -/
def State.openWindow (s : State) (w : Nat) (ts : List (FuncUnit × Nat)) : State :=
  match s.wave? w with
  | none => s
  | some x =>
    let n := (accessesOf ts).length
    if x.win.isNone && n != 0 && (x.unperformed || (2 ≤ n && !ts.any fun (u, op) => isIrrevocable u op)) && x.mayOpen then
      s.setWave w { x with ctx := x.ctx.setWstat 5 5 1, win := some { ckpt := x.ctx, firstOp := x.nextOp, logged := [], count := 0, read := [],
                                                                       abn := 0, inject := x.inject, lastPage := x.lastPage } }
    else s

/-- The region a REGION bundle begins (R370). -/
def Wave.enterRegion (x : Wave) : Wave :=
  let c := x.ctx
  { x with
    ctx := c.setWstat 6 6 1
    region := some { seqs := c.seqs.map fun ((i, q) : Nat × Seq) => (i, { q with part := none, fetch := .need }), spill := c.spill, join := c.join,
                     guards := c.guards, base := c.base, rm := c.wstat.getLsbD 2, pol := c.pol } }

/-- How a bundle's phases 4 and 5 end: every slot up to the end committed, or those before a trap, or nothing is done yet. -/
inductive Result
  | whole (s : State)
  | trapped (s : State) (t : Trap)
  | held (need : List Nat)

/-- The trap of an illegal slot (R63): every non-vacant lane of the fragment. -/
def illegalTrap (slot : Nat) (m : Mask) : Trap := { cause := 0x01, slot := slot, mask := m, info := 0, pc := none }

/-- Runs the slots below `stop`; a trap at one of them cuts the bundle there and the slots before it run again without what follows
(R55, R63). `t` is the trap that cut it. -/
def State.cutRun (s : State) (b : Bundle) (vs : List Live) (c : Ctx) (w first : Nat) (mask : Mask) : Nat → Nat → Option Trap → Result
  | 0, _, _ => .whole s
  | fuel + 1, stop, t =>
    let s1 := s.openWindow w (triggersOf c (vs.filter fun v => decide (v.slot < stop)))
    let s1 := s1.modCur fun c => { c with stop := stop }
    let run : Ran := match s1.earlierControl b (min first stop) with
      | .done s2 => runSlots (b.order first stop) s2
      | r => r
    match run with
    | .hold n => .held n
    | .trap k u => s.cutRun b vs c w first mask fuel k (some u)
    | .done s2 =>
      match s2.cur.bind (·.after) with
      | some u => if u.slot < stop then s.cutRun b vs c w first mask fuel u.slot (some u) else .trapped s2 u
      | none => match t with
        | some u => .trapped s2 u
        | none => if some stop = b.bad first then .trapped s2 (illegalTrap stop mask) else .whole s2

/-! Phase 6: pops (R218, R219). -/

/-- Advances head latch `q` and the queue behind it. -/
def State.popHead (s : State) (w q : Nat) (cap : Capture) : State :=
  let x := s.wave w
  let h := x.ctx.head q
  if !h.bound || h.stale then s
  else
    let a := cap.avail.getD q 0
    let m := if h.spread then min a (laneCount (cap.mask &&& ~~~x.ctx.vac)) else min a 1
    if m = 0 then s
    else
      let k := x.nextOp
      let s := s.setWave w { x with
        ctx := x.ctx.setHead q { h with recs := h.recs.drop m, pos := h.pos + BitVec.ofNat 32 m }, nextOp := k + 1, quOut := x.quOut ++ [k] }
      s.sendQueue (dieOf w) { QuOp.blank with kind := .pop, handle := h.handle, part := x.part, count := m, wave := some w, op := k } 0

/-- Phase 6. -/
def State.popHeads (s : State) (w : Nat) (cap : Capture) (h : Header) : State :=
  (List.range 4).foldl (fun s q => if h.pop.val / 2 ^ q % 2 = 1 then State.popHead s w q cap else s) s

/-! Shadow lanes (R374). -/

/-- A map of 32-lane vectors with lane `l` a copy of lane `p`. -/
def copyLane {α : Type} (m : Map α) (p l : Nat) : Map α :=
  let m := m.filter fun (k, _) => k % 32 != l
  (m.filter fun (k, _) => k % 32 == p).foldl (fun m (k, v) => Map.put m (k / 32 * 32 + l) v) m
/-- A mask with bit `l` a copy of bit `p`. -/
def copyBit (m : Mask) (p l : Nat) : Mask :=
  if m.getLsbD p then m ||| BitVec.ofNat 32 (2 ^ l) else m &&& ~~~(BitVec.ofNat 32 (2 ^ l))

/-- A context with lane `p`'s columns copied into lane `l`; the vectors in `keep` stay. -/
def Ctx.copyColumn (c : Ctx) (p l : Nat) (keep : List Nat) : Ctx :=
  let fifo (es : List FifoEntry) : List FifoEntry := es.map fun e => { e with mask := copyBit e.mask p l, vals := copyLane e.vals p l }
  let kept (k : Nat) : Bool := keep.contains (k / 32)
  { c with
    vec := copyLane (c.vec.filter fun (k, _) => !kept k) p l |> fun m => (c.vec.filter fun (k, _) => kept k).foldl (fun m (k, v) => Map.put m k v) m
    last := copyLane c.last p l, lsLast := copyLane c.lsLast p l, spLast := copyLane c.spLast p l
    busy := c.busy.map fun ((k, m) : Nat × Mask) => (k, if keep.contains k then m else copyBit m p l)
    guards := c.guards.map fun ((k, m) : Nat × Mask) => (k, copyBit m p l)
    lsFifo := fifo c.lsFifo, spFifo := fifo c.spFifo }

/-- Copies the partner's columns into a lane that becomes a shadow. Of what sy.sret will bring back, the vectors that the handler has not
written and the FIFO entries set aside take the copy too (R362, R363). (DEDUCED, log 65) -/
def Wave.copyColumn (x : Wave) (l : Nat) : Wave :=
  let p := l ^^^ 16
  { x with
    ctx := x.ctx.copyColumn p l []
    trap := x.trap.map fun t => { t with saved := { t.saved.copyColumn p l t.logged with guards := t.saved.guards } }
    pend := x.pend.map fun ((k, o) : Nat × Pending) => (k, { o with lanes := copyBit o.lanes p l, vals := copyLane o.vals p l }) }

/-- Lanes that have become shadows since `old` take their partners' columns, and the wave issues nothing for 48 cycles (R374). -/
def State.shadowCopy (s : State) (w : Nat) (old : Mask) : State :=
  s.modWave w fun x =>
    let new := x.ctx.shadows &&& ~~~old
    if new = 0 then x else { (lanesOf new).foldl Wave.copyColumn x with from_ := max x.from_ (s.now + 49) }

/-! Phase 7 (R29, R30, R181). -/

/-- The loop stack after the bundle at `pc`: levels that end here count down or are left; START of the level that goes on, and whether
any level ended an iteration (R181). -/
def loopEnd (pc : Dword) : List Level → List Level × Option Dword × Bool
  | [] => ([], none, false)
  | v :: r =>
    if v.fin = pc then
      if 1 < v.count.toNat then ({ v with count := v.count - 1, index := v.index + 1 } :: r, some v.start, true)
      else let (r', t, _) := loopEnd pc r
        (r', t, true)
    else (v :: r, none, false)

/-- The lanes of a fragment grouped by outcome, in the order of their lowest lanes (R29). (DEDUCED, log 53) -/
def groupOuts (live : Mask) (out : Nat → Dword × Nat) : List ((Dword × Nat) × Mask) :=
  (lanesOf live).foldl (fun gs l =>
    let bit := BitVec.ofNat 32 (2 ^ l)
    if gs.any fun (o, _) => o == out l then gs.map fun (o, m) => if o == out l then (o, m ||| bit) else (o, m)
    else gs ++ [(out l, bit)]) []

/-- The group that keeps the sequencer: the largest, and of equals the one with the lowest lane (R29). -/
def keeper (gs : List ((Dword × Nat) × Mask)) : Option ((Dword × Nat) × Mask) :=
  match gs with
  | [] => none
  | g :: t => some (t.foldl (fun b h => if laneCount b.2 < laneCount h.2 then h else b) g)

/-- The fragments and the join table after the bundle, exits apart (R29, R30, R180, R181). -/
def Ctx.afterBundle (c : Ctx) (now : Nat) (i : Issue) (jtok : Nat) (vac : Mask) : Ctx :=
  let g := c.seq i.seq
  let cap := i.cap
  let next := cap.addr + BitVec.ofNat 64 cap.len
  let (loops, start, ended) := loopEnd cap.addr g.loops
  let loops := match i.push with | some v => v :: loops | none => loops
  let through := i.skip.getD (start.getD next)
  let live := g.mask &&& ~~~vac
  let out (l : Nat) : Dword × Nat := match Map.find? i.outs l with
    | some (some o) => o
    | _ => (through, 0)
  let gs := groupOuts live out
  let base : Seq := { g with
    loops := loops, fetch := .need, part := none, safe := ended, go := false, reenter := false
    hold := match i.hold with | .none => g.hold | .stopped => .none | h => h }
  let make (o : (Dword × Nat) × Mask) (due : Nat) : Seq :=
    { base with pc := o.1.1, mask := o.2, loops := if o.1.2 = 0 then loops else g.loops.drop o.1.2, due := due, since := due }
  match keeper gs with
  | none => { c with seqs := Map.erase c.seqs i.seq }
  | some k =>
    let near := k.1.1 = next ∨ (start = some k.1.1 ∧ i.skip.isNone)
    let c := { c with seqs := Map.put c.seqs i.seq (make k (now + if near then 1 else 4)) }
    let c := (gs.filter (· != k)).foldl (fun c o => c.place now 0 { make o (now + 4) with stamp := now, hold := .none, fid := fragNo now o.2, stacked := false }) c
    if gs.length < 2 then c
    else
      let j : Join := match Map.find? c.join jtok with
        | some j => { j with expect := j.expect ||| g.mask }
        | none => { expect := g.mask, arrived := 0 }
      { c with join := Map.put c.join jtok j }

/-- Every fragment of a wave that yields stops (R194, R369). -/
def Wave.yielded (x : Wave) : Wave := { x with stop := .swapping }

/-- Phase 7: control moves, exits, merges and barriers, and what sy operations of the bundle leave to its end. -/
def State.control (s : State) (b : Bundle) : State :=
  match s.cur with
  | none => s
  | some i => match s.wave? i.wave with
    | none => s
    | some x =>
      let w := i.wave
      let gone := maskWhere fun l => match Map.find? i.outs l with | some none => true | _ => false
      let vac := x.ctx.vac ||| gone
      let old := x.ctx.shadows
      let c := x.ctx.afterBundle s.now i b.head.jtok.val vac
      let c := { c with vac := vac, join := c.join.map fun ((t, j) : Nat × Join) => (t, { j with expect := j.expect &&& ~~~vac }) }
      let x := { x with ctx := c }
      let x := match i.wrsr with | some (r, v) => x.wrsr r v | none => x
      let x := if i.hold = .stopped then x.yielded else x
      let s := ((s.setWave w x).joinTests w).shadowCopy w old
      let barrier := b.moves.any fun o => match o with | some m => m.unit? == some .ct && decide (8 ≤ m.f.op) && decide (m.f.op ≤ 10) | none => false
      let s := if barrier || gone != 0 then s.barTests x.team else s
      let s := if vac = BitVec.allOnes 32 && s.holdsBaton w then s.relBaton (cloverOf w) else s
      let s := if i.sret then s.trapReturn w i.seq else s
      if gone != 0 then s.retire w else s

/-! The whole bundle. -/

/-- What every issue of a bundle counts: the core's slot in this cycle, or for the `e` cycles before its last, the previous fragment, the launch's
first bundle, the team's last, and, in its last issue cycle, one bundle of the wave's run without windows (R60, R293, R342, R351, R355). -/
def State.noteIssue (s : State) (w q e : Nat) : State :=
  let x := s.wave w
  let s := s.modCore (coreOf w) fun k => { k with free := max k.free (s.now + max e 1), prev := some (w, (x.ctx.seq q).fid) }
  let s := s.modTeam x.team fun t => { t with lastIssue := s.now }
  let s := s.modLaunch x.launch fun l => { l with started := if l.started.isNone then some s.time else l.started }
  if e = 0 then s.modWave w fun x => { x with noWin := x.noWin - 1 } else s

/-- Commits the slots before a trap and takes it (R63, R361). A register that sy.wrsr wrote has its value from the next bundle, the handler's
first (R263); a yield that takes effect waits for the bundle's end (R194). -/
def State.commitTrap (s : State) (w q : Nat) (t : Trap) (cap : Capture) : State :=
  let hold := (s.cur.map (·.hold)).getD .none
  let cap := { cap with yielded := hold == .stopped, ends := (s.cur.map (·.cap.ends)).getD cap.ends }
  let s := match s.cur.bind (·.wrsr) with | some (r, v) => s.modWave w (·.wrsr r v) | none => s
  let s := { s with cur := none }
  let s := s.modSeq w q fun g => { g with part := none, hold := match hold with | .none => g.hold | .stopped => .none | h => h }
  (s.takeTrap w q t cap.addr (some cap)).barTests (s.wave w).team

/-- Phases 4 to 7 of a bundle whose sources have been read (R56). -/
def State.runBundle (s : State) (w q : Nat) (b : Bundle) (cap : Capture) (first : Nat) (pages : List (Nat × Xlate)) : State :=
  let x := s.wave w
  let stop := (b.bad first).getD b.head.nmov.val
  let part : Partial := { cap := cap, first := first, pages := pages, due := s.now }
  let kept := (s.modCtx w Ctx.releaseWaits).modSeq w q fun g => { g with part := some part }
  let vs := kept.liveMoves x { (x.ctx.seq q) with part := some part } b
  let live := cap.mask &&& ~~~x.ctx.vac
  let fresh := ((vs.flatMap fun l => l.vectors x.ctx).eraseDups.filter fun n => decide (192 ≤ n) && !((x.trap.map (·.logged)).getD []).contains n).length
  if x.trap.isSome && decide (32 < ((x.trap.map (·.logged.length)).getD 0) + fresh) then
    let (v, s) := s.freeWord
    s.trapFail w (v.toNat % 256)
  else
    let marked := maskWhere fun l => live.getLsbD l && (x.ctx.port .ck .st l).getLsbD 0
    if first = 0 ∧ b.marks = true ∧ marked ≠ 0 then
      (kept.noteIssue w q 0).commitTrap w q { cause := 0x08, slot := 0, mask := marked, info := 0, pc := none, pend := true } cap
    else
      let capEn := { cap with en := cap.en.map fun ((k, m) : Nat × Mask) => (k, m &&& (~~~x.ctx.vac ||| x.ctx.shadows)) }
      let start := if b.head.region ∧ first = 0 then kept.modWave w Wave.enterRegion else kept
      let start := { start with cur := some (Issue.start w q first stop capEn pages) }
      match start.cutRun b vs x.ctx w first live 8 stop none with
      | .held need =>
        let s := kept.modSeq w q fun g => { g with part := some { part with due := s.now + 1 } }
        { s with cur := none }.lookPages w q need
      | .trapped s t => (s.noteIssue w q 0).commitTrap w q t cap
      | .whole s =>
        let s := s.modSeq w q fun g => { g with part := none }
        let s := ((s.noteIssue w q 0).popHeads w capEn b.head).control b
        { s with cur := none }

/-- A fragment parks at its reconvergence bundle (R30). -/
def State.park (s : State) (w q tok : Nat) : State :=
  let s := s.modCtx w fun c =>
    let g := c.seq q
    { c with
      seqs := Map.put c.seqs q { g with parked := some tok, stamp := s.now, reenter := false }
      join := c.join.map fun ((t, j) : Nat × Join) => (t, if t = tok then { j with arrived := j.arrived ||| g.mask } else j) }
  s.joinTests w

/-- What was captured of a held bundle, with the words of a bundle that is re-entered as they are fetched now (R363). -/
def Partial.filledCap (p : Partial) (b : Bundle) : Capture :=
  if p.cap.words.isEmpty then { p.cap with header := b.words.headD 0, words := b.words, longs := b.longs, len := b.len } else p.cap

/-- BUNDLE_ISSUE: a fragment's bundle parks at its token, or reads its sources and runs (R56). With E > 0 it runs in the last of its issue
cycles (R60), which comes later where it is held back (R153); one that was held back goes on with what was captured, and one that is re-entered
after sy.sret does so in one issue cycle, whatever its E. (DESIGN CHOICE, log 109) -/
def State.issueBundle (s : State) (w q : Nat) (last : Bool) : State :=
  match (s.wave? w).bind fun x => (Map.find? x.ctx.seqs q).map fun g => (x, g) with
  | none => s
  | some (x, g) =>
    match s.parksAt w q with
    | some tok => s.park w q tok
    | none =>
      let live := g.mask &&& ~~~x.ctx.vac
      match s.nextBundle w g with
      | .fault c a =>
        ((s.noteIssue w q 0).modSeq w q fun g => { g with fetch := .need, part := none }).takeTrap w q { cause := c, slot := 7, mask := live, info := a, pc := none } g.pc none
      | .illegal => ((s.noteIssue w q 0).modSeq w q fun g => { g with fetch := .need, part := none }).takeTrap w q (illegalTrap 7 live) g.pc none
      | .bundle b =>
        match g.part with
        | some p =>
          if last && p.due != s.now then s
          else
            s.runBundle w q b (p.filledCap b) p.first p.pages
        | none =>
          if last then s
          else
            let cap := s.captureOf w q x g b
            let s := (s.popReads w (s.liveMoves x g b)).modSeq w q fun g => { g with hold := .none }
            let e := b.extra
            if e = 0 then s.runBundle w q b cap 0 []
            else
              ((s.noteIssue w q e).modSeq w q fun g => { g with part := some { cap := cap, first := 0, pages := [], due := s.now + e } }).after e .bundleIssue [w, q, 1]

/-- BUNDLE_DELIVERED_TRAP: the oldest pending trap of a wave is taken at a fragment's next bundle, after its sources are captured (R358);
an open window rolls back instead and the trap stays pending, unless it is a mismatch that restarts the region (R372, R373). STACK of a merge at
whose bundle an earlier trap was taken first is delivered as that bundle re-enters, before it issues, with what was captured then (R31). -/
def State.deliverTrap (s : State) (w q : Nat) : State :=
  match (s.wave? w).bind fun x => (Map.find? x.ctx.seqs q).map fun g => (x, g) with
  | none => s
  | some (x, g) => match x.traps, s.nextBundle w g with
    | t :: rest, .bundle b =>
      let restarts := t.cause = 0x09 ∧ x.ctx.regn = true ∧ x.ctx.sup = false ∧ x.region.isSome
      if x.win.isSome && !decide restarts then s.rollback w 2
      else
        let (cap, s) := match g.part with
          | some p => (p.filledCap b, s)
          | none => (s.captureOf w q x g b, s.popReads w (s.liveMoves x g b))
        let s := s.modSeq w q fun g => { g with part := none, hold := .none, stacked := g.stacked && t.pc.isNone }
        let s := (s.noteIssue w q 0).modWave w fun x => { x with traps := rest }
        let live := g.mask &&& ~~~x.ctx.vac
        s.takeTrap w q { t with slot := 0, mask := if t.mask = 0 then live else t.mask, pc := none } g.pc (some cap)
    | _, _ => s

/-- Whether a pending trap is delivered at a fragment's next bundle: STACK of a merge at the merged fragment's, the others at any, once a
re-entry has completed (R31, R358). A merged fragment's bundle does not issue before its STACK, so that an earlier trap, too, is delivered as that
bundle re-enters. -/
def State.trapDue (s : State) (w q : Nat) : Bool :=
  match (s.wave? w).bind fun x => (Map.find? x.ctx.seqs q).map fun g => (x, g) with
  | none => false
  | some (x, g) => match x.traps with
    | t :: _ => !x.handling && (if g.stacked then !x.ctx.reentersBut q else t.pc.isNone && g.part.isNone && !x.ctx.reenters) &&
        (match s.nextBundle w g with | .bundle _ => true | _ => false)
    | [] => false

/-! Sequencers (R32). -/

/-- SEQUENCER_FILL: the spilled active fragment that has waited longest takes a free sequencer, or that of the fragment that
parked earliest, which is spilled. -/
def State.fillSeq (s : State) (w : Nat) : State :=
  s.modCtx w fun c => match c.longestSpilled with
    | none => c
    | some (k, q) =>
      let q := { q with due := max q.due s.now + 16, stamp := s.now }
      match c.freeSeq with
      | some i => { c with seqs := Map.put c.seqs i q, spill := Map.erase c.spill k }
      | none => match c.oldestParked with
        | some (i, p) => { c with seqs := Map.put c.seqs i q, spill := Map.put c.spill k p }
        | none => c

/-- Whether a sequencer can be filled. -/
def Ctx.canFill (c : Ctx) : Bool := (c.freeSeq.isSome || c.oldestParked.isSome) && c.longestSpilled.isSome

/-- The resident active fragment that was filled longest ago; one that was never filled counts from its creation or merge. (DESIGN CHOICE, log 92) -/
def Ctx.oldestActive (c : Ctx) : Option (Nat × Seq) :=
  leastBy (fun a b => decide (a.2.stamp < b.2.stamp)) (c.seqs.filter fun (_, q) => q.parked.isNone)

/-- SPILL_TIMEOUT: a spilled active fragment that has waited 1,024 cycles changes places with it, between two of its bundles. (DEDUCED, log 57) -/
def State.spillOut (s : State) (w : Nat) : State :=
  s.modCtx w fun c => match c.longestSpilled, c.oldestActive with
    | some (k, q), some (i, g) =>
      if q.stamp + 1024 ≤ s.now ∧ g.part = none then
        { c with seqs := Map.put c.seqs i { q with due := max q.due s.now + 16, stamp := s.now }, spill := Map.put c.spill k { g.anew with stamp := s.now } }
      else c
    | _, _ => c

/-- Whether a spilled fragment's wait is over, and the fragment that makes room stands between two bundles. -/
def Ctx.spillDue (c : Ctx) (now : Nat) : Bool :=
  match c.longestSpilled, c.oldestActive with
  | some (_, q), some (_, g) => decide (q.stamp + 1024 ≤ now) && g.part.isNone
  | _, _ => false

/-- BUNDLE_ISSUE: wave, sequencer, and whether it is the last issue cycle of a bundle that has begun (R56). -/
def execBundleIssue (s : State) : Host.Outcome State Fault Refusal := .next (s.issueBundle (s.arg 0) (s.arg 1) (s.arg 2 == 1))
/-- BUNDLE_DELIVERED_TRAP: wave, sequencer (R358). -/
def execBundleDeliveredTrap (s : State) : Host.Outcome State Fault Refusal := .next (s.deliverTrap (s.arg 0) (s.arg 1))
/-- SEQUENCER_FILL: wave (R32). -/
def execSequencerFill (s : State) : Host.Outcome State Fault Refusal := .next (s.fillSeq (s.arg 0))
/-- SPILL_TIMEOUT: wave (R32). -/
def execSpillTimeout (s : State) : Host.Outcome State Fault Refusal := .next (s.spillOut (s.arg 0))

end Sys2Proof.Machine
end

