-- ==== Sys2Proof/Machine/Place.lean ====
section
/-! DEFINITION. Distributors (R336 to R353): capacity and the choice of a core, the start and the resume of a team, the pending list and
its order, pre-emption requests, and the assignment of a cohort. -/
namespace Sys2Proof.Machine

/-! Capacity (R345). -/

/-- Granules of a scratchpad: 4,096 of 128 bytes (R303, R345). -/
def granules : Nat := 4096

/-- First fit of `n` granules from the lowest offset. -/
def firstFit (alloc : List (Nat × Nat)) (n : Nat) : Option Nat :=
  if n = 0 then some 0 else
  let starts := sortNat (0 :: alloc.map fun (a, k) => a + k)
  starts.find? fun c => decide (c + n ≤ granules) && alloc.all fun (a, k) => decide (a + k ≤ c ∨ c + n ≤ a)

/-- The largest number of free granules in a row. -/
def freeSpan (alloc : List (Nat × Nat)) : Nat :=
  ((0 :: alloc.map fun (a, k) => a + k).map fun c =>
    let next := (alloc.filter fun (a, _) => decide (c ≤ a)).foldl (fun m (a, _) => min m a) granules
    if alloc.any fun (a, k) => decide (a ≤ c ∧ c < a + k) then 0 else next - c).foldl max 0

/-- Cores of a die on which a partition's work may be placed: its clovers, but for one that is being taken away (R345, R354). -/
def State.partCores (s : State) (p d : Nat) : List Nat :=
  ((List.range 96).map (96 * d + ·)).filter fun c => (s.part p).clovers.getLsbD (c / 4) &&
    !(s.resizes.any fun r => r.clover == c / 4 && r.source == p)

/-- Whether a die has a core of a partition. -/
def State.hasCore (s : State) (p d : Nat) : Bool := !(s.partCores p d).isEmpty

/-- What a core has in use, teams of cohorts that are to be placed there included. -/
def State.loadOf (s : State) (core : Nat) : Load :=
  let mine := s.launches.flatMap fun (_, l) => (l.plan.filter fun a => a.core == core).map fun a => (a.granule, l.lrec.scratch / 128, l.lrec.waves)
  { core := core, used := (s.coreWaves core).length + (mine.map fun (_, _, w) => w).foldl (· + ·) 0
    alloc := (s.core core).alloc ++ (mine.filter fun (_, n, _) => n != 0).map fun (g, n, _) => (g, n) }

/-- The capacity a die reports for a partition. -/
def State.loads (s : State) (p d : Nat) : List Load := if (s.die d).state = .run then (s.partCores p d).map s.loadOf else []

/-- The granule at which a core can take a team of `waves` waves and `n` granules. -/
def Load.fit (l : Load) (waves n : Nat) : Option Nat := if l.used + waves ≤ 16 then firstFit l.alloc n else none

/-- The core that takes a team, and the granule (R345): fewest occupied slots, ties from the round-robin pointer on. -/
def chooseCore (ls : List Load) (rr waves n : Nat) : Option (Load × Nat) :=
  leastBy (fun a b => decide (a.1.used < b.1.used) ||
      (a.1.used == b.1.used && decide ((a.1.core % 96 + 96 - rr) % 96 < (b.1.core % 96 + 96 - rr) % 96)))
    (ls.filterMap fun l => (l.fit waves n).map fun g => (l, g))

/-! The scratch window (R315 to R317). -/

/-- The stretches of physical memory behind `n` bytes of virtual addresses: first PA, offset, length. A page that does not translate
has none. -/
def State.stretches (s : State) (die part va n : Nat) : List (Nat × Nat × Nat) :=
  if n = 0 then [] else
  (List.range ((va + n - 1) / 2 ^ 16 - va / 2 ^ 16 + 1)).filterMap fun k =>
    let lo := max va ((va / 2 ^ 16 + k) * 2 ^ 16)
    let hi := min (va + n) ((va / 2 ^ 16 + k + 1) * 2 ^ 16)
    match s.devXlate die part lo with
    | .page p => some (p.addr lo, lo - va, hi - lo)
    | _ => none

/-- The bytes that lie in stretches of memory, by offset. -/
def State.gather (s : State) (w : List (Nat × Nat × Nat)) : List Host.Cell :=
  w.flatMap fun (pa, off, n) => (s.mem.filter fun (a, _) => decide (pa ≤ a ∧ a < pa + n)).map fun (a, b) => (a - pa + off, b)

/-- Base of a team's scratch window (R315). -/
def LaunchRec.window (r : LaunchRec) (t : Nat) : Nat := r.scrwin.toNat + t * r.scratch

/-- A memory with a stretch replaced by other cells of the same stretch. -/
def Memory.splice (m : Memory) (pa n : Nat) (cells : List Host.Cell) : Memory :=
  (m.filter fun (a, _) => decide (a < pa)) ++ cells ++ m.filter fun (a, _) => decide (pa + n ≤ a)

/-- Writes the bytes of a table to the stretches behind them, as a write by a die (R317); `devReady` has said that it may (R282, R308, R332). (DEDUCED, log 77) -/
def State.scatter (s : State) (die : Nat) (w : List (Nat × Nat × Nat)) (bytes : List Host.Cell) : State :=
  w.foldl (fun s (pa, off, n) =>
    let lines := (List.range ((pa + n - 1) / 128 - pa / 128 + 1)).map (pa / 128 + ·)
    let s := lines.foldl (fun s l => State.writeLine s die l none) s
    let cells := (bytes.filter fun (k, _) => decide (off ≤ k ∧ k < off + n)).map fun (k, b) => (k - off + pa, b)
    { s with mem := Memory.splice (State.mem s) pa n cells }) s

/-! Starting a team (R34, R345). -/

/-- WSTAT of a new wave (R18). -/
def startStatus (r : LaunchRec) (task : Bool) : Word :=
  BitVec.ofNat 32 ((if r.shadow then 8 else 0) + r.prio * 2 ^ 8 + (if task then 2 ^ 10 else 0) + (if r.cohort && !task then 2 ^ 11 else 0))

/-- The context of a new wave: threads fill the low lanes of a task wave with their six words (R34, R40). -/
def startCtx (r : LaunchRec) (task : Bool) (entry : Dword) (threads : List (List Word)) (due : Nat) : Ctx :=
  let vac : Mask := if task then ~~~(maskOf (List.range threads.length)) else 0
  let c := { Ctx.start with
    wstat := startStatus r task, vac := vac
    base := (List.range 8).foldl (fun m i => Map.set 0 m i (r.args.getD i 0)) []
    seqs := [(0, Seq.start entry (~~~vac) due)] }
  if task then threads.zipIdx.foldl (fun c (ws, l) => (List.range 6).foldl (fun c k => Ctx.setReg c k l (ws.getD k 0)) c) c else c

/-- A new wave of a team. Lanes that are shadows from the start hold their partners' columns. -/
def startWave (l : Launch) (id : Nat) (lid : Nat) (t : Team) (i now from_ : Nat) : Wave :=
  let x := { Wave.blank with
    ctx := startCtx l.lrec t.task (if t.task then t.entry else l.lrec.entry) t.threads from_
    team := id, index := i, launch := lid, part := l.part, placed := now, from_ := from_, nextOp := 64 * now + 1 }
  (lanesOf x.ctx.shadows).foldl Wave.copyColumn x

/-- A team that has not been placed. -/
def newTeam (lid : Nat) (r : LaunchRec) (number : Word) (owner : Nat) : Team :=
  { launch := lid, number := number, task := false, waves := r.waves, state := .waiting, core := 0, slots := [], killed := [], retired := [],
    scratch := r.scratch, granule := 0, bytes := [], window := [], spec := [], arr := [], ph := [], timer := [], timing := [], abn := [],
    owner := owner, placed := 0, deadline := none, past := false, lastIssue := 0, saved := [], area := none, args := [], entry := 0,
    threads := [], moved := false, stage := 0, tested := 0 }

/-- Wave slots of a core that hold no wave, lowest first. -/
def State.freeSlots (s : State) (core : Nat) : List Nat := ((List.range 16).map (16 * core + ·)).filter fun w => (s.wave? w).isNone

/-- The cycles from a placement to the first bundle (R345). -/
def startDelay (t : Team) (resume : Bool) : Nat :=
  32 + (if resume then max (t.scratch / 128) ((72 + 544 * t.waves + 31) / 32) else t.scratch / 128)

/-- Registers a team's window and fills its scratchpad: from the window's frames, from its context area, or with zeroes (R316, R317, R345). (DEDUCED, log 64) -/
def State.fillScratch (s : State) (l : Launch) (t : Team) (die : Nat) (resume : Bool) : Team :=
  let w := if t.task then [] else s.stretches die l.part (l.lrec.window t.number.toNat) t.scratch
  let bytes := if l.lrec.backed && !t.task then s.gather w
    else if resume then (match t.area with
      | some a => s.gather (s.stretches die l.part (a.toNat + 0x2400 + t.waves * 0x11000) t.scratch)
      | none => t.bytes)
    else []
  { t with window := w, bytes := bytes, spec := [] }

/-- The virtual addresses that a team's scratchpad is filled from: its window, or the scratchpad region of its context area (R317). -/
def Team.fillsFrom (t : Team) (l : Launch) (resume : Bool) : Option Nat :=
  if t.scratch = 0 then none
  else if l.lrec.backed && !t.task then some (l.lrec.window t.number.toNat)
  else if resume then t.area.map fun a => a.toNat + 0x2400 + t.waves * 0x11000
  else none

/-- A cycle that a team which waits for the pages of its fill has not reached yet. MODEL. -/
def notYet : Nat := 2 ^ 62

/-- Asks for the pages that a team's scratchpad is filled from: whether they are at hand, so that the fill begins in this cycle; if not, PLACEMENT tells when
it does (R345, R472). (DEDUCED, log 105) -/
def State.fillPages (s : State) (id : Nat) (l : Launch) (t : Team) (die : Nat) (resume : Bool) : Bool × State :=
  match t.fillsFrom l resume with
  | some a => s.devTask die [(l.part, a, t.scratch, 0)] .placement [die, 2, id, startDelay t resume]
  | none => (true, s)

/-- A team takes its place on a core: its slots, its scratchpad and its window. -/
def State.seat (s : State) (id : Nat) (l : Launch) (t : Team) (core granule : Nat) (resume : Bool) : Team × State :=
  let d := core / 96
  let t := s.fillScratch l t d resume
  let t := { t with state := .resident, core := core, granule := granule, placed := s.now, lastIssue := s.now,
                    moved := t.moved || (!t.task && decide (d ≠ t.number.toNat % 4)) }
  let s := if t.scratch = 0 then s else s.modCore core fun k => { k with alloc := k.alloc ++ [(granule, t.scratch / 128)] }
  (t, s.setTeam id t)

/-- Places a team that has never run. -/
def State.startTeam (s : State) (id core granule : Nat) : State :=
  match s.team? id with
  | none => s
  | some t => match s.launch? t.launch with
    | none => s
    | some l =>
      let (now, s) := s.fillPages id l t (core / 96) false
      let (t, s) := s.seat id l t core granule false
      let from_ := if now then s.now + startDelay t false else notYet
      let slots := ((s.freeSlots core).take t.waves).zipIdx
      let s := slots.foldl (fun s (w, i) => State.setWave s w (startWave l id t.launch t i (State.now s) from_)) s
      s.setTeam id { t with slots := slots.map fun (w, i) => (i, w) }

/-! Resuming a team (R345, R352, R353). -/

/-- Gives the unbound loads of a resumed wave fresh numbers, in order, where its FIFO and its ports name them (R35, R58); they go out again with the physical
addresses that they had (R172). (DESIGN CHOICE, log 122) -/
def Wave.renumber (x : Wave) (now : Nat) : Wave :=
  let from_ := max x.nextOp (64 * now + 1)
  let new : Map Nat := x.accs.zipIdx.map fun ((k, _), i) => (k, from_ + i)
  let fifo (es : List FifoEntry) : List FifoEntry := es.map fun e => if e.filled then e else { e with id := Map.get e.id new e.id }
  let x := x.mapCtx fun c => { c with lsFifo := fifo c.lsFifo, last := c.last.map fun (i, k) => (i, Map.get k new k) }
  { x with
    accs := x.accs.map fun (k, a) =>
      let n := Map.get k new k
      (n, { a with id := n, arrived := false, done := false, poison := 0, vals := []
                   lines := a.lines.map fun u => { u with done := false, ready := false, due := 0 } })
    nextOp := from_ + x.accs.length }

/-- A fragment restored on a core: its next bundle is fetched again, and pages it waits for are looked up again. -/
def Seq.restored (g : Seq) (from_ : Nat) : Seq :=
  { g with
    fetch := (if (g.part.map fun p => !p.cap.words.isEmpty).getD false then .ready else .need), pages := []
    due := max g.due from_, since := max g.due from_, go := false
    part := g.part.map fun p => { p with pages := [], look := [], due := max p.due from_ } }

/-- A saved wave as it stands when its team is placed again: the count towards a lower ESC begins anew (R297). -/
def Wave.restored (x : Wave) (now from_ : Nat) : Wave :=
  let x := x.renumber now
  { x with
    placed := now, from_ := from_, rollTill := 0, escStamp := now, lastPage := [], stop := (if x.stop = .swapping then .running else x.stop)
    ctx := { x.ctx with seqs := x.ctx.seqs.map fun (i, g) => (i, g.restored from_), spill := x.ctx.spill.map fun (i, g) => (i, g.restored from_) } }

/-- Starts the barrier timers of a team that is here again (R192). -/
def State.resumeTimers (s : State) (id : Nat) : State :=
  match s.team? id with
  | none => s
  | some t => (List.range 4).foldl (fun s k =>
      if t.fresh k then s
      else (State.modTeam s id fun t => { t with timing := Map.put t.timing k (State.now s) }).after (State.barLimit s t - Map.get 0 t.timer k) .barrierTimeout [id, k, State.now s]) s

/-- Places a swapped team again. What its loads, requests and latches need follows when its bundles may issue. -/
def State.resumeTeam (s : State) (id core granule : Nat) : State :=
  match s.team? id with
  | none => s
  | some t => match s.launch? t.launch with
    | none => s
    | some l =>
      let (now, s) := s.fillPages id l t (core / 96) true
      let (t, s) := s.seat id l t core granule true
      let from_ := if now then s.now + startDelay t true else notYet
      let pairs := (s.freeSlots core).zip t.saved
      let s := pairs.foldl (fun s (w, i, x) =>
        { State.setWave s w (x.restored (State.now s) from_) with
          bound := (State.bound s).map fun (p, q, v, k) => (p, q, if v = awaySlot id i then w else v, k)
          qops := (State.qops s).map fun ((k, o) : Nat × QuOp) => (k, { o with cmd := o.cmd.map fun (v, g) => (if v = awaySlot id i then w else v, g) }) }) s
      let s := s.setTeam id { t with slots := pairs.map fun (w, i, _) => (i, w), saved := [] }
      let s := s.resumeTimers id
      if now then s.at_ from_ .placement [core / 96, 1, id] else s

/-- A resumed team's first bundles may issue: its unbound loads are issued again, a pending mx.req is posted again, and its head latches
refill (R35, R231, R237). -/
def State.teamBack (s : State) (id : Nat) : State :=
  match s.team? id with
  | none => s
  | some t =>
    let s := s.freeArea id
    t.slots.foldl (fun s (_, w) =>
      let x := State.wave s w
      let s := x.accs.foldl (fun s (k, _) => State.requestAll s w k) s
      let s := (List.range 4).foldl (fun s k => State.rebind s w k) s
      match x.mxReq with
      | some (op, m, p) => (s.modWave w fun x => { x with mxReq := none }).mxPost w op m p
      | none => s) s

/-- A fragment of a team whose fill begins now: what was put off until then comes from cycle `from_` on. -/
def Seq.comes (g : Seq) (from_ : Nat) : Seq :=
  let due (t : Nat) : Nat := if notYet ≤ t then from_ else t
  { g with due := due g.due, since := due g.since, stamp := due g.stamp, fid := if 64 * notYet ≤ g.fid then fragNo from_ g.mask else g.fid
           part := g.part.map fun p => { p with due := due p.due } }

/-- The pages of a team's fill are at hand: its first bundles may issue `delay` cycles from now (R345, R472). -/
def State.teamComes (s : State) (die id delay : Nat) : State :=
  match s.team? id with
  | none => s
  | some t =>
    let from_ := s.now + delay
    let all (m : Map Seq) : Map Seq := m.map fun (i, g) => (i, g.comes from_)
    (t.slots.foldl (fun s (_, w) => State.modWave s w fun x =>
      { x with from_ := from_, ctx := { x.ctx with seqs := all x.ctx.seqs, spill := all x.ctx.spill } }) s).at_ from_ .placement [die, 1, id]

/-! The pending list (R344). -/

/-- An item's numbers, for its way from one distributor to another. -/
def Item.code (i : Item) : List Nat :=
  [i.launch, i.prio, i.next, i.step, i.count, (match i.team with | some t => t + 1 | none => 0), (if i.task then 1 else 0), (if i.first then 1 else 0), i.ready,
   i.swap]
def Item.ofCode (c : List Nat) : Item :=
  let n (k : Nat) : Nat := c.getD k 0
  { launch := n 0, prio := n 1, next := n 2, step := n 3, count := n 4, team := (if n 5 = 0 then none else some (n 5 - 1)), task := n 6 == 1,
    since := 0, first := n 7 == 1, ready := n 8, swap := n 9 }

/-- A cohort that is to be placed at once: it names no team of its own. -/
def Item.isCohort (i : Item) : Bool := i.step == 0 && i.team.isNone

/-- The order of the list (R344); what was sent here to be placed comes first (R345). -/
def Item.before (now : Nat) (a b : Item) : Bool :=
  let aged (i : Item) : Bool := decide (i.since + 65536 ≤ now)
  let cls (i : Item) : Nat := if i.team.isNone then 2 else if i.task then 1 else 0
  let key (i : Item) : List Nat :=
    [if i.first then 0 else 1, 3 - i.prio] ++
    (if aged i then [0, i.since, 0] else [1, 0, cls i]) ++
    (if i.team.isNone then [i.launch, i.next] else [0, if i.task then i.since else i.swap])
  decide (key a < key b)

/-- Inserts an item behind every item that does not come after it. -/
def insItem (now : Nat) (i : Item) : List Item → List Item
  | [] => [i]
  | j :: t => if i.before now j then i :: j :: t else j :: insItem now i t

/-- The pending list in its order. -/
def Die.sorted (d : Die) (now : Nat) : List Item := d.items.foldl (fun l i => insItem now i l) []

/-- Sets a distributor's next decision: one every 16 cycles (R345). (DEDUCED, log 59) -/
def State.armPlace (s : State) (d : Nat) : State :=
  let t := (s.now + 15) / 16 * 16
  let t := if (s.die d).stepAt = some t then t + 16 else t
  if (s.die d).items.isEmpty then s
  else s.modDie d fun k => { k with placeAt := match k.placeAt with
    | some u => if s.now ≤ u ∧ k.stepAt ≠ some u then some u else some t
    | none => some t }

/-- The next die in the order 0→1→3→2→0 (R417). -/
def ringNext (d : Nat) : Nat := match d with | 0 => 1 | 1 => 3 | 3 => 2 | _ => 0

/-- The die that takes over a distributor's list: the next one in RUN (R417). -/
def State.nextRun (s : State) (d : Nat) : Nat :=
  ([ringNext d, ringNext (ringNext d), ringNext (ringNext (ringNext d))].find? fun e => (s.die e).state == .run).getD d

/-- An item enters a distributor's list. A distributor that is not in RUN sends it on to the next that is, which owns it (R417). (DEDUCED, log 74) -/
def State.enterItem (s : State) (d : Nat) (i : Item) : State :=
  if (s.die d).state = .run then (s.modDie d fun k => { k with items := k.items ++ [{ i with since := s.now }] }).armPlace d
  else
    let e := s.nextRun d
    let s := match i.team with | some t => s.modTeam t fun t => { t with owner := e } | none => s
    if e = d then s.modDie d fun k => { k with items := k.items ++ [{ i with since := s.now }] }
    else s.after (180 * ringDist d e) .teamTransfer (e :: i.code)

/-- The partition, address and length of the part of a team's context area that a distributor reads (R345). -/
def State.areaOf (s : State) (t : Team) : Option (Nat × Nat × Nat) :=
  t.area.map fun a => (((s.launch? t.launch).map (·.part)).getD 0, a.toNat, 128 * (72 + 544 * t.waves))

/-- The die takes every line of a team's context area, its scratchpad region apart, as holder (R345). -/
def State.takeArea (s : State) (t : Team) (d : Nat) : State :=
  match s.areaOf t with
  | none => s
  | some (p, a, n) =>
    (s.stretches d p a n).foldl (fun s (pa, _, n) =>
      (List.range (n / 128)).foldl (fun s k => State.own s d (pa / 128 + k)) s) s

/-- The partition of an item. -/
def State.itemPart (s : State) (i : Item) : Nat := ((s.launch? i.launch).map (·.part)).getD 0

/-- The first die, from `d` on, that has a core of a partition (R353). -/
def State.coreDie (s : State) (p d : Nat) : Nat := (((List.range 4).map fun k => (d + k) % 4).find? fun e => s.hasCore p e).getD d

/-- Whether an item is a swapped team of a cohort: it is pending, but is placed with its cohort alone (R344, R346, R350). -/
def State.ofCohort (s : State) (i : Item) : Bool :=
  match i.team.bind s.team? with
  | some t => !t.task && ((s.launch? t.launch).map fun l => l.lrec.cohort).getD false
  | none => false

/-- Whether a swapped team goes on to another die, since its partition has no core on this one (R353, R354). -/
def State.strays (s : State) (d : Nat) (i : Item) : Bool :=
  i.team.isSome && !i.task && !s.ofCohort i && s.coreDie (s.itemPart i) d != d

/-- Sends an item on to the die where its partition has cores, which places it first (R345, R353). -/
def State.sendOn (s : State) (d : Nat) (i : Item) : State :=
  let e := s.coreDie (s.itemPart i) d
  s.after (180 * ringDist d e) .teamTransfer (e :: { i with first := true }.code)

/-- TEAM_TRANSFER: an item arrives at a distributor (R345, R353, R417). The context area of a swapped team is read first, every line of it; `first` is the
cycle in which the first line came, and from then on one line is taken in each cycle. -/
def State.teamTransfer (s : State) (d : Nat) (i : Item) (first : Option Nat) : State :=
  match i.team with
  | some id => match s.team? id with
    | some t => match (if i.task || (s.die d).state != .run then none else s.areaOf t) with
      | none => s.enterItem d i
      | some (p, a, n) =>
        let enter (s : State) (f : Nat) : State := (s.takeArea t d).enterItem d { i with ready := max (f + n / 128 - 1) s.now }
        if s.strays d i then s.sendOn d i
        else match first with
          | some f => enter s f
          | none => match s.devTask d [(p, a, n, 2)] .teamTransfer (d :: i.code) with
            | (true, s) => enter s s.now
            | (false, s) => s
    | none => s
  | none => s.enterItem d i

/-! Placing (R345). -/

/-- Waves and granules that an item's next team needs; a task wave is a team of one (R349). -/
def State.needs (s : State) (i : Item) : Nat × Nat :=
  match i.team.bind s.team? with
  | some t => (t.waves, t.scratch / 128)
  | none => match s.launch? i.launch with
    | some l => (l.lrec.waves, l.lrec.scratch / 128)
    | none => (1, 0)

/-- Whether nothing but room keeps an item from being placed: its area lies here, and a write-back of its scratchpad is over (R317, R345). -/
def State.itemReady (s : State) (i : Item) : Bool :=
  decide (i.ready ≤ s.now) && !s.ofCohort i && (match i.team with
    | some id => ((s.team? id).map fun t => t.stage == 0).getD false
    | none => true)

/-- Whether the fill of an item's scratchpad must wait for a page that is changing its bias (R334). -/
def State.fillFlips (s : State) (d : Nat) (i : Item) : Bool :=
  match s.launch? i.launch with
  | none => false
  | some l =>
    let t := (i.team.bind s.team?).getD (newTeam i.launch l.lrec (BitVec.ofNat 32 i.next) d)
    match t.fillsFrom l (i.team.isSome && !i.task) with
    | some a => s.devFlips d l.part a t.scratch
    | none => false

/-- Where an item can be placed on a die. -/
def State.canPlace (s : State) (d : Nat) (i : Item) : Option (Load × Nat) :=
  if s.itemReady i && !s.fillFlips d i then chooseCore (s.loads (s.itemPart i) d) (s.die d).rr (s.needs i).1 (s.needs i).2 else none

/-- Places one team of an item. -/
def State.placeItem (s : State) (d : Nat) (i : Item) (core granule : Nat) : State :=
  let rest : List Item := if i.team.isSome || i.count ≤ 1 then [] else [{ i with next := i.next + i.step, count := i.count - 1 }]
  let s := s.modDie d fun k => { k with items := k.items.flatMap fun j => if j = i then rest else [j], rr := (core % 96 + 1) % 96 }
  match i.team with
  | some id => if i.task then s.startTeam id core granule else s.resumeTeam id core granule
  | none =>
    match s.launch? i.launch with
    | none => s
    | some l =>
      let (id, s) := s.fresh
      (s.setTeam id (newTeam i.launch l.lrec (BitVec.ofNat 32 i.next) d)).startTeam id core granule

/-- Places every team of a cohort that is assigned to a die, and lifts its freeze (R346). (DEDUCED, log 60) -/
def State.placeCohort (s : State) (d : Nat) (i : Item) : State :=
  match s.launch? i.launch with
  | none => s
  | some l =>
    let mine := l.plan.filter (·.die == d)
    let s := s.modLaunch i.launch fun l => { l with plan := l.plan.filter (·.die != d) }
    let s := mine.foldl (fun s a => match a.team with
      | some id => State.resumeTeam s id a.core a.granule
      | none =>
        let (id, s) := State.fresh s
        (s.setTeam id (newTeam i.launch l.lrec (BitVec.ofNat 32 a.number) (a.number % 4))).startTeam id a.core a.granule) s
    s.modDie d fun k => { k with items := k.items.filter (· != i), frozen := k.frozen - 1,
                                 rr := match mine.getLast? with | some a => (a.core % 96 + 1) % 96 | none => k.rr }

/-! Pre-emption (R350). -/

/-- A pre-emption request to a team (R369). -/
def State.requestYield (s : State) (id : Nat) : State :=
  match s.team? id with
  | none => s
  | some t =>
    if t.state ≠ .resident || t.deadline.isSome then s else
    let y := ((s.launch? t.launch).map fun l => l.lrec.ydl).getD 131072
    let s := t.slots.foldl (fun s (_, w) => State.modWave s w (·.mapCtx (·.setWstat 7 7 1))) s
    (s.setTeam id { t with deadline := some (s.now + y), past := false }).after y .yieldDeadline [id, s.now + y]

/-- The teams that leave together: all of a cohort, or the team alone (R350). -/
def State.together (s : State) (id : Nat) : List Nat :=
  match s.team? id with
  | none => []
  | some t =>
    if !t.task && ((s.launch? t.launch).map fun l => l.lrec.cohort).getD false then
      (s.teams.filter fun (_, u) => u.launch == t.launch && !u.task).map (·.1)
    else [id]

/-- Whether an item would fit a team's core once the team had left it. -/
def State.wouldFit (s : State) (i : Item) (t : Team) : Bool :=
  let l := s.loadOf t.core
  let l := { l with used := l.used - t.slots.length, alloc := l.alloc.filter fun a => t.scratch == 0 || a != (t.granule, t.scratch / 128) }
  (s.partCores (s.itemPart i) (t.core / 96)).contains t.core && (l.fit (s.needs i).1 (s.needs i).2).isSome

/-- The launch priority of a team. -/
def State.teamPrio (s : State) (t : Team) : Nat := ((s.launch? t.launch).map fun l => l.lrec.prio).getD 0

/-- The victim of a pre-emption for an item (R350). (DEDUCED, log 67) -/
def State.victim (s : State) (d : Nat) (i : Item) : Option Nat :=
  let cs := s.teams.filter fun (_, t) => t.state == .resident && t.core / 96 == d && t.deadline.isNone && decide (s.teamPrio t < i.prio) && s.wouldFit i t
  (leastBy (fun a b => decide (s.teamPrio a.2 < s.teamPrio b.2) || (s.teamPrio a.2 == s.teamPrio b.2 && decide (b.2.placed < a.2.placed))) cs).map (·.1)

/-- A die has a pre-emption outstanding: its victim has not left yet. -/
def State.preempts (s : State) (d : Nat) : Bool :=
  match (s.die d).preempting with
  | some id => ((s.team? id).map fun t => t.core / 96 == d && (t.state == .resident || t.state == .swapping)).getD false
  | none => false

/-- Chooses a victim for the first item of a list, where that item cannot be placed for want of room. -/
def State.preempt (s : State) (d : Nat) (i : Item) : State :=
  if !s.itemReady i || s.preempts d || !(s.part (s.itemPart i)).psched.getLsbD 2 then s
  else match s.victim d i with
    | none => s
    | some id => ((s.together id).foldl State.requestYield s).modDie d fun k => { k with preempting := some id }

/-- A swapped team whose partition has lost its last core on the die goes to one that has some (R353, R354). -/
def State.sendStray (s : State) (d : Nat) : State :=
  match (s.die d).items.find? (s.strays d) with
  | some i => (s.modDie d fun k => { k with items := k.items.filter (· != i) }).sendOn d i
  | none => s

/-- PLACEMENT: a distributor's decision (R345). -/
def State.placement (s : State) (d : Nat) : State :=
  let k := s.die d
  if k.state ≠ .run || k.items.isEmpty then s else
  let s := (s.modDie d fun k => { k with stepAt := some s.now }).sendStray d
  let items := (s.die d).sorted s.now
  let s := match items.find? fun i => i.isCohort && decide (i.ready ≤ s.now) with
    | some i => s.placeCohort d i
    | none =>
      if k.frozen ≠ 0 then s
      else match items.findSome? fun (i : Item) => if i.isCohort then none else (s.canPlace d i).map fun c => (i, c) with
        | some (i, l, g) =>
          let s := s.placeItem d i l.core g
          (match items.head? with | some j => if j != i && !j.isCohort then s.preempt d j else s | none => s)
        | none => match items.head? with
          | some j => if j.isCohort then s else s.preempt d j
          | none => s
  if (s.die d).items.isEmpty then s.modDie d fun k => { k with emptySince := s.now } else s.armPlace d

/-! The assignment of a cohort (R346). -/

/-- Puts a team on the reported capacity. -/
def Load.take (l : Load) (waves n g : Nat) : Load := { l with used := l.used + waves, alloc := if n = 0 then l.alloc else l.alloc ++ [(g, n)] }

/-- One team of the assignment: the first die, from its owner on, with a core that can take it. -/
def assignOne (waves n : Nat) (ls : Map (List Load)) (rr : Map Nat) (t : Nat) (team : Option Nat) : Option (Assign × Map (List Load) × Map Nat) :=
  ((List.range 4).map fun k => (t + k) % 4).findSome? fun d =>
    (chooseCore (Map.get [] ls d) (Map.get 0 rr d) waves n).map fun (l, g) =>
      ({ number := t, die := d, core := l.core, granule := g, team := team },
       Map.put ls d ((Map.get [] ls d).map fun m => if m.core = l.core then m.take waves n g else m), Map.put rr d ((l.core % 96 + 1) % 96))

/-- The assignment of the listed teams; none where one finds no core. -/
def assignAll (waves n : Nat) (ls : Map (List Load)) (rr : Map Nat) : List (Nat × Option Nat) → Option (List Assign)
  | [] => some []
  | (t, id) :: r => match assignOne waves n ls rr t id with
    | none => none
    | some (a, ls, rr) => (assignAll waves n ls rr r).map (a :: ·)

/-- The round-robin pointers. -/
def State.pointers (s : State) : Map Nat := (List.range 4).map fun d => (d, (s.die d).rr)

/-- PLACEMENT: die; or die, 1 and a team whose first bundles may issue; or die, 2, a team whose fill begins, and its length (R345). -/
def execPlacement (s : State) : Host.Outcome State Fault Refusal :=
  .next (match s.arg 1 with
    | 0 => s.placement (s.arg 0)
    | 1 => s.teamBack (s.arg 2)
    | _ => s.teamComes (s.arg 0) (s.arg 2) (s.arg 3))
/-- TEAM_TRANSFER: die, item, and the cycle in which the first line of its context area came (R345, R353, R417). -/
def execTeamTransfer (s : State) : Host.Outcome State Fault Refusal :=
  .next (s.teamTransfer (s.arg 0) (Item.ofCode ((s.ev.drop 1).take 10)) (s.ev[11]?))

end Sys2Proof.Machine
end

