-- ==== Sys2Proof/Machine/Launch.lean ====
section
/-! DEFINITION. Launches: submission, acceptance and its checks, the co-residency check, distribution, stealing, spawn bins, completion
records, and the resizing of a partition (R336 to R349, R354). -/
namespace Sys2Proof.Machine

/-! Submission (R338). -/

/-- LQDOOR: the host submits a record's address at die 0 or 1; the answer goes to the host (R338, R420). (DEDUCED, log 81) -/
def State.lqdoor (s : State) (p : Nat) (addr : Dword) (d : Nat) : State :=
  if !s.featack.getLsbD 0 then { s with answers := 4 :: s.answers }
  else s.sendQueue d { QuOp.blank with
    kind := .enq, handle := (s.part p).lqh, part := p, count := 1, forms := [[7, lowWord addr, highWord addr, 0]], door := true } 0

/-! The launch record (R337, R340). -/

/-- Reads a number from a list of bytes. -/
def bytesAt (b : List (BitVec 8)) (k n : Nat) : Nat := ofBytes ((b.drop k).take n)

/-- A launch record from its bytes; a zero selects the defaults of R337. -/
def readRecord (b : List (BitVec 8)) : LaunchRec :=
  let n := bytesAt b
  let flags := n 20 4
  let scr := n 24 8
  { entry := BitVec.ofNat 64 (n 0 8), teams := n 8 4, waves := n 12 4, scratch := n 16 4,
    cohort := flags % 2 == 1, shadow := flags / 2 % 2 == 1, prio := flags / 4 % 4,
    scrwin := BitVec.ofNat 64 (scr / 2 ^ 16 * 2 ^ 16), backed := scr % 2 == 1,
    args := (List.range 8).map fun k => BitVec.ofNat 64 (n (32 + 8 * k) 8),
    fmt := (List.range 8).map fun k => BitVec.ofNat 64 (n (96 + 8 * k) 8),
    complq := BitVec.ofNat 64 (n 160 8),
    ydl := if n 168 4 = 0 then 131072 else n 168 4,
    maxpass := if n 172 4 = 0 then 16777216 else n 172 4,
    waitswap := if n 176 1 = 0 then 14 else n 176 1,
    barto := if n 177 1 = 0 then 24 else n 177 1,
    utag := BitVec.ofNat 32 (n 180 4) }

/-- Whether a record's reserved bytes and bits are zero (R337). -/
def reservedZero (b : List (BitVec 8)) : Bool :=
  bytesAt b 178 2 == 0 && bytesAt b 184 72 == 0 && bytesAt b 20 4 / 16 == 0 && bytesAt b 24 2 / 2 == 0

/-- The first check of R340, with the features of R422. -/
def recordBad (featack : Dword) (addr : Nat) (b : List (BitVec 8)) (r : LaunchRec) : Bool :=
  let last := (r.scrwin.toNat + r.teams * r.scratch + 2 ^ 64 - 1) % 2 ^ 64
  addr % 256 != 0 || !reservedZero b || r.entry.toNat % 4 != 0 || !canonical r.entry ||
    !decide (1 ≤ r.teams ∧ r.teams ≤ 2 ^ 24) || !decide (1 ≤ r.waves ∧ r.waves ≤ 16) || !decide (r.scratch ≤ 524288) || r.scratch % 128 != 0 ||
    !decide (6 ≤ r.waitswap ∧ r.waitswap ≤ 31) || !decide (10 ≤ r.barto ∧ r.barto ≤ 40) || !canonical (BitVec.ofNat 64 last) ||
    (r.fmt.any fun d => !slotValid d (featack.getLsbD 2)) || (r.shadow && !featack.getLsbD 4)

/-- The status of a record, the cohort's check apart (R340, R341): 0 OK, 2 BADRECORD, 3 DENIED. (DEDUCED, log 69) -/
def State.recordStatus (s : State) (p addr : Nat) (b : Option (List (BitVec 8))) : Nat :=
  match b with
  | none => 2
  | some b =>
    let r := readRecord b
    if recordBad s.featack addr b r then 2
    else if dfield (s.part p).psched 1 0 < r.prio then 3 else 0

/-! Acceptance (R339). -/

/-- The die whose distributor accepts a partition's launches; die 0 has its duties while it is not in RUN (R417). -/
def State.acceptor (s : State) (p : Nat) : Nat :=
  let h := handleHome (s.part p).lqh
  if (s.die h).state = .run then h else 0

/-- The launch queue's context: as its controller caches it, or as its descriptor holds it (R310, R472). -/
def State.launchQueue (s : State) (p : Nat) : Option QCtx :=
  let h := (s.part p).lqh
  let d := handleHome h
  (Map.find? (s.die d).qctx (qkey (handlePart h) (handleIdx h))).orElse fun _ => s.readDesc d (handlePart h) (handleIdx h)

/-- The launch queue's descriptor is at hand, or is read first; then LAUNCH_ACCEPT goes on with stage 8 (R310, R472). -/
def State.launchDesc (s : State) (p : Nat) : Bool × State :=
  let h := (s.part p).lqh
  let d := handleHome h
  match Map.find? (s.die d).qctx (qkey (handlePart h) (handleIdx h)) with
  | some _ => (true, s)
  | none => s.devTask d [(handlePart h, s.descAddr (handlePart h) (handleIdx h), 64, 2)] .launchAccept [p, 8]

/-- The distributor of a partition's launch queue accepts no entry until it is told of one (R339). -/
def State.acceptStop (s : State) (p : Nat) : State := s.modPart p fun k => { k with accepting := false }

/-- The launch queue's descriptor is at hand: its first entry is popped 30 cycles on, where it has one (R339). -/
def State.lookEntry (s : State) (p : Nat) : State :=
  let d := handleHome (s.part p).lqh
  match s.launchQueue p with
  | none => s.acceptStop p
  | some c => match s.keepReady d c with
    | (t + 1, s) => s.after (t + 1) .launchAccept [p, 8]
    | (0, s) => if c.visible = 0 then (s.keepQ d c).acceptStop p else s.after 30 .launchAccept [p, 1]

/-- The first entry of the launch queue is popped, once its slot is at hand: `stage` 9 says that it has been waited for (R339, R472). -/
def State.popEntry (s : State) (p stage : Nat) : State :=
  let d := handleHome (s.part p).lqh
  match s.launchQueue p with
  | none => s.acceptStop p
  | some c =>
    if c.visible = 0 then s.acceptStop p
    else match (if stage = 9 then (true, s) else s.devTask d [(c.part, c.slotAddr c.head, c.slotSize, 1)] .launchAccept [p, 9]) with
      | (false, s) => s
      | (true, s) => match s.keepReady d c with
        | (t + 1, s) => s.after (t + 1) .launchAccept [p, 9]
        | (0, s) =>
          let (recs, s) := s.recordsOf d c 1
          let r := recs.headD []
          ((s.keepQ d { c with head := c.head + 1, dbase := r }).refillSoon { c with head := c.head + 1, dbase := r }).after 30
            .launchAccept [p, 2, (joinWords (r.getD 1 0) (r.getD 0 0)).toNat]

/-- The next entry is looked for; with none, the distributor waits for a publish. -/
def State.acceptNext (s : State) (p : Nat) : State := s.after 0 .launchAccept [p, 0]

/-- The distributor of a partition's launch queue looks for entries again, where it has stopped: its queues serve again, or LQH names another queue (R231,
R339). -/
def State.acceptAgain (s : State) (p : Nat) : State :=
  if (s.part p).accepting || (s.part p).lqh = 0 then s else (s.modPart p fun k => { k with accepting := true }).acceptNext p


/-- Invalidates every instruction cache of a partition (R46, R339). -/
def State.dropInst (s : State) (p : Nat) : State :=
  { s with cores := s.cores.map fun ((k, c) : Nat × Core) => (k, if (s.part p).clovers.getLsbD (k / 4) then { c with ic := [] } else c) }

/-- The reports of a co-residency check are asked for (R346). -/
def State.askReports (s : State) (p l : Nat) (resume : Bool) : State :=
  let a := s.acceptor p
  let far := ((List.range 4).map fun d => ringDist a d).foldl max 0
  let s := (List.range 4).foldl (fun s d => State.after s (180 * ringDist a d) .launchAccept [p, 5, l, d]) s
  s.after (360 * far) .launchAccept [p, 6, l, if resume then 1 else 0]

/-- A record has been read: its checks, and what follows (R339, R340). -/
def State.accept (s : State) (p addr : Nat) : State :=
  let a := s.acceptor p
  let b := s.devRead a p addr 256
  let st := s.recordStatus p addr b
  let r := readRecord (b.getD [])
  let (id, s) := s.fresh
  let l : Launch :=
    { addr := BitVec.ofNat 64 addr, part := p, lrec := r, die := a, killed := 0, started := if st = 0 then none else some s.time, finished := none,
      status := st, left := if st = 0 then r.teams else 0, tasks := 0, moved := 0, posting := false, done := false, reports := [], plan := [] }
  let s := { s with launches := Map.put s.launches id l }
  if st ≠ 0 then s.acceptNext p
  else
    let s := s.dropInst p
    if r.cohort then s.askReports p id false
    else ((List.range 4).foldl (fun s d => State.after s (180 * ringDist a d) .launchDistribution [d, id, 0]) s).acceptNext p

/-- A distributor freezes for a check and reports (R346). One that is not in RUN has nothing to report. -/
def State.report (s : State) (p l d : Nat) : State :=
  let ls := s.loads p d
  (s.modDie d fun k => { k with frozen := k.frozen + 1 }).modLaunch l fun x => { x with reports := Map.put x.reports d ls }

/-- Lifts a check's freeze everywhere. -/
def State.unfreeze (s : State) (a l : Nat) : State :=
  (List.range 4).foldl (fun s d => State.after s (180 * ringDist a d) .launchDistribution [d, l, 1]) s

/-- The teams that a cohort's assignment places: all of them, or those that were swapped, by number. -/
def State.cohortTeams (s : State) (l : Nat) (x : Launch) (resume : Bool) : List (Nat × Option Nat) :=
  if !resume then (List.range x.lrec.teams).map fun t => (t, none)
  else
    let mine := (s.teams.filter fun (_, t) => t.launch == l && !t.task && t.state == .swapped).map fun (id, t) => (t.number.toNat, id)
    mine.foldl (fun ts (n, id) => (ts.filter fun (m, _) => decide (m < n)) ++ (n, some id) :: ts.filter fun (m, _) => decide (n < m)) []

/-- A distributor's list without the items of some swapped teams. -/
def Die.without (k : Die) (now : Nat) (teams : List Nat) : Die :=
  let rest := k.items.filter fun i => !(i.team.any teams.contains)
  { k with items := rest, emptySince := if rest.isEmpty && !k.items.isEmpty then now else k.emptySince }

/-- A cohort's teams are assigned; it starts on every die, in one decision step for all, ends with NORESIDE, or waits to try again (R340, R346). -/
def State.assign (s : State) (p l : Nat) (resume : Bool) : State :=
  match s.launch? l with
  | none => s
  | some x =>
    let a := s.acceptor p
    match assignAll x.lrec.waves (x.lrec.scratch / 128) x.reports s.pointers (s.cohortTeams l x resume) with
    | none =>
      let s := (s.unfreeze a l).modLaunch l fun x => { x with reports := [] }
      if resume then s.after 16 .launchAccept [p, 7, l]
      else (s.modLaunch l fun x => { x with status := 1, left := 0, started := some s.time }).acceptNext p
    | some plan =>
      let s := s.modLaunch l fun x => { x with plan := plan, reports := [] }
      let s := { s with dies := s.dies.map fun ((d, k) : Nat × Die) => (d, k.without (State.now s) (plan.filterMap (·.team))) }
      let owner (b : Assign) : Nat := match b.team.bind s.team? with | some t => t.owner | none => b.number % 4
      let all := (plan.map fun b => 180 * (ringDist a (owner b) + ringDist (owner b) b.die)).foldl max 0
      let s := (List.range 4).foldl (fun s d =>
        if plan.any (·.die == d) then State.after s all .launchDistribution [d, l, 2]
        else State.after s (180 * ringDist a d) .launchDistribution [d, l, 1]) s
      if resume then s else s.acceptNext p

/-- Whether a swapped cohort can try to resume: all its teams that live are away, in their distributors' lists, and their scratchpads written
back (R344, R346). -/
def State.cohortAway (s : State) (l : Nat) : Bool :=
  let mine := s.teams.filter fun (_, t) => t.launch == l && !t.task
  !mine.isEmpty && mine.all fun (id, t) => t.state == .moving ||
    (t.state == .swapped && t.stage == 0 && s.dies.any fun (_, k) => k.items.any fun i => i.team == some id)

/-- A cohort waits until its teams fit again, and then runs the assignment (R346). (DEDUCED, log 68) -/
def State.cohortResume (s : State) (p l : Nat) : State :=
  match s.launch? l with
  | none => s
  | some x =>
    let ls : Map (List Load) := (List.range 4).map fun d => (d, s.loads p d)
    if s.cohortAway l && (assignAll x.lrec.waves (x.lrec.scratch / 128) ls s.pointers (s.cohortTeams l x true)).isSome then s.askReports p l true
    else s.after 16 .launchAccept [p, 7, l]

/-- LAUNCH_ACCEPT by stage: 0 an entry is looked for, 8 the queue's descriptor is at hand, 1 the entry is popped, 9 its slot is at hand, 2 the record is
read, 3 it is checked; 5 a die's report, 6 the assignment, 7 a cohort that waits to resume. -/
def State.launchAccept (s : State) (a : List Nat) : State :=
  let n (i : Nat) : Nat := a.getD i 0
  let p := n 0
  match n 1 with
  | 0 =>
    if s.queuesOffline (handleHome (s.part p).lqh) then s.acceptStop p
    else match s.launchDesc p with
      | (true, s) => s.lookEntry p
      | (false, s) => s
  | 8 => s.lookEntry p
  | 1 => s.popEntry p 1
  | 9 => s.popEntry p 9
  | 2 => match s.devTask (s.acceptor p) [(p, n 2, 256, 2)] .launchAccept [p, 3, n 2] with
    | (true, s) => s.after 0 .launchAccept [p, 3, n 2]
    | (false, s) => s
  | 3 => s.accept p (n 2)
  | 5 => s.report p (n 2) (n 3)
  | 6 => s.assign p (n 2) (n 3 == 1)
  | _ => s.cohortResume p (n 2)

/-- LAUNCH_DISTRIBUTION: a launch reaches a distributor: 0 it adds the teams it owns (R344); 1 a check's freeze is lifted; 2 the teams of a
cohort that are assigned to it arrive, and are placed at once when their context areas lie there, 3: `first` is the cycle in which the first line of
these came (R345, R346). -/
def State.distribute (s : State) (d l kind first : Nat) : State :=
  match s.launch? l with
  | none => s.modDie d fun k => { k with frozen := k.frozen - (if kind = 0 then 0 else 1) }
  | some x =>
    let blank : Item := { launch := l, prio := x.lrec.prio, next := d, step := 4, count := 0, team := none, task := false, since := 0, first := false, ready := 0 }
    match kind with
    | 0 =>
      let n := (x.lrec.teams + 3 - d) / 4
      if n = 0 then s else s.enterItem d { blank with count := n }
    | 1 => (s.modDie d fun k => { k with frozen := k.frozen - 1 }).armPlace d
    | _ =>
      let mine := x.plan.filter (·.die == d)
      if (s.die d).state ≠ .run then
        let s := s.modLaunch l fun x => { x with plan := x.plan.filter (·.die != d) }
        let s := s.modDie d fun k => { k with frozen := k.frozen - 1 }
        mine.foldl (fun s b => State.enterItem s d { blank with next := b.number, step := 1, count := 1, team := b.team, first := true }) s
      else
        let ts := mine.filterMap fun b => b.team.bind s.team?
        let areas := ts.filterMap s.areaOf
        match (if kind = 3 then (true, s) else s.devTask d (areas.map fun (p, a, n) => (p, a, n, 2)) .launchDistribution [d, l, 3]) with
        | (false, s) => s
        | (true, s) =>
          let f := if kind = 3 then first else s.now
          let ready := (areas.map fun (_, _, n) => f + n / 128 - 1).foldl max s.now
          (ts.foldl (fun s t => State.takeArea s t d) s).enterItem d { blank with step := 0, count := mine.length, first := true, ready := ready }

/-! Stealing (R347, R348). -/

/-- What a thief reports for each partition: the largest free slot count and the longest free scratchpad of one of its cores. (DEDUCED, log 66) -/
def State.room (s : State) (d : Nat) : List Nat :=
  (List.range 16).flatMap fun p =>
    let ls := s.loads p d
    [(ls.map fun l => 16 - l.used).foldl max 0, (ls.map fun l => freeSpan l.alloc).foldl max 0]

/-- Whether a partition core of a die has a free wave slot. -/
def State.hasRoom (s : State) (d : Nat) : Bool := (List.range 16).any fun p => (s.loads p d).any fun l => decide (l.used < 16)

/-- Whether a distributor steals now: its list has been empty for 256 cycles, and it does not rest. -/
def State.stealDue (s : State) (d : Nat) : Bool :=
  let k := s.die d
  k.items.isEmpty && k.state == .run && k.stealing.isNone && decide (k.emptySince + 256 ≤ s.now) && decide (k.stealAt ≤ s.now) && s.hasRoom d

/-- A thief asks the `n`th die after it. -/
def State.stealAsk (s : State) (d n : Nat) : State :=
  let v := (d + 1 + n) % 4
  (s.modDie d fun k => { k with stealing := some v }).after (180 * ringDist d v) .stealRequest ([d, v, n] ++ s.room d)

/-- How many teams of items lie at or above a number. -/
def teamsFrom (is : List Item) (v : Nat) : Nat :=
  (is.map fun i => if i.next + i.step * i.count ≤ v then 0 else i.count - (v + i.step - 1 - i.next) / max 1 i.step).foldl (· + ·) 0

/-- The number from which the items hold exactly `k` teams: the greatest from which they hold at least `k`. -/
def cutAt (is : List Item) (k : Nat) : Nat :=
  (List.range 25).foldl (fun v i => let u := v + 2 ^ (24 - i); if k ≤ teamsFrom is u then u else v) 0

/-- Splits an item at a team number: what stays below it, and what goes. -/
def Item.split (i : Item) (v : Nat) : Item × Item :=
  let stay := min i.count ((v + i.step - 1 - i.next) / max 1 i.step)
  ({ i with count := stay }, { i with next := i.next + i.step * stay, count := i.count - stay })

/-- STEAL_REQUEST: the victim hands over the upper half of its first launch that would fit (R348). A frozen one answers later. -/
def State.stealRequest (s : State) (a : List Nat) : State :=
  let n (i : Nat) : Nat := a.getD i 0
  let d := n 0
  let v := n 1
  let k := s.die v
  if k.frozen ≠ 0 then s.after 16 .stealRequest a
  else
    let back := 180 * ringDist d v
    let fits (i : Item) : Bool := i.team.isNone && !i.isCohort && !i.first &&
      !(((s.launch? i.launch).map fun l => l.lrec.cohort).getD true) &&
      decide ((s.needs i).1 ≤ n (3 + 2 * s.itemPart i)) && decide ((s.needs i).2 ≤ n (4 + 2 * s.itemPart i))
    match if k.state = .run then (k.sorted s.now).find? fits else none with
    | none => s.after back .stealAnswer [d, v, n 2]
    | some i =>
      let mine (j : Item) : Bool := j.launch == i.launch && fits j
      let all := k.items.filter mine
      let total := teamsFrom all 0
      let cut := cutAt all ((total + 1) / 2)
      let keep := k.items.flatMap fun j => if mine j then (if (j.split cut).1.count = 0 then [] else [(j.split cut).1]) else [j]
      let given := (all.map fun j => (j.split cut).2).filter fun j => j.count != 0
      let s := s.modDie v fun k => { k with items := keep, emptySince := if keep.isEmpty then s.now else k.emptySince }
      s.after back .stealAnswer ([d, v, n 2] ++ given.flatMap Item.code)

/-- The items of an answer. -/
def itemsOf : Nat → List Nat → List Item
  | 0, _ => []
  | _, [] => []
  | f + 1, l => Item.ofCode (l.take 10) :: itemsOf f (l.drop 10)

/-- STEAL_ANSWER: what was handed over joins the thief's list; with nothing, it asks the next die, or rests (R348). -/
def State.stealAnswer (s : State) (a : List Nat) : State :=
  let n (i : Nat) : Nat := a.getD i 0
  let d := n 0
  let given := itemsOf a.length (a.drop 3)
  if !given.isEmpty then given.foldl (fun s i => State.enterItem s d i) (s.modDie d fun k => { k with stealing := none })
  else if !(s.die d).items.isEmpty || (s.die d).state ≠ .run then s.modDie d fun k => { k with stealing := none }
  else if n 2 < 2 then s.stealAsk d (n 2 + 1)
  else s.modDie d fun k => { k with stealing := none, stealAt := s.now + 1024 }

/-! Spawn bins and task waves (R186, R349). -/

/-- Emits a bin's task wave: it enters the pending list 8 cycles later. -/
def State.emitBin (s : State) (d b : Nat) : State :=
  match Map.find? (s.die d).bins b with
  | none => s
  | some bin =>
    let s := s.modDie d fun k => { k with bins := Map.erase k.bins b }
    match s.launch? bin.launch with
    | none => s
    | some l =>
      let (id, s) := s.fresh
      let t := { newTeam bin.launch l.lrec 0xFFFFFFFF#32 d with task := true, waves := 1, entry := bin.entry, threads := bin.threads }
      ((s.setTeam id t).modLaunch bin.launch fun l => { l with tasks := l.tasks + 1 }).after 8 .taskWavePending [d, id]

/-- A bin key. -/
def Die.binOf (k : Die) (l : Nat) (entry : Dword) : Option Nat := k.bins.findSome? fun (i, b) => if b.launch = l ∧ b.entry = entry then some i else none

/-- A bin for a new key: a free one; when all 64 are taken, the one whose first thread is oldest is emitted. -/
def State.freeBin (s : State) (d : Nat) : State :=
  let k := s.die d
  if k.bins.length < 64 then s
  else match leastBy (fun a b => decide (a.2.stamp < b.2.stamp) || (a.2.stamp == b.2.stamp && decide (a.1 < b.1))) k.bins with
    | some (b, _) => s.emitBin d b
    | none => s

/-- A thread enters its bin, which emits its task wave once it is full: the bin, and the state. -/
def State.binThread (s : State) (d : Nat) (t : Thread) : Nat × State :=
  let (b, s) : Nat × State := match (s.die d).binOf t.launch t.entry with
    | some b => (b, s)
    | none =>
      let s := s.freeBin d
      let b := (s.die d).nextBin
      (b, (s.modDie d fun k => { k with nextBin := b + 1, bins := Map.put k.bins b { launch := t.launch, entry := t.entry, threads := [], stamp := s.now } }).after 2048 .binTimeout [d, b])
  let s := s.modDie d fun k => { k with bins := k.bins.map fun ((i, x) : Nat × Bin) => (i, if i = b then { x with threads := x.threads ++ [t.words] } else x) }
  let n : Nat := ((Map.find? (s.die d).bins b).map fun x => x.threads.length).getD 0
  (b, if 32 ≤ n then s.emitBin d b else s)

/-- SPAWN_BIN_ARRIVAL: the threads of one ct.spawn reach the bins of their die, in lane order; then each bin that has received one with FLUSH
emits its task wave (R186, R349). -/
def State.spawnArrival (s : State) (d id : Nat) : State :=
  let ts := Map.get [] (s.die d).threads id
  let (flush, s) := ts.foldl (fun ((f, s) : List Nat × State) t =>
    let (b, s) := s.binThread d t
    (if t.flush && !f.contains b then f ++ [b] else f, s)) ([], s.modDie d fun k => { k with threads := Map.erase k.threads id })
  flush.foldl (fun s b => State.emitBin s d b) s

/-- TASK_WAVE_PENDING: a task wave enters its die's pending list. -/
def State.taskPending (s : State) (d id : Nat) : State :=
  match s.team? id with
  | none => s
  | some t =>
    s.enterItem d { launch := t.launch, prio := s.teamPrio t, next := 0, step := 0, count := 1, team := some id, task := true, since := 0, first := false, ready := 0 }

/-! Completion (R342, R343). -/

/-- Whether a launch is complete. -/
def State.launchDone (s : State) (id : Nat) (l : Launch) : Bool :=
  l.left == 0 && l.tasks == 0 && !l.posting && l.reports.isEmpty &&
    !(s.dies.any fun (_, d) => (d.bins.any fun (_, b) => b.launch == id) || d.threads.any fun (_, ts) => ts.any fun t => t.launch == id) &&
    !(s.cmds.any fun (_, c) => c.launch == id && !c.done) && !(s.teams.any fun (_, t) => t.launch == id && t.state != .moving)

/-- The eight words of a completion record. -/
def Launch.record (l : Launch) (end_ : Dword) : List Word :=
  let st := l.started.getD end_
  [l.lrec.utag, BitVec.ofNat 32 (l.status + 2 ^ 8 * min l.killed (2 ^ 24 - 1)), lowWord st, highWord st, lowWord end_, highWord end_,
   BitVec.ofNat 32 l.moved, 1]

/-- Sends a launch's completion record to its queue. -/
def State.postRecord (s : State) (id : Nat) : State :=
  match s.launch? id with
  | none => s
  | some l =>
    s.sendQueue l.die { QuOp.blank with
      kind := .device, handle := l.lrec.complq, part := l.part, count := 1, forms := [l.record (l.finished.getD 0)], launch := some id } 0

/-- LAUNCH_COMPLETE: a launch is complete, and its record goes to COMPLQ, where it names one (R342). -/
def State.launchComplete (s : State) (id : Nat) : State :=
  match s.launch? id with
  | none => s
  | some l =>
    let end_ := if l.status = 0 then s.time else l.started.getD s.time
    let s := s.modLaunch id fun l => { l with finished := some end_, posting := true, done := true }
    if l.lrec.complq = 0 then { s with launches := Map.erase s.launches id }
    else if (s.die l.die).failed then ({ s with launches := Map.erase s.launches id } : State).lostCompletion l.part
    else s.postRecord id

/-! Partition resizing (R354). -/

/-- Changes the resize of a clover. (DEDUCED, log 70) -/
def State.resizeStage (s : State) (c stage : Nat) : State :=
  { s with resizes := s.resizes.map fun (r : Resize) => if r.clover = c then { r with stage := stage } else r }

/-- A distributor is frozen for a check of either partition. -/
def State.anyFrozen (s : State) : Bool := (List.range 4).any fun d => (s.die d).frozen != 0

/-- Whether no team of anyone holds a slot or scratchpad on a clover. -/
def State.cloverEmpty (s : State) (c : Nat) : Bool :=
  (List.range 4).all fun i => (s.coreWaves (4 * c + i)).isEmpty && (s.core (4 * c + i)).alloc.isEmpty

/-- Clears a clover (R354 step 4): the L1s, the instruction caches, the accumulators and the reservation table; its scratchpads hold no
team any more. -/
def State.clearClover (s : State) (c : Nat) : State :=
  let s := (List.range 4).foldl (fun s i => State.modCore s (4 * c + i) fun k => { k with l1 := [], ic := [] }) s
  s.modClover c fun k => { k with acc := [], live := [], table := [], waiting := [] }

/-- Clovers that a write of CLVHI:CLVLO gives a partition: one that another partition held last is cleared before the partition may place on it (R354,
R415). -/
def State.giveClovers (s : State) (p : Nat) (new : BitVec 96) : State :=
  let s := s.modPart p fun x => { x with clovers := new }
  (List.range 96).foldl (fun s c =>
    if !new.getLsbD c then s
    else
      let other := (State.clover s c).owner.any (· != p)
      let s := s.modClover c fun k => { k with owner := some p }
      if other then
        let r : Resize := { source := p, target := p, clover := c, stage := 3 }
        (State.clearClover { s with resizes := State.resizes s ++ [r] } c).after 3072 .resize [p, c, p, 5]
      else s) s

/-- RESIZE by stage: 0 the request (R411), 2 the clover is empty, 3 the frame boundary, 4 it is cleared, and changes hands, 5 it is cleared for its new
owner. A step waits while a distributor is frozen. -/
def State.resize (s : State) (p c target stage : Nat) : State :=
  let again : State := s.after 16 .resize [p, c, target, stage]
  match stage with
  | 0 =>
    if (s.part p).resize = 1 || !(s.part p).clovers.getLsbD c then s.modPart p fun k => { k with resize := 2 }
    else if s.anyFrozen then (s.modPart p fun k => { k with resize := 1 }).after 16 .resize [p, c, target, 1]
    else (s.modPart p fun k => { k with resize := 1 }).after 0 .resize [p, c, target, 1]
  | 1 =>
    if s.anyFrozen then again else
    let r : Resize := { source := p, target := target, clover := c, stage := 1 }
    let s : State := { s with resizes := s.resizes ++ [r] }
    let here := s.teams.filter fun (_, t) => t.state == .resident && t.core / 4 == c
    here.foldl (fun s (id, _) => (State.together s id).foldl State.requestYield s) s
  | 2 =>
    if s.anyFrozen then again else
    let t := ((List.range 64).map fun i => let l := 72 * (c / 24) + i; if (s.link l).up then (s.link l).boundaryAt (s.now + 1) else s.now).foldl max s.now
    (s.resizeStage c 2).at_ t .resize [p, c, target, 3]
  | 3 => if s.anyFrozen then again else ((s.resizeStage c 3).clearClover c).after 3072 .resize [p, c, target, 4]
  | 4 =>
    if s.anyFrozen then again else
    let bit : BitVec 96 := BitVec.ofNat 96 (2 ^ c)
    let s := s.modClover c fun k => { k with bstore := [], owner := some target }
    let s := (s.modPart p fun k => { k with clovers := k.clovers &&& ~~~bit, resize := 0 }).modPart target fun k => { k with clovers := k.clovers ||| bit }
    { s with resizes := s.resizes.filter fun r => r.clover != c }
  | _ =>
    let s := s.modClover c fun k => { k with bstore := [] }
    { s with resizes := s.resizes.filter fun r => r.clover != c }

/-- A resize whose clover has been emptied. -/
def State.resizeDue (s : State) : Option Resize := s.resizes.find? fun r => r.stage == 1 && s.cloverEmpty r.clover

/-- LQDOOR: partition, address, die (R338). -/
def execLqdoor (s : State) : Host.Outcome State Fault Refusal := .next (s.lqdoor (s.arg 0) (BitVec.ofNat 64 (s.arg 1)) (s.arg 2))
/-- LAUNCH_ACCEPT: partition, stage (R339). -/
def execLaunchAccept (s : State) : Host.Outcome State Fault Refusal := .next (s.launchAccept s.ev)
/-- LAUNCH_DISTRIBUTION: die, launch, kind, and the cycle of the first line of the areas (R339, R344). -/
def execLaunchDistribution (s : State) : Host.Outcome State Fault Refusal := .next (s.distribute (s.arg 0) (s.arg 1) (s.arg 2) (s.arg 3))
/-- STEAL_REQUEST: thief, victim, its place in the round, room by partition; or the thief alone, when it begins a round (R347). -/
def execStealRequest (s : State) : Host.Outcome State Fault Refusal :=
  .next (if s.ev.length = 1 then s.stealAsk (s.arg 0) 0 else s.stealRequest s.ev)
/-- STEAL_ANSWER: thief, victim, its place in the round, items (R348). -/
def execStealAnswer (s : State) : Host.Outcome State Fault Refusal := .next (s.stealAnswer s.ev)
/-- SPAWN_BIN_ARRIVAL: die, threads (R349). -/
def execSpawnBinArrival (s : State) : Host.Outcome State Fault Refusal := .next (s.spawnArrival (s.arg 0) (s.arg 1))
/-- BIN_TIMEOUT: die, bin (R349). -/
def execBinTimeout (s : State) : Host.Outcome State Fault Refusal := .next (s.emitBin (s.arg 0) (s.arg 1))
/-- TASK_WAVE_PENDING: die, team (R349). -/
def execTaskWavePending (s : State) : Host.Outcome State Fault Refusal := .next (s.taskPending (s.arg 0) (s.arg 1))
/-- LAUNCH_COMPLETE: launch (R342). -/
def execLaunchComplete (s : State) : Host.Outcome State Fault Refusal := .next (s.launchComplete (s.arg 0))
/-- COMPLETION_RETRY: launch (R343). -/
def execCompletionRetry (s : State) : Host.Outcome State Fault Refusal := .next (s.postRecord (s.arg 0))
/-- RESIZE: partition, clover, target, stage (R354). -/
def execResize (s : State) : Host.Outcome State Fault Refusal := .next (s.resize (s.arg 0) (s.arg 1) (s.arg 2) (s.arg 3))

end Sys2Proof.Machine
end

