-- ==== Sys2Proof/Machine/Area.lean ====
section
/-! DEFINITION. The image of a team in its context area (R26, R366, R367). Fields whose offset the spec does not give stand in the order in which
it lists them, without gaps. -/
namespace Sys2Proof.Machine

/-- The listed bytes that are not zero, from an offset on. -/
def cellsAt (off : Nat) (b : List (BitVec 8)) : List Host.Cell := b.zipIdx.filterMap fun (v, k) => if v = 0 then none else some (off + k, v)

/-- Bytes of a context area without its scratchpad region, and offset of a wave's context (R366). -/
def areaBytes (waves : Nat) : Nat := 0x2400 + waves * 0x11000
def waveOffset (w : Nat) : Nat := 0x2400 + w * 0x11000

def wordBytes (w : Word) : List (BitVec 8) := toBytes 4 w.toNat
def dwordBytes (d : Dword) : List (BitVec 8) := toBytes 8 d.toNat

/-- A sequencer record (R26). -/
def Seq.bytes (g : Seq) : List (BitVec 8) :=
  let ctl := (if g.parked.isSome then 2 else 1) + g.loops.length * 4 + (g.parked.getD 0) * 32
  dwordBytes g.pc ++ wordBytes g.mask ++ toBytes 4 ctl ++
    g.loops.flatMap fun v => dwordBytes v.start ++ dwordBytes v.fin ++ wordBytes v.count ++ wordBytes v.index

/-- A FIFO entry: values, mask, state (1 unfilled, 2 filled), and the addresses of an unfilled one. -/
def FifoEntry.cells (e : FifoEntry) (off : Nat) (addr : Map Dword) : List Host.Cell :=
  cellsAt off ((List.range 32).flatMap fun l => wordBytes (Map.get 0 e.vals l)) ++
  cellsAt (off + 128) (wordBytes e.mask ++ toBytes 4 (if e.filled then 2 else 1)) ++
  (if e.filled then [] else cellsAt (off + 160) ((List.range 32).flatMap fun l => dwordBytes (Map.get 0 addr l)))

/-- A head latch: handle, mode, bound bit and position. -/
def Head.bytes (h : Head) : List (BitVec 8) :=
  dwordBytes h.handle ++ toBytes 2 (if h.spread then 1 else 0) ++ toBytes 2 (if h.bound then 1 else 0) ++ wordBytes h.pos

/-- The vectors `v` to `v + n - 1` of a context. -/
def Ctx.vectors (c : Ctx) (off v n : Nat) : List Host.Cell :=
  cellsAt off ((List.range (32 * n)).flatMap fun k => wordBytes (Map.get 0 c.vec (32 * v + k)))

/-- Guard bits by lane: bit k of byte l is guard k of lane l. -/
def guardBytes (g : Nat → Mask) : List (BitVec 8) :=
  (List.range 32).map fun l => BitVec.ofNat 8 (((List.range 8).map fun k => if (g k).getLsbD l then 2 ^ k else 0).foldl (· + ·) 0)

/-- A join table: entry t at 16t. -/
def joinCells (off : Nat) (js : Map Join) : List Host.Cell :=
  js.flatMap fun (t, j) => cellsAt (off + 16 * t) (toBytes 4 1 ++ wordBytes j.expect ++ wordBytes j.arrived)

/-- Sequencer and spill records (R26). -/
def fragCells (off : Nat) (seqs spill : Map Seq) : List Host.Cell :=
  (seqs.flatMap fun (i, g) => cellsAt (off + 160 * i) g.bytes) ++ spill.flatMap fun (i, g) => cellsAt (off + 160 * (8 + i)) g.bytes

/-- The saved trap area behind TINFO: record and join table, R361's snapshot, the capture block, the undo log and its tags. (DESIGN CHOICE, log 62) -/
def TrapArea.cells (t : TrapArea) (off : Nat) : List Host.Cell :=
  let c := t.saved
  cellsAt off ((Map.find? c.seqs t.seq).map Seq.bytes |>.getD []) ++ joinCells (off + 160) c.join ++
  cellsAt (off + 416) (guardBytes (fun k => Map.get 0 c.guards k) ++ ((List.range 16).flatMap fun k => dwordBytes (c.baseReg k)) ++ wordBytes c.wstat ++ wordBytes c.pol ++
    ((List.range 4).flatMap fun k => (c.head k).bytes) ++ wordBytes c.etag) ++
  (match t.cap with
    | some p =>
      cellsAt (off + 652) ((List.range (32 * 7)).flatMap fun k => dwordBytes (Map.get 0 p.src k)) ++
      cellsAt (off + 2444) (((List.range 7).flatMap fun k => wordBytes (Map.get 0 p.en k)) ++ toBytes 4 p.header ++ wordBytes p.mask)
    | none => []) ++
  (t.logged.zipIdx.flatMap fun (v, i) =>
    cellsAt (off + 2480 + 128 * i) ((List.range 32).flatMap fun l => wordBytes (Map.get 0 c.vec (32 * v + l))) ++ cellsAt (off + 6576 + 4 * i) (toBytes 4 (v + 1)))

/-- The region snapshot (R370). (DESIGN CHOICE, log 62) -/
def Region.cells (r : Region) (off : Nat) : List Host.Cell :=
  fragCells off r.seqs r.spill ++ joinCells (off + 5120) r.join ++
  cellsAt (off + 5376) (guardBytes (fun k => Map.get 0 r.guards k) ++ ((List.range 16).flatMap fun k => dwordBytes (Map.get 0 r.base k)) ++
    toBytes 4 (if r.rm then 1 else 0) ++ wordBytes r.pol)

/-- A wave context (R367). (DESIGN CHOICE, log 62) -/
def Wave.image (x : Wave) (off : Nat) : List Host.Cell :=
  let c := x.ctx
  cellsAt off (wordBytes c.wstat ++ wordBytes c.vac ++ wordBytes c.etag ++ toBytes 1 c.ldc ++ toBytes 1 c.stc ++ toBytes 1 c.cpc ++ toBytes 1 c.tlc
    ++ wordBytes c.pol ++ ((List.range 16).flatMap fun k => dwordBytes (c.baseReg k)) ++ (List.range 4).flatMap fun k => (c.head k).bytes) ++
  c.vectors (off + 0x100) 0 192 ++ c.vectors (off + 0x6100) 192 8 ++
  cellsAt (off + 0x6500) (guardBytes fun k => if k = 0 then BitVec.allOnes 32 else Map.get 0 c.guards k) ++
  c.vectors (off + 0x6580) 200 46 ++ c.vectors (off + 0x7C80) 246 39 ++
  cellsAt (off + 0x9000) ((List.range 39).flatMap fun p => wordBytes (~~~(Map.get 0 c.busy (246 + p)))) ++
  (c.lsFifo.zipIdx.flatMap fun (e, k) => e.cells (off + 0x9100 + 416 * k) (((Map.find? x.accs e.id).map (·.addr)).getD [])) ++
  (c.spFifo.zipIdx.flatMap fun (e, k) => e.cells (off + 0xAB00 + 416 * k) []) ++
  fragCells (off + 0xB800) c.seqs c.spill ++ joinCells (off + 0xCC00) c.join ++
  cellsAt (off + 0xCD00) (wordBytes x.tstate ++ wordBytes x.tmask ++ dwordBytes x.tpc ++ dwordBytes x.tinfo) ++
  (match x.trap with | some t => t.cells (off + 0xCD18) | none => []) ++ (match x.region with | some r => r.cells (off + 0xED00) | none => [])

/-- The team header (R366). -/
def Team.header (t : Team) (l : Launch) (stopped : Bool) : List Host.Cell :=
  let inArea := !stopped && (!l.lrec.backed || t.task) && t.scratch != 0
  cellsAt 0 (toBytes 4 (if stopped then 2 else 1) ++ toBytes 4 t.waves ++ toBytes 4 t.scratch ++
    toBytes 4 ((if l.lrec.cohort then 1 else 0) + (if l.lrec.backed then 2 else 0) + (if inArea then 4 else 0)) ++
    dwordBytes l.addr ++ wordBytes t.number ++ toBytes 4 t.owner ++
    ((List.range 16).flatMap fun w => (List.range 4).flatMap fun k => wordBytes (Map.get 0 t.arr (4 * w + k))) ++
    ((List.range 4).flatMap fun k => wordBytes (Map.get 0 t.ph k)) ++ ((List.range 4).flatMap fun k => toBytes 8 (Map.get 0 t.timer k)) ++
    (List.range 16).flatMap fun w => toBytes 2 (Map.get 0 t.abn w).toNat)

/-- Where a context area of `n` bytes can be taken from a partition's pool: its address and offset. The pool must have room, and the area
must be writable (R352, R471). (DEDUCED, log 61) -/
def State.findArea (s : State) (p die n : Nat) : Option (Dword × Nat) :=
  let k := s.part p
  let starts := sortNat (0 :: k.areas.map fun (a, m) => a + m)
  match starts.find? fun c => decide (c + n ≤ k.ctxlen.toNat) && k.areas.all fun (a, m) => decide (a + m ≤ c ∨ c + n ≤ a) with
  | none => none
  | some c =>
    let a := k.ctxbase + BitVec.ofNat 64 c
    if s.devOk die p a.toNat n true then some (a, c) else none

/-- Takes a context area for a team. -/
def State.takeFreeArea (s : State) (id : Nat) (t : Team) (l : Launch) : Option (Dword × State) :=
  let n := areaBytes t.waves + (if l.lrec.backed && !t.task then 0 else t.scratch)
  (s.findArea l.part (t.core / 96) n).map fun (a, c) =>
    (a, (s.modPart l.part fun k => { k with areas := k.areas ++ [(c, n)] }).modTeam id fun t => { t with area := some a })

/-- Writes cells of a context area, given by offset, as a write by a die. -/
def State.writeArea (s : State) (die part : Nat) (a : Dword) (off n : Nat) (cells : List Host.Cell) : State :=
  s.scatter die ((s.stretches die part (a.toNat + off) n).map fun (pa, o, m) => (pa, o + off, m)) cells

/-- The diagnostic of a barrier that timed out: the fragments that hold lanes which have not arrived (R377). -/
def State.diagnostic (s : State) (t : Team) (k : Nat) : List Host.Cell :=
  let entry (i seq : Nat) (g : Seq) (late : Mask) : List (BitVec 8) :=
    dwordBytes g.pc ++ wordBytes late ++ toBytes 1 i ++ toBytes 1 seq ++ toBytes 1 (if g.parked.isSome then 2 else 1) ++ toBytes 1 k
  let es := t.slots.flatMap fun (i, w) =>
    let c := (s.wave w).ctx
    let late (g : Seq) : Mask := g.mask &&& ~~~c.vac &&& ~~~(Map.get 0 t.arr (4 * i + k))
    let frags : List (Nat × Seq) := c.seqs ++ c.spill.map fun ((q, g) : Nat × Seq) => (8 + q, g)
    frags.filterMap fun (q, g) => if late g = 0 then none else some (entry i q g (late g))
  let es := es.take 511
  cellsAt 0x400 (toBytes 4 es.length ++ es.flatten)

end Sys2Proof.Machine
end

