-- ==== Sys2Proof/Machine/Swap.lean ====
section
/-! DEFINITION. The swap of a team: when it has stopped, its steps, wait-swap, and the lazy write-back of its scratchpad (R317, R350 to R353,
R369). -/
namespace Sys2Proof.Machine

/-! When a team has stopped (R369). -/

/-- Whether a fragment counts as stopped: one in a counted wait does, but for a stall on a lane unit of the core (R369, R429). -/
def State.fragStopped (s : State) (x : Wave) (w q : Nat) (g : Seq) : Bool :=
  g.parked.isSome || g.kept || (!g.go && ((decide (s.fragReady w q = .counted) && !s.unitStall x w g) || s.stoppedAtSafe x w g))

/-- Whether every fragment of a wave has stopped. A wave that waits for its manager is not swapped (R358, R364). -/
def State.waveStopped (s : State) (w : Nat) : Bool :=
  match s.wave? w with
  | none => true
  | some x =>
    match x.stop with
    | .running => decide (x.rollTill ≤ s.now) && x.ctx.seqs.all fun (q, g) => s.fragStopped x w q g
    | .swapping => decide (x.rollTill ≤ s.now)
    | .killed => true
    | _ => false

/-- Whether a swap begins: a request whose team has yielded or whose deadline has passed, and every fragment stopped (R369); not while the team
holds a baton (R237). -/
def State.swapDue (s : State) (t : Team) : Bool :=
  t.state == .resident && t.deadline.isSome && decide (t.tested ≠ s.now + 1) && !t.slots.isEmpty && !(t.slots.any fun (_, w) => s.holdsBaton w) &&
    (t.past || t.slots.any fun (_, w) => decide ((s.wave w).stop = .swapping)) && t.slots.all fun (_, w) => s.waveStopped w

/-! The steps of R352. -/

/-- A wave stops for its team's swap: its window rolls back, its request for the baton and its armed injections go, YREQ clears
(R237, R275, R292, R369). -/
def State.stopWave (s : State) (w : Nat) : State :=
  let s := s.rollback w 3
  let k := s.clover (cloverOf w)
  let req := (k.table ++ k.waiting).find? fun r => r.wave == w
  let s := s.withdraw w
  s.modWave w fun x =>
    { x.mapCtx (·.setWstat 7 7 0) with
      stop := (if x.stop = .running then .swapping else x.stop), inject := []
      mxReq := match req with | some r => some (r.op, r.lanes, r.prio) | none => x.mxReq }

/-- A fragment that had stopped for a swap goes on. -/
def Seq.goOn (g : Seq) : Seq := { g with go := true }

/-- No area is free: the team goes on, and its request stays in force (R352). -/
def State.swapFails (s : State) (id : Nat) (t : Team) : State :=
  let s := t.slots.foldl (fun s (_, w) => State.modWave s w fun x =>
    if x.stop = .swapping ∨ x.stop = .running then
      { x with stop := .running, ctx := { x.ctx with seqs := x.ctx.seqs.map fun (i, g) => (i, g.goOn), spill := x.ctx.spill.map fun (i, g) => (i, g.goOn) } }
    else x) s
  s.modTeam id fun t => { t with tested := s.now + 1 }

/-- A swap begins, where an area is free (R352, R369). (DEDUCED, log 58) -/
def State.swapStart (s : State) (id : Nat) : State :=
  match s.team? id with
  | none => s
  | some t => match s.launch? t.launch with
    | none => s
    | some l => match s.takeFreeArea id t l with
      | none => s.swapFails id t
      | some (_, s) =>
        let s := s.modTeam id fun t => { t with state := .swapping, stage := 0, deadline := none, past := false }
        t.slots.foldl (fun s (_, w) => State.stopWave s w) s

/-- Whether a wave's operations have drained, but for loads that have not bound their value (R35, R352). -/
def State.waveDrained (s : State) (w : Nat) : Bool :=
  match s.wave? w with
  | none => true
  | some x =>
    let mine (op : Nat) : Bool := match x.mxReq with | some (k, _, _) => k == op | none => false
    decide (x.rollTill ≤ s.now) && x.quOut.isEmpty && (x.pend.all fun (k, _) => mine k) &&
      (x.accs.all fun (_, a) => a.isLoad && !a.sp) &&
      !(s.qops.any fun (_, o) => o.wave == some w) && !(s.cmds.any fun (_, c) => c.alive && c.wave == w && !c.done) &&
      !((s.clover (cloverOf w)).ops.any fun (_, o) => o.wave == some w)

/-- A team whose swap has drained. -/
def State.drained (s : State) (t : Team) : Bool := t.state == .swapping && t.stage == 0 && t.slots.all fun (_, w) => s.waveDrained w

/-- The head latches drop their records (R231). -/
def Ctx.dropRecords (c : Ctx) : Ctx := { c with heads := c.heads.map fun (i, h) => (i, { h with recs := [] }) }

/-- The context is saved: loads that have not bound are recorded, and their answers will find nothing (R352 steps 5 and 6). It is written from the
cycle on in which the pages of its area are at hand (R472). -/
def State.saveContext (s : State) (id : Nat) : State :=
  match s.team? id with
  | none => s
  | some t =>
    let saved := t.slots.map fun (i, w) => (i, (s.wave w).mapCtx Ctx.dropRecords)
    let s := t.slots.foldl (fun s (_, w) => State.modWave s w fun x => { x with accs := [] }) s
    let s := s.setTeam id { t with saved := saved, stage := 1 }
    match s.launch? t.launch, t.area with
    | some l, some a =>
      (match s.devTask (t.core / 96) [(l.part, a.toNat, areaBytes t.waves + (if l.lrec.backed && !t.task then 0 else t.scratch), 0)] .teamSwap [id, 4] with
       | (true, s) => s.after (72 + 544 * t.waves) .teamSwap [id, 2]
       | (false, s) => s)
    | _, _ => s.after (72 + 544 * t.waves) .teamSwap [id, 2]

/-- Barrier timers stop while a team is away (R192). -/
def Team.stopTimers (t : Team) (now : Nat) : Team :=
  { t with timer := t.timing.foldl (fun m (k, from_) => Map.put m k (Map.get 0 m k + (now - from_))) t.timer, timing := [] }

/-- Sends a swapped team to the distributor of its owner's die, which sends it on where it has no core for it (R344, R353). -/
def State.sendAway (s : State) (id : Nat) (t : Team) (l : Launch) : State :=
  let i : Item := { launch := t.launch, prio := l.lrec.prio, next := 0, step := 0, count := 1, team := some id, task := false, since := 0, first := false,
                    ready := 0, swap := s.now }
  s.after (180 * ringDist (t.core / 96) t.owner) .teamTransfer (t.owner :: i.code)

/-- Step 8: the wave slots are freed, and the team is away; a pre-emption of its die that it was the victim of is over (R350). -/
def State.leaveCore (s : State) (id : Nat) : State :=
  match s.team? id with
  | none => s
  | some t => match s.launch? t.launch with
    | none => s
    | some l =>
      let lazy_ := l.lrec.backed && !t.task && t.scratch != 0
      let s := t.slots.foldl (fun s (i, w) =>
        let s := State.dropWave s w
        { s with
          cmds := s.cmds.map fun ((k, c) : Nat × Cmd) => (k, if c.wave = w then { c with alive := false } else c)
          qops := s.qops.map fun ((k, o) : Nat × QuOp) => (k, { o with cmd := o.cmd.map fun (v, g) => (if v = w then awaySlot id i else v, g) })
          bound := s.bound.map fun (p, q, v, k) => (p, q, if v = w then awaySlot id i else v, k) }) s
      let s := s.modCore t.core fun k => { k with
        swaps := k.swaps + 1, alloc := if lazy_ then k.alloc else k.alloc.filter fun a => a != (t.granule, t.scratch / 128) }
      let live := t.saved.filter fun (i, _) => t.slots.any fun (j, _) => j == i
      let t := { t.stopTimers s.now with state := .swapped, slots := [], saved := live, spec := [], stage := if lazy_ then 3 else 0,
                                         window := if lazy_ then t.window else [] }
      let s := (s.setTeam id t).modDie (t.core / 96) fun k => if k.preempting = some id then { k with preempting := none } else k
      let s := if lazy_ then s.after 1 .scratchpadWriteBack [id, 0] else s
      s.sendAway id t l

/-- The context is written, once its lines may be (R282, R366, R367). An unbacked scratchpad follows it into the area, one line per cycle (R317). -/
def State.contextWritten (s : State) (id : Nat) : State :=
  match s.team? id with
  | none => s
  | some t => match s.launch? t.launch, t.area with
    | some l, some a =>
      let d := t.core / 96
      match s.devReady d l.part a.toNat (areaBytes t.waves) with
      | (c + 1, s) => s.after (c + 1) .teamSwap [id, 2]
      | (0, s) =>
        let h := (t.stopTimers s.now).header l false
        let cells := h ++ t.saved.flatMap fun (i, x) => x.image (waveOffset i)
        let s := s.writeArea d l.part a 0 (areaBytes t.waves) cells
        if (l.lrec.backed && !t.task) || t.scratch == 0 then s.leaveCore id
        else (s.modTeam id fun t => { t with stage := 2 }).after 1 .teamSwap [id, 3, 0]
    | _, _ => s

/-- The bytes of a line of a scratchpad. -/
def Team.lineCells (t : Team) (k : Nat) : List Host.Cell := t.bytes.filter fun (o, _) => decide (128 * k ≤ o ∧ o < 128 * k + 128)

/-- Line `k` of the scratchpad is copied into the area; the next follows in the next cycle, and after the last the team leaves (R317, R352). -/
def State.scratchCopied (s : State) (id k : Nat) : State :=
  match s.team? id with
  | none => s
  | some t => match s.launch? t.launch, t.area with
    | some l, some a =>
      let off := areaBytes t.waves
      match s.devReady (t.core / 96) l.part (a.toNat + off + 128 * k) 128 with
      | (c + 1, s) => s.after (c + 1) .teamSwap [id, 3, k]
      | (0, s) =>
        let s := s.writeArea (t.core / 96) l.part a (off + 128 * k) 128 ((t.lineCells k).map fun (o, b) => (o + off, b))
        if 128 * (k + 1) < t.scratch then s.after 1 .teamSwap [id, 3, k + 1] else s.leaveCore id
    | _, _ => s

/-- TEAM_SWAP by stage: 0 it begins, 1 its operations have drained, 2 its context is written, 3 a line of its scratchpad is copied; 4 the
writing of its context begins. -/
def State.teamSwap (s : State) (id stage line : Nat) : State :=
  match stage with
  | 0 => s.swapStart id
  | 1 => s.saveContext id
  | 2 => s.contextWritten id
  | 4 => match s.team? id with | some t => s.after (72 + 544 * t.waves) .teamSwap [id, 2] | none => s
  | _ => s.scratchCopied id line

/-- The stretch of memory behind line `k` of a scratchpad, where its window has one. -/
def Team.stretchOf (t : Team) (k : Nat) : List (Nat × Nat × Nat) :=
  (t.window.filter fun (_, o, n) => decide (o ≤ 128 * k ∧ 128 * k < o + n)).map fun (pa, o, _) => (pa + (128 * k - o), 128 * k, 128)

/-- SCRATCHPAD_WRITE_BACK: line `k` of a backed scratchpad is written to its frame, as soon as it may be. After the last the mapping goes, and
the space is free (R317). The line is written beneath the mapping, which serves accesses until then. (DEDUCED, log 63) -/
def State.scratchBack (s : State) (id k : Nat) : State :=
  match s.team? id with
  | none => s
  | some t =>
    let d := t.core / 96
    let w := t.stretchOf k
    let p := ((s.launch? t.launch).map (·.part)).getD 0
    let va := ((s.launch? t.launch).map fun l => l.lrec.window t.number.toNat).getD 0 + 128 * k
    let hb (pa : Nat) : Bool := isHostPa pa || (match s.devXlate d p va with | .page g => g.hb | _ => false)
    let (c, s) := w.foldl (fun ((c, s) : Nat × State) (pa, _) =>
      let (e, s) := s.frameReady d (pa / 128) (hb pa)
      (max c e, s)) (0, s)
    if s.devFlips d p va 128 then s.after 1 .scratchpadWriteBack [id, k]
    else if c ≠ 0 then s.after c .scratchpadWriteBack [id, k]
    else
      let s := s.scatter d w (t.lineCells k)
      if 128 * (k + 1) < t.scratch then s.after 1 .scratchpadWriteBack [id, k + 1]
      else
        let s := s.modCore t.core fun k => { k with alloc := k.alloc.filter fun a => a != (t.granule, t.scratch / 128) }
        if t.state = .moving then { s with teams := Map.erase s.teams id } else s.setTeam id { t with window := [], stage := 0 }

/-! The yield deadline (R369) and wait-swap (R351). -/

/-- YIELD_DEADLINE: from now on each fragment of the team stops at its next safe point. -/
def State.yieldDeadline (s : State) (id stamp : Nat) : State :=
  s.modTeam id fun t => if t.deadline = some stamp then { t with past := true } else t

/-- Some fragment of a team has been held in a counted wait for `n` cycles, this one among them. -/
def State.someCounted (s : State) (t : Team) (n : Nat) : Bool :=
  t.slots.any fun (_, w) => (s.wave w).ctx.seqs.any fun (q, g) => decide (s.fragReady w q = .counted) && decide (g.waiting.getD s.now + n ≤ s.now + 1)

/-- A wave is held in a way that restarts the count towards a wait-swap: at translation, at a bias flip, at the miss-slot cap, on a full store
buffer or undo log, or during a rollback (R351). -/
def State.heldOtherwise (s : State) (w : Nat) : Bool :=
  let x := s.wave w
  decide (s.now < x.rollTill) || x.ctx.seqs.any fun (q, _) => decide (s.fragReady w q = .restarts)

/-- Whether a cycle restarts a team's count towards a wait-swap. -/
def State.restartsCount (s : State) (t : Team) : Bool := t.state == .resident && t.slots.any fun (_, w) => s.heldOtherwise w

/-- Whether a team is wait-swapped now (R351). -/
def State.waitSwapDue (s : State) (t : Team) : Bool :=
  match s.launch? t.launch with
  | none => false
  | some l =>
    let d := t.core / 96
    t.state == .resident && (t.task || !l.lrec.cohort) && decide (t.lastIssue + 2 ^ l.lrec.waitswap ≤ s.now) && decide (t.tested ≠ s.now + 1) &&
      s.someCounted t (2 ^ l.lrec.waitswap) && !(t.slots.any fun (_, w) => s.holdsBaton w) && (t.slots.all fun (_, w) => (s.wave w).stop == .running || (s.wave w).stop == .swapping || (s.wave w).stop == .killed) &&
      (s.die d).items.any fun i => !i.isCohort && s.itemPart i == l.part && s.itemReady i && (s.canPlace d i).isNone && s.wouldFit i t

/-- WAIT_SWAP: the team stops before the bundles it waits on, and is swapped where an area is free (R351, R352). -/
def State.waitSwap (s : State) (id : Nat) : State :=
  match s.team? id with
  | none => s
  | some t => match s.launch? t.launch with
    | none => s
    | some l => match s.takeFreeArea id t l with
      | none => s.modTeam id fun t => { t with tested := s.now + 1 }
      | some _ => s.swapStart id

/-- A cohort that is away and not yet on its way back (R346). -/
def State.cohortDue (s : State) (id : Nat) (l : Launch) : Bool :=
  l.lrec.cohort && l.plan.isEmpty && l.reports.isEmpty && s.cohortAway id &&
    (s.teams.any fun (_, t) => t.launch == id && t.state == .swapped) &&
    !(s.agenda.any fun (_, i, a) => i == .launchAccept && a.getD 2 0 == id && decide (5 ≤ a.getD 1 0))

/-- TEAM_SWAP: team, stage, line (R352). -/
def execTeamSwap (s : State) : Host.Outcome State Fault Refusal := .next (s.teamSwap (s.arg 0) (s.arg 1) (s.arg 2))
/-- SCRATCHPAD_WRITE_BACK: team, line (R317). -/
def execScratchpadWriteBack (s : State) : Host.Outcome State Fault Refusal := .next (s.scratchBack (s.arg 0) (s.arg 1))
/-- YIELD_DEADLINE: team, its cycle (R369). -/
def execYieldDeadline (s : State) : Host.Outcome State Fault Refusal := .next (s.yieldDeadline (s.arg 0) (s.arg 1))
/-- WAIT_SWAP: team (R351). -/
def execWaitSwap (s : State) : Host.Outcome State Fault Refusal := .next (s.waitSwap (s.arg 0))

end Sys2Proof.Machine
end

