-- ==== Sys2Proof/Machine/Manager.lean ====
section
/-! DEFINITION. What reaches a clover's manager and what its firmware does to stopped work: messages, CMACK and CMACT, the watchdog and barrier
time-outs (R192, R237, R364, R365, R376, R377). The firmware's own writes are events of the environment. -/
namespace Sys2Proof.Machine

/-! Messages (R364). Slots 0 to 15 are the reserved ones, four to a core; 16 to 31 are shared. -/

/-- Waiting messages take slots, in order of origin. -/
def Clover.post (c : Clover) : Clover :=
  c.mailWait.foldl (fun (k : Clover) m => match k.freeSlot m.core with
    | some n => { k with mail := Map.put k.mail n m }
    | none => { k with mailWait := k.mailWait ++ [m] }) { c with mailWait := [] }

/-- MAILBOX_POST. -/
def State.mailboxPost (s : State) (c : Nat) : State := s.modClover c Clover.post

/-- The partition a clover belongs to. -/
def State.cloverPart (s : State) (c : Nat) : Option Nat := (List.range 16).find? fun p => (s.part p).clovers.getLsbD c

/-- The manager of a clover answers the FORWARD request in mailbox slot `slot`, if it names a reply queue: a full record with a reply code and
payload (R364). -/
def State.managerReply (s : State) (c slot code : Nat) (payload : List Nat) : State :=
  match Map.find? (s.clover c).mail slot, s.cloverPart c with
  | some m, some p =>
    let h : Dword := BitVec.ofNat 64 (ofBytes ((m.bytes.drop 8).take 8))
    if m.bytes.headD 0 ≠ 0 ∨ h = 0 then s
    else
      let r : List Word := [BitVec.ofNat 32 (mailNumber slot), BitVec.ofNat 32 code] ++ ((List.range 4).map fun k => BitVec.ofNat 32 (payload.getD k 0)) ++ [0, 1]
      s.sendQueue (c / 24) { QuOp.blank with kind := .device, handle := h, part := p, count := 1, forms := [r] } 0
  | _, _ => s

/-- CMACK: the firmware acknowledges a message, and its slot is free; it has answered a FORWARD request first where `reply` is not 0, with code
`reply - 1` and four words of payload. -/
def State.cmack (s : State) (c slot reply : Nat) (payload : List Nat) : State :=
  (if reply = 0 then s else s.managerReply c slot (reply - 1) payload).modClover c fun k => Clover.post { k with mail := Map.erase k.mail slot }

/-! The actions of CMACT (R365). -/

/-- CMACT holds what its manager wrote: the action, the slot and the core. -/
def State.writeCmact (s : State) (clover act core slot : Nat) : State :=
  s.modClover clover fun k => { k with cmact := BitVec.ofNat 64 (act + slot % 16 * 4 + core % 4 * 64) }

/-- The wave slot an action names. -/
def actSlot (clover core slot : Nat) : Nat := (4 * clover + core) * 16 + slot

/-- A wave that its manager may act on: it is not running. -/
def Wave.stopped (x : Wave) : Bool := match x.stop with | .trapfail => true | .timeout => true | .watchdog => true | _ => false

/-- A wave's fragments may issue again from now on. -/
def Wave.runs (x : Wave) (now : Nat) : Wave :=
  { x with stop := .running, ctx := { x.ctx with seqs := x.ctx.seqs.map fun (i, g) => (i, { g with since := now }) } }

/-- RESUME: a team stopped by a barrier's time-out goes on with that barrier's timer at 0; a wave stopped by WATCHDOG goes on without the baton; one
stopped by TRAPFAIL goes on at the re-entry that TSTATE names, its VALID cleared. -/
def State.resume (s : State) (w : Nat) : State :=
  match s.wave? w with
  | none => s
  | some x => match x.stop with
    | .timeout =>
      let s := (s.freeArea x.team).modTeam x.team fun t =>
        let k := t.timedOut.getD 0
        { t with timer := Map.erase t.timer k, timing := Map.erase t.timing k, timedOut := none }
      match s.team? x.team with
      | none => s
      | some t =>
        (t.slots.foldl (fun s (_, v) => State.modWave s v fun y => if y.stop = .timeout then y.runs (State.now s) else y) s).resumeTimers x.team
    | .watchdog => s.setWave w (x.runs s.now)
    | .trapfail => (s.setWave w (x.runs s.now)).trapReturn w ((x.trap.map (·.seq)).getD 0)
    | _ => s

/-- KILLWAVE (R376). -/
def State.killWave (s : State) (w : Nat) : State :=
  match s.wave? w with
  | some x => if x.stopped then s.kill w else s
  | none => s

/-- KILLTEAM: every wave of the stopped wave's team. -/
def State.killTeam (s : State) (w : Nat) : State :=
  match s.wave? w with
  | some x => if x.stopped then (match s.team? x.team with | some t => t.slots.foldl (fun s (_, v) => State.kill s v) s | none => s) else s
  | none => s

/-! The watchdog (R237, R358, R376). -/

/-- WATCHDOG: the pass that began at `from_` has lasted longer than MAXPASS: its manager is told, and the holder is killed, or stops; the baton is revoked
and the accumulators are zeroed. (DESIGN CHOICE, log 34) -/
def State.watchdog (s : State) (c from_ : Nat) : State :=
  match (s.clover c).baton with
  | some (w, _, g) =>
    if g ≠ from_ then s
    else
      let x := s.wave w
      let m := deviceMsg (coreOf w) 3 0x14 (s.ident w) (~~~x.ctx.vac) x.tpc (BitVec.ofNat 64 (s.now - g))
      let s := s.postMsg c m
      if Config.watchdogKills then s.kill w else (s.freeBaton c).modWave w fun x => { x with stop := .watchdog }
  | none => s

/-! Barrier time-outs (R192, R377). -/

/-- The diagnostic of a team that a barrier has stopped is written to its area, if it has one, as soon as its lines may be written; then the
manager is told (R282, R377). -/
def State.timeoutReport (s : State) (id k stamp : Nat) : State :=
  match s.team? id with
  | none => s
  | some t => match s.launch? t.launch with
    | none => s
    | some l =>
      let d := t.core / 96
      let n := areaBytes t.waves
      match (match t.area with | some a => s.devReady d l.part a.toNat n | none => (0, s)) with
      | (c + 1, s) => s.after (c + 1) .barrierTimeout [id, k, stamp, 1]
      | (0, s) =>
        let s := match t.area with
          | some a => s.writeArea d l.part a 0 n ((t.stopTimers s.now).header l true ++ s.diagnostic t k)
          | none => s
        match t.slots with
        | (_, w) :: _ =>
          let x := s.wave w
          s.postMsg (cloverOf w) (deviceMsg (coreOf w) 2 0x0D (s.ident w) x.tmask x.tpc (t.area.getD 0))
        | [] => s

/-- BARRIER_TIMEOUT: the team stops, its diagnostic is written where the pool has a free area, and the manager is told. (DEDUCED, log 71) -/
def State.barrierTimeout (s : State) (id k stamp stage : Nat) : State :=
  if stage = 1 then s.timeoutReport id k stamp else
  match s.team? id with
  | none => s
  | some t =>
    if t.state ≠ .resident || Map.find? t.timing k != some stamp then s
    else match s.launch? t.launch with
      | none => s
      | some l =>
        let s := s.setTeam id { t.stopTimers s.now with timedOut := some k }
        let s := t.slots.foldl (fun s (_, w) => State.modWave s w fun x => if x.stop = .running ∨ x.stop = .swapping then { x with stop := .timeout } else x) s
        ((s.takeFreeArea id t l).map (·.2) |>.getD s).timeoutReport id k stamp

/-- MAILBOX_POST: clover (R364). -/
def execMailboxPost (s : State) : Host.Outcome State Fault Refusal := .next (s.mailboxPost (s.arg 0))
/-- CMACK: clover, slot; one more than the code of a reply, or 0, and its payload (R364). -/
def execCmack (s : State) : Host.Outcome State Fault Refusal := .next (s.cmack (s.arg 0) (s.arg 1) (s.arg 2) (s.ev.drop 3))
/-- RESUME: clover, core, slot (R365). -/
def execResume (s : State) : Host.Outcome State Fault Refusal := .next ((s.writeCmact (s.arg 0) 1 (s.arg 1) (s.arg 2)).resume (actSlot (s.arg 0) (s.arg 1) (s.arg 2)))
/-- KILLWAVE: clover, core, slot (R365). -/
def execKillwave (s : State) : Host.Outcome State Fault Refusal := .next ((s.writeCmact (s.arg 0) 2 (s.arg 1) (s.arg 2)).killWave (actSlot (s.arg 0) (s.arg 1) (s.arg 2)))
/-- KILLTEAM: clover, core, slot (R365). -/
def execKillteam (s : State) : Host.Outcome State Fault Refusal := .next ((s.writeCmact (s.arg 0) 3 (s.arg 1) (s.arg 2)).killTeam (actSlot (s.arg 0) (s.arg 1) (s.arg 2)))
/-- WATCHDOG: clover, cycle of the grant (R237). -/
def execWatchdog (s : State) : Host.Outcome State Fault Refusal := .next (s.watchdog (s.arg 0) (s.arg 1))
/-- BARRIER_TIMEOUT: team, barrier, start of its running count; 1 while its report is to be written (R192). -/
def execBarrierTimeout (s : State) : Host.Outcome State Fault Refusal := .next (s.barrierTimeout (s.arg 0) (s.arg 1) (s.arg 2) (s.arg 3))

end Sys2Proof.Machine
end

