-- ==== Sys2Proof/Machine/Package.lean ====
section
/-! DEFINITION. The package: the cold start (R420, R421), the warm reset of a die (R416 to R419, R464, R465), the failure of a die (R378), supply
and temperature (R423, R424), and attestation (R421). What the outside does to it enters as events. -/
namespace Sys2Proof.Machine

/-! Dies and their states (R416). -/

/-- Tells the manager of a clover about a die: event 1 failed, 2 re-admitted (R364). -/
def State.dieMsg (s : State) (clover d event : Nat) : State :=
  s.postMsg clover (deviceMsg 0 6 0 0 0 0 (BitVec.ofNat 64 (d + event * 2 ^ 8)))

/-- A die changes state: the partitions that hold clovers of it are signalled (R413). -/
def State.setDieState (s : State) (d : Nat) (st : DieState) : State :=
  let s := s.modDie d fun k => { k with state := st }
  (List.range 16).foldl (fun s p => if (List.range 24).any fun i => (State.part s p).clovers.getLsbD (24 * d + i) then s.msixSignal (32 * p + 31) else s) s

/-- A message to the manager of local clover 0 of every other die that has not failed. -/
def State.tellSurvivors (s : State) (d : Nat) : State :=
  (List.range 4).foldl (fun s e => if e = d ∨ (State.die s e).failed = true then s else s.dieMsg (24 * e) d 1) s

/-- The commands of dctl and DIECTL (R273, R416, R422): OK, or DENIED with nothing done. `issuer` is the die that gave it, 4 for the host.
STATUS needs no state of the die. -/
def State.dieRefuses (s : State) (d cmd issuer : Nat) : Bool :=
  let need : DieState := match cmd with | 1 => .run | 2 => .offline | _ => .selftest
  d == 0 || d == issuer || (cmd != 0 && (s.die d).state != need) ||
    (cmd == 1 && (((List.range 4).any fun e => e != d && (s.die e).state != .run) || !s.featack.getLsbD 10))

/-- Writes back the queue contexts a die caches, as soon as their descriptors may be written (R206, R282, R417). -/
def State.flushDie (s : State) (d : Nat) : State :=
  match s.flushReady d none with
  | (0, s) => s.flushQ d none
  | (c + 1, s) => s.after (c + 1) .writeBack [d, 2]

/-- The pages whose bias is changing. -/
def State.flippingPages (s : State) : List Page := s.flips.filterMap fun f => match (s.walk f.part (f.page * 2 ^ 16)).out with
  | .page p => some p
  | _ => none

/-- The lines of a page. -/
def Page.hasLine (p : Page) (line : Nat) : Bool :=
  decide (p.pa / 128 ≤ line ∧ line < p.pa / 128 + (if p.big then 2 ^ 29 else 2 ^ 16) / 128)

/-- A die drops every line it holds, the dirty ones written back first. Those of a page that is changing its bias are flushed with it: each watch
on them becomes a conflict (R335, R417). -/
def State.dropHeld (s : State) (d : Nat) (ws : List Waiter) : State :=
  let pages := s.flippingPages
  (s.lines.filter fun (_, e) => e.holder == some d).foldl (fun s (l, e) =>
    let s := (State.l1Holders s l).foldl (fun s k =>
      let spec := ((Map.get [] (State.core s k).l1 (l1Set l)).find? (·.line == l)).map (·.spec)
      (s.modCore k (·.l1Drop l)).watchLine l ((spec.getD []).map (k * 16 + ·))) s
    let s := if pages.any (·.hasLine l) then
        ((s.watchers l none).foldl (fun s w => State.conflict s w) s).modLine l fun e => { e with watch := [] }
      else s
    let s := if e.dirty then s.writeBack d l ws else s
    (s.uncache d l).modLine l fun e => { e with holder := none, dirty := false }) s

/-- The lines that a die holds are lost: those it alone had modified are poisoned (R313). -/
def State.loseLines (s : State) (d : Nat) : State :=
  { s with lines := (s.lines.map fun (l, e) =>
    (l, if e.holder = some d then { e with holder := none, poison := e.poison || e.dirty, dirty := false } else e)).filter fun (_, e) => e != Line.reset }

/-- Step 1 (R417): every resident team is asked to leave, and every bin emits its task wave. -/
def State.quiesce (s : State) (d : Nat) : State :=
  let s := (s.setDieState d .quiescing).modDie d fun k => { k with phase := 1 }
  let here := s.teams.filter fun (_, t) => t.state == .resident && t.core / 96 == d
  let s := here.foldl (fun s (id, _) => (State.together s id).foldl State.requestYield s) s
  let s := (s.die d).bins.foldl (fun s (b, _) => State.emitBin s d b) s
  let s := s.modDie d fun k => { k with stealing := none }
  let s := { s with launches := s.launches.map fun ((k, l) : Nat × Launch) => (k, if l.die = d then { l with die := 0 } else l) }
  s.flushDie d

/-- Step 5 (R418): the die's cores, managers, mailboxes, caches and B-stores are cleared; its self-test ends 208,096 cycles on. A line whose
write-back it could not complete is poisoned (R313). -/
def State.resetDie (s : State) (d : Nat) : State :=
  let s := (s.setDieState d .resetting).loseLines d
  let s := { s with
    cores := s.cores.filter fun (k, _) => k / 96 != d
    clovers := s.clovers.filter fun (k, _) => k / 24 != d }
  (s.modDie d fun k => { k with tlb := [], cache := [], qctx := [], rr := 0, frozen := 0, preempting := none, stepAt := none, placeAt := none,
                                cycleBase := s.now + 4096 }).after 208096 .selftest [d]

/-- The links of a die begin a full retrain, and their tables hold only idle entries (R406). RTCNT counts that of a re-admission, not that of the
start-up (R395, R454). -/
def State.retrainLinks (s : State) (d : Nat) (again : Bool) : State :=
  (List.range 72).foldl (fun s i =>
    (State.modLink s (72 * d + i) fun k => { (k.setWidth (State.now s) 8) with
      state := .down, downSince := some (State.now s), table := [], want := none, heldWant := none, wakeTill := none, retrainTill := none,
      lctl := setField k.lctl 1 0 0, rtwl := 0, rtdir := 0, fecFrom := State.now s + 60000,
      fullCnt := if again then min 65535 (k.fullCnt + 1) else k.fullCnt }).after 60000 .fullRetrainEnd [72 * d + i]) s

/-- Step 6 begins (R419, R465): the FEAT check holds, since every die offers the same features; the links retrain. -/
def State.readmit (s : State) (d : Nat) : State := (s.retrainLinks d true).after 60001 .copyBack [d, 0]

/-- A die command takes effect. -/
def State.dieCmd (s : State) (d cmd issuer : Nat) : Word × State :=
  if s.dieRefuses d cmd issuer then (4, s)
  else match cmd with
    | 0 => (0, s)
    | 1 => (0, s.quiesce d)
    | 2 => (0, s.resetDie d)
    | _ => (0, s.readmit d)

/-- A command reaches its die, and its answer sets off: the die's state after the command's own transition (R464). The operands are the die,
one more than the wave (0 for the host), its operation, the cycles back, the issuing die, and whether a reserved bit was set. (DEDUCED, log 47) -/
def State.dieCommandAt (s : State) (cmd : Nat) (a : List Nat) : State :=
  let n (i : Nat) : Nat := a.getD i 0
  let d := n 0
  let (st, s) := if n 5 = 1 then (4, s) else s.dieCmd d cmd (if n 1 = 0 then 4 else n 4)
  if n 1 = 0 then s else s.syAnswer (n 1 - 1) (n 2) (n 3) (BitVec.ofNat 32 (dieCode (s.die d).state)) st

/-! Steps 1 to 4 (R417, R465). -/

/-- Step 1 is complete: no team is left on the die (R465). -/
def State.quiesced (s : State) (d : Nat) : Bool :=
  (s.die d).state == .quiescing && (s.die d).phase == 1 &&
    !(s.teams.any fun (_, t) => t.core / 96 == d && (t.state == .resident || t.state == .swapping))

/-- The pending list of a die moves to the distributor of the next die in RUN, which owns its items from then on (R417, R465). -/
def State.sendItems (s : State) (d : Nat) : State :=
  let e := s.nextRun d
  let items := (s.die d).sorted s.now
  items.foldl (fun s i =>
    let s := match i.team with | some t => State.modTeam s t fun t => { t with owner := e } | none => s
    s.after (180 * ringDist d e) .teamTransfer (e :: i.code)) (s.modDie d fun k => { k with items := [] })

/-- WRITE_BACK: 0, step 1 is complete, and the pending list moves; 1, step 2 begins in the next cycle: every dirty line is written back, and every line dropped; 2, the
write-back of queue contexts is tried again. -/
def State.writeBackDie (s : State) (d stage : Nat) : State :=
  if (s.die d).state ≠ .quiescing then s
  else if stage = 0 then ((s.sendItems d).modDie d fun k => { k with phase := 2 }).after 1 .writeBack [d, 1]
  else if stage = 2 then s.flushDie d
  else
    let dirty := s.lines.any fun (_, e) => e.holder == some d && e.dirty
    let s := (s.dropHeld d [.die d]).modDie d fun k => { k with cache := [] }
    if dirty then s else s.after 1 .reHome [d, 0]

/-- Whether a line lies in a partition's context pool, as that translates now. -/
def State.inPool (s : State) (line : Nat) : Bool := (List.range 16).any fun p =>
  let a := (s.part p).ctxbase.toNat
  let n := (s.part p).ctxlen.toNat
  (pagesOf a n).any fun v => match s.devXlate 0 p v with
    | .page q => decide (q.addr v ≤ linePa line ∧ linePa line < q.addr v + (min (a + n) (v / 2 ^ 16 * 2 ^ 16 + 2 ^ 16) - v))
    | _ => false

/-- The entries that a home move copies for the lines whose home-table entry is one of `es`: the directory entries of the lines that a die other than `d`
holds, context areas apart, their watch entries, and their window mappings (R417, R419, R465). (DEDUCED, log 118) -/
def State.homeEntries (s : State) (d : Nat) (es : List Nat) : Nat :=
  let mine (l : Nat) : Bool := es.contains (linePa l / 2 ^ 12 % 4)
  let dir := (s.lines.filter fun (l, e) => mine l && (match e.holder with | some h => h != d | none => false) && !s.inPool l).length
  let watch := ((s.lines.filter fun (l, _) => mine l).map fun (_, e) => e.watch.length).foldl (· + ·) 0
  let maps := (s.teams.flatMap fun (_, t) => t.window.map fun (pa, _, n) =>
    ((List.range ((pa + n + 127) / 128 - pa / 128)).filter fun k => mine (pa / 128 + k)).length).foldl (· + ·) 0
  dir + watch + maps

/-- The home-table entries that name a die, in its own copy. -/
def State.entriesOf (s : State) (d : Nat) : List Nat := (List.range 4).filter fun k => Map.get k (s.die d).home k == d

/-- A home-table entry names another die: at once in the copies of the listed die, and 180 cycles a hop later in the others' (R417). -/
def State.moveEntry (s : State) (d entry dest : Nat) : State :=
  (List.range 4).foldl (fun s j => State.after s (180 * ringDist d j) .homeTableUpdate [j, entry, dest]) s

/-- RE_HOME: 0, step 3 begins; 1, cycle u: the die stops serving as a home, and step 4 begins; its swath shares go to die 0 at the next frame boundaries. Its queues answer OFFLINE from now on: the
contexts it has cached since step 1 are written back, and the lines that it holds since step 2 (R206, R231, R313). -/
def State.reHome (s : State) (d stage : Nat) : State :=
  if (s.die d).state ≠ .quiescing then s
  else if stage = 0 then (s.modDie d fun k => { k with phase := 3 }).after (s.homeEntries d (s.entriesOf d)) .reHome [d, 1]
  else match s.flushReady d none with
  | (c + 1, s) => s.after (c + 1) .reHome [d, 1]
  | (0, s) =>
    let es := s.entriesOf d
    let s := ((s.flushQ d none).dropHeld d []).modDie d fun k => { k with phase := 4 }
    let s := (List.range 64).foldl (fun s n => State.at_ s ((State.link s (72 * d + n)).boundaryAt (State.now s + 1)) .frameBoundary [d, n, 1]) s
    (es.foldl (fun s k => State.moveEntry s d k 0) s).after 360 .dieOffline [d]

/-- DIE_OFFLINE: step 4 is complete. The die's links carry nothing more; requests still in their queues are sent again (R406, R417, R465). -/
def State.dieOffline (s : State) (d : Nat) : State :=
  if (s.die d).state ≠ .quiescing then s
  else
    let ids := (s.reqs.filter fun (_, r) => match r.link with | some l => l / 72 == d | none => false).map (·.1)
    let s := (List.range 72).foldl (fun s i => State.modLink s (72 * d + i) fun k => { k.setWidth (State.now s) 8 with
      state := .offline, queues := [], entry := if i < 64 then [] else k.entry, sent := [], want := none, heldWant := none, wakeTill := none, retrainTill := none }) s
    let s := ids.foldl (fun s id => State.after s 0 .homeOffline [0, id]) s
    s.stallEnd.setDieState d .offline

/-- SELFTEST: the self-test of a die in warm reset ends; one that had failed has so recovered (R416). -/
def State.selftest (s : State) (d : Nat) : State :=
  if (s.die d).state ≠ .resetting then s
  else
    let n := s.free
    let s := { s with free := n + 1 }
    if Config.selfTestPasses n then (s.modDie d fun k => { k with failed := false }).setDieState d .selftest else (s.setDieState d .offline).tellSurvivors d

/-- COPY_BACK: 0, die 0 begins to copy the range's entries back; 1, the home table names the die again; 2, a frame boundary of its links: its swath shares
return, it is in RUN, its bound queues' latches refill, and launch queues there are looked at again (R231, R339, R419, R465). -/
def State.copyBack (s : State) (d stage : Nat) : State :=
  if (s.die d).state ≠ .selftest then s
  else match stage with
    | 0 => s.after (s.homeEntries d [d]) .copyBack [d, 1]
    | 1 => (s.moveEntry d d d).at_ ((s.link (72 * d)).boundaryAt (s.now + 1)) .copyBack [d, 2]
    | _ =>
      let s := ((s.returnShares d).setDieState d .run).modDie d fun k => { k with phase := 0, emptySince := s.now }
      let s := (List.range 96).foldl (fun s c => State.dieMsg s c d 2) s
      let s := s.bound.foldl (fun s (_, _, w, k) => match State.wave? s w with
        | some x => if handleHome (x.ctx.head k).handle = d then s.rebind w k else s
        | none => s) s
      ((List.range 16).foldl (fun s p => if handleHome (State.part s p).lqh = d then State.acceptAgain s p else s) s).armPlace d

/-! Failure of a die (R378). -/

/-- Unstarted and swapped teams of a list are lost: each adds its waves to its launch's count of killed ones, and to its count of moved teams
where it has moved (R342, R378). What a swapped team leaves behind is cleared: its claims on pool pages (R331), its head latches, its area; a
lazy write-back of its scratchpad goes on (R317). -/
def State.loseItem (s : State) (q : Nat) (i : Item) : State :=
  let t? := i.team.bind s.team?
  let task := (t?.map (·.task)).getD i.task
  let n := (s.needs i).1
  let count := if i.team.isSome then 1 else i.count
  let s := s.modLaunch i.launch fun l => { l with
    killed := min (2 ^ 24 - 1) (l.killed + n * count), left := if task then l.left else l.left - count, tasks := if task then l.tasks - 1 else l.tasks
    moved := if (t?.map (·.moved)).getD false then l.moved + 1 else l.moved }
  match i.team, t? with
  | some id, some t =>
    let s := t.saved.foldl (fun s (_, x) => State.unclaim s q x.part x.claims) (s.freeArea id)
    let s := { s with bound := s.bound.filter fun (_, _, v, _) => !(t.saved.any fun (k, _) => v == awaySlot id k) }
    if t.stage = 3 then s.modTeam id fun t => { t with state := .moving, saved := [] } else { s with teams := Map.erase s.teams id }
  | _, _ => s

/-- The teams of a cohort that were to be placed on a die are lost (R378). -/
def State.loseCohort (s : State) (q d : Nat) (i : Item) : State :=
  match s.launch? i.launch with
  | none => s
  | some l =>
    let s := s.modLaunch i.launch fun l => { l with plan := l.plan.filter (·.die != d) }
    (l.plan.filter (·.die == d)).foldl (fun s a => State.loseItem s q { i with next := a.number, step := 1, count := 1, team := a.team }) s

/-- DIE_FAILURE. (DEDUCED, log 73) -/
def State.dieFailure (s : State) (d : Nat) : State :=
  if (s.die d).failed then s else
  let s := (s.setDieState d .offline).modDie d fun k => { k with failed := true, phase := 0, stealing := none, frozen := 0 }
  let s := (s.waves.filter fun (w, _) => dieOf w == d).foldl (fun s (w, _) => State.kill s w) s
  let s := s.tellSurvivors d
  let heir := ((List.range 4).find? fun e => !(s.die e).failed).getD d
  let s := (List.range 4).foldl (fun s j => State.modDie s j fun k => { k with
    home := (List.range 4).foldl (fun m e => if Map.get e k.home e = d then Map.set e m e heir else m) k.home }) s
  let s := s.loseLines d
  let s := (s.launches.filter fun (_, l) => l.die == d && l.posting).foldl (fun s (i, l) =>
    if (State.qops s).any fun (_, o) => o.launch == some i then s
    else State.lostCompletion { s with launches := Map.erase (State.launches s) i } l.part) s
  let items := (s.die d).items
  let s := s.modDie d fun k => { k with items := [], bins := [], threads := [], cache := [], tlb := [], qctx := [] }
  items.foldl (fun s i => if i.isCohort then State.loseCohort s heir d i else State.loseItem s heir i) s

/-! The cold start (R420, R421). -/

/-- COLD_START by stage: 0 power-good, 1 the image has been read and its signatures verified, 2 the self-tests end, 3 every link has retrained. -/
def State.coldStart (s : State) (stage : Nat) : State :=
  match stage with
  | 0 => s.after Config.bootCycles .coldStart [1]
  | 1 => if Config.imageVerifies then s.after 180000 .coldStart [2] else { s with bootstat := 2 }
  | 2 =>
    let n := s.free
    let s := { s with free := n + 4 }
    if !Config.selfTestPasses n then { s with bootstat := 3 }
    else
      let bad := [1, 2, 3].filter fun d => !Config.selfTestPasses (n + d)
      let s := bad.foldl (fun s d => (State.modDie s d fun k => { k with state := .offline, failed := true })) s
      let s := (List.range 4).foldl (fun s j => State.modDie s j fun k => { k with home := bad.foldl (fun m e => Map.set e m e 0) k.home }) s
      let good := (List.range 4).filter fun d => !bad.contains d
      (good.foldl (fun s d => State.retrainLinks s d false) s).after 60000 .coldStart [3]
  | _ => { s with time := BitVec.ofNat 64 (2 ^ 32 + Config.bootNs), bootstat := 1 }

/-! Supply and temperature (R423, R424). -/

/-- Threshold of a stretch level, in tenths of a percent below nominal. -/
def sagOf (level : Nat) : Nat := match level with | 0 => 0 | 1 => 30 | 2 => 50 | 3 => 80 | _ => 120

/-- The level a sag calls for. -/
def levelOf (sag : Nat) : Nat := if 120 ≤ sag then 4 else if 80 ≤ sag then 3 else if 50 ≤ sag then 2 else if 30 ≤ sag then 1 else 0

/-- Whether every sensor lies at least 1 % of nominal above the threshold of the current level. -/
def State.mayFall (s : State) : Bool := decide (0 < s.stretch ∧ s.sag + 10 ≤ sagOf s.stretch)

/-- SUPPLY_SAG: the deepest sag of any sensor becomes `v` tenths of a percent. (DEDUCED, log 75) -/
def State.supplySag (s : State) (v : Nat) : State :=
  let was := s.mayFall
  let s := { s with sag := v }
  let s := if s.stretch < levelOf v then { s with stretch := levelOf v, stretchCount := s.stretchCount + 1 } else s
  if s.mayFall then (if was then s else { s with stretchStamp := s.now }.after 256 .stretchFall [s.now]) else { s with stretchStamp := 0 }

/-- STRETCH_FALL: the level falls by one after 256 cycles in which it might. -/
def State.stretchFall (s : State) (stamp : Nat) : State :=
  if !s.mayFall || s.stretchStamp != stamp then s
  else
    let s := { s with stretch := s.stretch - 1, stretchStamp := s.now }
    if s.mayFall then s.after 256 .stretchFall [s.now] else s

/-- The stretch level the package runs at: 3 or more while it is hot. -/
def State.level (s : State) : Nat := if s.hot then max 3 s.stretch else s.stretch

/-- TEMPERATURE_SENSOR: sensor, degrees. At 115 the package stops, every die fails, and the host receives a CXL.io fatal error. -/
def State.temperature (s : State) (sensor c : Nat) : State :=
  let s := { s with temps := Map.set 0 s.temps sensor c }
  let s := if 105 ≤ c ∧ s.hot = false then { s with hot := true, stretchCount := s.stretchCount + (if s.stretch < 3 then 1 else 0) }
    else if s.hot && s.temps.all fun (_, t) => decide (t ≤ 95) then { s with hot := false } else s
  if 115 ≤ c then { (List.range 4).foldl (fun s d => State.dieFailure s d) s with stopped := true, fatal := true } else s

/-! Attestation (R421). -/

/-- ATTESTATION_REPORT: the report is written. -/
def State.attest (s : State) : State :=
  let n := s.attCount
  let b := toBytes 4 16736 ++ toBytes 4 1 ++ ((List.range 32).map fun k => Memory.read s.attNonce k) ++ ((List.range 48).map Config.measureByte) ++
    toBytes 8 feat.toNat ++ toBytes 8 s.featack.toNat ++ toBytes 8 s.time.toNat ++ toBytes 16 0
  let sig := (List.range 16608).map fun k => Config.attestByte n k
  { s with attReady := true, attCount := n + 1, attRep := ((b ++ sig).zipIdx.map fun (v, k) => (k, v)).filter fun c => c.2 != emptyByte }

/-- DIE_STATUS (R273). -/
def execDieStatus (s : State) : Host.Outcome State Fault Refusal := .next (s.dieCommandAt 0 s.ev)
/-- DIE_QUIESCE (R417). -/
def execDieQuiesce (s : State) : Host.Outcome State Fault Refusal := .next (s.dieCommandAt 1 s.ev)
/-- DIE_RESET (R418). -/
def execDieReset (s : State) : Host.Outcome State Fault Refusal := .next (s.dieCommandAt 2 s.ev)
/-- DIE_READMIT (R419). -/
def execDieReadmit (s : State) : Host.Outcome State Fault Refusal := .next (s.dieCommandAt 3 s.ev)
/-- WRITE_BACK: die, stage (R417). -/
def execWriteBack (s : State) : Host.Outcome State Fault Refusal := .next (s.writeBackDie (s.arg 0) (s.arg 1))
/-- RE_HOME: die, stage (R417). -/
def execReHome (s : State) : Host.Outcome State Fault Refusal := .next (s.reHome (s.arg 0) (s.arg 1))
/-- DIE_OFFLINE: die (R465). -/
def execDieOffline (s : State) : Host.Outcome State Fault Refusal := .next (s.dieOffline (s.arg 0))
/-- SELFTEST: die (R418). -/
def execSelftest (s : State) : Host.Outcome State Fault Refusal := .next (s.selftest (s.arg 0))
/-- COPY_BACK: die, stage (R419). -/
def execCopyBack (s : State) : Host.Outcome State Fault Refusal := .next (s.copyBack (s.arg 0) (s.arg 1))
/-- DIE_FAILURE: die (R378). -/
def execDieFailure (s : State) : Host.Outcome State Fault Refusal := .next (s.dieFailure (s.arg 0))
/-- COLD_START: stage (R420). -/
def execColdStart (s : State) : Host.Outcome State Fault Refusal := .next (s.coldStart (s.arg 0))
/-- SUPPLY_SAG: tenths of a percent (R423). -/
def execSupplySag (s : State) : Host.Outcome State Fault Refusal := .next (s.supplySag (s.arg 0))
/-- STRETCH_FALL: since when it might fall (R423). -/
def execStretchFall (s : State) : Host.Outcome State Fault Refusal := .next (s.stretchFall (s.arg 0))
/-- TEMPERATURE_SENSOR: sensor, degrees (R424). -/
def execTemperatureSensor (s : State) : Host.Outcome State Fault Refusal := .next (s.temperature (s.arg 0) (s.arg 1))
/-- ATTESTATION_REPORT (R421). -/
def execAttestationReport (s : State) : Host.Outcome State Fault Refusal := .next s.attest

end Sys2Proof.Machine
end

