-- ==== Sys2Proof/Machine/HostIo.lean ====
section
/-! DEFINITION. The host's side of the package: its memory accesses over CXL.mem (R280, R333), bias flips (R334, R335), soft errors (R313), and
the registers of BAR0 (R409 to R414, R421, R422). Each enters as an event of the environment. -/
namespace Sys2Proof.Machine

/-! Host accesses (R280, R310, R333, R386, R417). An access is a record of `host`; it is carried out line by line, in ascending order. -/

/-- First PA and number of bytes of the line of an access that begins `off` bytes into it. -/
def HostReq.piece (r : HostReq) (off : Nat) : Nat × Nat := (r.addr + off, min (r.len - off) (128 - (r.addr + off) % 128))

/-- Whether every line of an access lies in some partition's memory window (R386). -/
def State.hostMapped (s : State) (r : HostReq) : Bool :=
  (List.range ((r.addr + r.len + 127) / 128 - r.addr / 128)).all fun i => (s.partOf (linePa (r.addr / 128 + i))).isSome

/-- Changes a host access. -/
def State.modHost (s : State) (id : Nat) (f : HostReq → HostReq) : State :=
  match Map.find? s.host id with
  | some r => { s with host := Map.put s.host id (f r) }
  | none => s

/-- An access is answered: with bytes, perhaps poisoned, or with an error. -/
def State.hostAnswer (s : State) (id : Nat) (b : List (BitVec 8)) (poison error : Bool) : State :=
  s.modHost id fun r => { r with answer := some (b, poison, error) }

/-- A line of an access has been carried out: the next one follows, or the answer. -/
def State.hostNext (s : State) (id : Nat) (r : HostReq) (off : Nat) : State :=
  let (_, n) := r.piece off
  if r.len ≤ off + n then s.hostAnswer id (if r.write then [] else r.bytes) r.poison false else s.after 0 .hostAccess [id, 0, off + n]

/-- The host reads or writes one line of an access at the line's place (R279, R280, R316). -/
def State.hostPerform (s : State) (id : Nat) (r : HostReq) (off : Nat) : State :=
  let (pa, n) := r.piece off
  let line := pa / 128
  let (scr, poison) := match s.scratchAt pa with | some x => (some x, false) | none => (none, (s.line line).poison)
  if r.write then
    let s := match scr with | some (t, o) => s.scratchWrite t (o / 128) none | none => s.writeLine r.die line none
    (s.write pa ((r.bytes.drop off).take n)).hostNext id r off
  else
    let r := { r with bytes := r.bytes ++ (List.range n).map fun i => s.byte (pa + i), poison := r.poison || poison }
    (((s.readSoft line).touchLine ((s.line line).holder.getD r.die) line).modHost id fun _ => r).hostNext id r off

/-- HOST_ACCESS: access, step, bytes done: 0 at the entry die, 1 at the line's home, 2 at its holder. A home that serves no longer answers a
read with poisoned zeros and a write with an error (R417). A line that the host had granted is taken back first (R332). -/
def State.hostAccess (s : State) (a : List Nat) : State :=
  let n (k : Nat) : Nat := a.getD k 0
  let id := n 0
  match Map.find? s.host id with
  | none => s
  | some r =>
    let off := n 2
    let (pa, _) := r.piece off
    let line := pa / 128
    let h := s.home r.die pa
    match n 1 with
    | 0 =>
      if off = 0 ∧ s.hostMapped r = false then s.hostAnswer id [] false true
      else s.after (180 * ringDist r.die h) .hostAccess [id, 1, off, h]
    | 1 =>
      let h := n 3
      if s.home h pa ≠ h then
        if r.write then s.hostAnswer id [] false true else s.hostAnswer id (List.replicate r.len 0) true false
      else match s.scratchAt pa with
        | some (t, _) => s.after (60 + 180 * ringDist h (((s.team? t).map (·.core / 96)).getD h)) .hostAccess [id, 2, off]
        | none =>
          let s := if (s.line line).grant.isSome then s.hostRecall line else s
          match (s.line line).fetching, (s.line line).holder with
          | some q, _ => s.joinFetch q (.host [id, 2, off])
          | none, some d => s.after (180 * ringDist h d) .hostAccess [id, 2, off]
          | none, none => s.drawerSend r.die line false [] [.host [id, 2, off]] none false 80
    | _ =>
      if r.write && (s.scratchAt pa).isNone then
        match s.lineWait r.die line false none false with
        | (some 0, s) => s.hostPerform id r off
        | (some (d + 1), s) => s.after (d + 1) .hostAccess a
        | (none, s) => match (s.line line).fetching with
          | some q => s.joinFetch q (.host a)
          | none => s
      else s.hostPerform id r off

/-! Bias flips (R334, R335). -/

/-- Whether an engine access to the page is under way: one that has been translated. -/
def State.engineIn (s : State) (p : Page) : Bool :=
  let lo := p.pa
  let hi := p.pa + if p.big then 2 ^ 29 else 2 ^ 16
  let mine (a : List Nat) : Bool :=
    let at_ (k : Nat) : Bool := decide (lo ≤ a.getD k 0 ∧ a.getD k 0 < hi)
    match a.getD 1 0 with
    | 1 => at_ 6 | 2 => at_ 6 | 3 => at_ 6
    | 5 => at_ 7 | 6 => at_ 7 | 7 => at_ 7
    | _ => false
  (s.agenda.any fun (_, i, a) => (i == .engineLineTransfer && mine a) || (i == .homeOffline && a.getD 0 0 == 2 && mine (a.drop 2))) ||
    s.reqs.any fun (_, r) => r.waiters.any fun v => match v with | .eng _ a => mine a | _ => false

/-- The manager or the host stores a page-table entry, once its line may be written, and invalidates its page in every TLB (R334); `again` follows
while it may not. -/
def State.storePte (s : State) (part va pa e : Nat) (big : Bool) (again : List Nat) : Bool × State :=
  match s.pteReady (s.home 0 pa) pa none with
  | (0, s) => (true, (s.writePte (s.home 0 pa) pa e none).tlbInv part false va big)
  | (d + 1, s) => (false, s.after (d + 1) .biasFlip again)

/-- BIAS_FLIP: partition, VA[63:16] of the page, whether it goes to host bias, step: 0 mark, 1 drain, 2 flush, 3 release. A flip of a page
that is being flipped is refused, and the manager of clover `c - 1` says so to the FORWARD request in slot `slot` that asked for it (R335, R364); one of a page
that has the bias already does nothing. (DEDUCED, log 80) -/
def State.biasFlip (s : State) (part vpn : Nat) (toHost : Bool) (stage c slot : Nat) : State :=
  let va := vpn * 2 ^ 16
  let w := s.walk part va
  let on := s.flips.any fun f => f.part == part && f.page == vpn
  match w.out, w.reads.getLast? with
  | .page p, some a =>
    let e := s.read a 8
    let go (s : State) (t next : Nat) : State := s.after t .biasFlip [part, vpn, if toHost then 1 else 0, next]
    let note (s : State) (k : Nat) : State := { s with flips := s.flips.map fun (f : Flip) => if f.part = part ∧ f.page = vpn then { f with stage := k } else f }
    match stage with
    | 0 =>
      if p.flip || on then (if c = 0 then s else s.managerReply (c - 1) slot 1 [])
      else if p.hb == toHost then s
      else
        match s.storePte part va a (e ||| 2 ^ 11) p.big [part, vpn, if toHost then 1 else 0, 0, c, slot] with
        | (false, s) => s
        | (true, s) =>
          let f : Flip := { part := part, page := vpn, toHost := toHost, stage := 1 }
          go { s with flips := s.flips ++ [f] } 0 1
    | 1 => if s.engineIn p then go s 1 1 else go (note s 2) 0 2
    | 2 =>
      let ls := (s.lines.map (·.1)).filter p.hasLine
      let s := ls.foldl (fun s l =>
        let s := if (State.line s l).grant.isSome then s.hostRecall l else s
        let s := s.dropLine l []
        let s := (s.watchers l none).foldl (fun s w => State.conflict s w) s
        s.modLine l fun e => { e with watch := [] }) s
      go (note s 3) 0 3
    | _ =>
      if !on then s
      else if s.reqs.any fun (_, r) => r.write && p.hasLine r.line then go s 1 3
      else
        let e := (e &&& (2 ^ 64 - 1 - 2 ^ 10 - 2 ^ 11)) ||| (if toHost then 2 ^ 10 else 0)
        match s.storePte part va a e p.big [part, vpn, if toHost then 1 else 0, 3] with
        | (false, s) => s
        | (true, s) => { s with flips := s.flips.filter fun f => !(f.part == part && f.page == vpn) }
  | _, _ => { s with flips := s.flips.filter fun f => !(f.part == part && f.page == vpn) }

/-! Soft errors (R313). -/

/-- SOFT_ERROR: 0, a line has an error that ECC has corrected; 1, one that it cannot correct: the line is poisoned at its holder; 2, a twin
unit of a wave gives a wrong result in a lane: wave, unit, lane. -/
def State.softError (s : State) (kind : Nat) (a : List Nat) : State :=
  let n (k : Nat) : Nat := a.getD k 0
  match kind with
  | 0 => s.modLine (n 1) fun e => { e with soft := false }
  | 1 => s.modLine (n 1) fun e => { e with poison := true }
  | _ => s.modWave (n 1) fun x =>
    let i := 32 * n 2 + n 3
    if x.inject.contains i then x else { x with inject := x.inject ++ [i] }

/-! The registers of BAR0 (R409). -/

/-- FEATACK is written once after a cold start (R422). -/
def State.featackWrite (s : State) (v : Nat) : State := if s.featSet then s else { s with featack := BitVec.ofNat 64 v &&& feat, featSet := true }

/-- ATTCTL: bit 0 asks for a report (R410, R421). -/
def State.attctlWrite (s : State) (v : Nat) : State :=
  if v % 2 = 1 then { s with attReady := false }.after (Config.attestCycles s.attCount) .attestationReport [] else s

/-- The bits of a window bound (R414). -/
def boundBits : Dword := 0x000FFFFFFFFF0000

/-- Whether window `k` of partition `p`, with these bounds, would overlap a non-empty window of another partition (R414). -/
def State.windowClash (s : State) (p base lim : Nat) : Bool :=
  decide (base ≤ lim) && (List.range 16).any fun q => q != p && (List.range 8).any fun k =>
    let x := s.part q
    decide (x.windowBase k ≤ x.windowLim k ∧ base ≤ x.windowLim k + 0xFFFF ∧ x.windowBase k ≤ lim + 0xFFFF)

/-- MWBASE and MWLIM (R414). -/
def State.mwbaseWrite (s : State) (p k v : Nat) : State :=
  let b := BitVec.ofNat 64 v &&& boundBits
  if s.windowClash p b.toNat ((s.part p).windowLim k) then s
  else s.modPart p fun x => { x with mwbase := Map.set 0x000FFFFFFFFF0000#64 x.mwbase k b }
def State.mwlimWrite (s : State) (p k v : Nat) : State :=
  let b := BitVec.ofNat 64 v &&& boundBits
  if s.windowClash p ((s.part p).windowBase k) b.toNat then s
  else s.modPart p fun x => { x with mwlim := Map.set 0#64 x.mwlim k b }

/-- A partition has no resident team and no pending launch (R411). -/
def State.partIdle (s : State) (p : Nat) : Bool := !(s.part p).accepting && s.launches.all fun (_, l) => l.part != p || l.done

/-- The clovers of the dies that have not failed (R421). -/
def State.goodClovers (s : State) : BitVec 96 :=
  BitVec.ofNat 96 (((List.range 4).map fun d => if (s.die d).failed then 0 else (2 ^ 24 - 1) * 2 ^ (24 * d)).foldl (· + ·) 0)

/-- CLVLO and CLVHI (R336, R411, R415). -/
def State.clvloWrite (s : State) (p v : Nat) : State :=
  if s.partIdle p then s.giveClovers p ((BitVec.ofNat 96 ((s.part p).clovers.toNat / 2 ^ 64 * 2 ^ 64 + v % 2 ^ 64)) &&& s.goodClovers) else s
def State.clvhiWrite (s : State) (p v : Nat) : State :=
  if s.partIdle p then s.giveClovers p ((BitVec.ofNat 96 ((s.part p).clovers.toNat % 2 ^ 64 + v % 2 ^ 32 * 2 ^ 64)) &&& s.goodClovers) else s

/-- Sends the pending interrupts whose vectors are not masked any more, each once (R413). -/
def State.msixFlush (s : State) : State :=
  (s.msixPend.filter fun v => !s.msixMask v).foldl (fun s v => { s with msixPend := (State.msixPend s).filter (· != v), sent := v :: State.sent s }) s

/-- MSIX_UNMASK: a vector's mask bit is cleared; with 512 the function mask is cleared, with 513 it is set (R413). -/
def State.msixUnmask (s : State) (v : Nat) : State :=
  if v < 512 then
    { s with msix := Map.set (0x100000000#64) s.msix (2 * v + 1) (Map.get 0x100000000#64 s.msix (2 * v + 1) &&& ~~~0x100000000#64) }.msixFlush
  else { s with msixMasked := v != 512 }.msixFlush

/-- A word of the MSI-X table; a vector is masked until the host writes its control word. -/
def State.msixWord (s : State) (k : Nat) : Dword := Map.get (if k % 2 = 1 then 0x100000000#64 else 0#64) s.msix k
def State.msixWrite (s : State) (k v : Nat) : State :=
  { s with msix := Map.set (if k % 2 = 1 then 0x100000000#64 else 0#64) s.msix k (BitVec.ofNat 64 v) }.msixFlush

/-- A write of the partition block (R274, R336, R411): partition, offset, value, the die at which it enters. A value that breaks a limit of
R274 is discarded. (DEDUCED, log 78) -/
def State.partBlock (s : State) (p r v d : Nat) : State :=
  let set (f : Part → Part) : State := s.modPart p f
  let w := BitVec.ofNat 64 v
  match r with
  | 0x000 => set fun x => { x with psched := w &&& 0xF }
  | 0x008 => (set fun x => { x with lqh := w }).acceptAgain p
  | 0x010 => s.after 0 .lqdoor [p, v, d]
  | 0x018 => set fun x => { x with ctxbase := w }
  | 0x020 => set fun x => { x with ctxlen := w &&& 0xFFFFFFFF }
  | 0x028 => s.clvloWrite p v
  | 0x030 => s.clvhiWrite p v
  | 0x040 => set fun x => { x with pcap := w &&& 0x1F }
  | 0x048 => if partTakes 1 v then s.qtbaseWrite p 2 v else s
  | 0x050 => if partTakes 3 v then s.qtlenWrite p v else s
  | 0x058 => if partTakes 4 v then set fun x => { x with ttbase := w } else s
  | 0x060 => if partTakes 6 v then s.ptbaseWrite p 2 v else s
  | 0x068 => s.lnkstallWrite p (w &&& 0xFFFFFFFF)
  | 0x200 => s.after 0 .resize [p, v % 128, v / 2 ^ 8 % 16, 0]
  | _ =>
    if 0x080 ≤ r ∧ r < 0x100 then (if r % 16 = 0 then s.mwbaseWrite p ((r - 0x80) / 16) v else s.mwlimWrite p ((r - 0x80) / 16) v)
    else if 0x100 ≤ r ∧ r < 0x1F8 then set fun x => { x with intbind := Map.set 0 x.intbind ((r - 0x100) / 8) w }
    else s

/-- A write of a link block (R412): link, offset, value. -/
def State.linkBlock (s : State) (l r v : Nat) : State :=
  if r < 0x50 then (s.linkWrite l (r / 8) (BitVec.ofNat 32 v)).2
  else if 64 ≤ l % 72 then s
  else if 0x400 ≤ r ∧ r < 0x600 then
    let k := (r - 0x400) / 8 * 4
    s.modLink l fun x => { x with shadow := (List.range 4).foldl (fun m i => Map.set 0x60#32 m (k + i) (BitVec.ofNat 32 (v / 2 ^ (16 * i) % 2 ^ 11))) x.shadow }
  else if r = 0x600 ∧ v = 1 then s.swcommit l
  else s

/-- REGISTER_WRITE: a host write of `size` bytes at an offset of BAR0, entering at die `d` (R409 to R412): one of another size than 8, or not aligned, has no
effect. Where the boot has failed, only the global block answers (R421). -/
def State.barWrite (s : State) (o v d : Nat) (size : Nat := 8) : State :=
  if o % 8 ≠ 0 ∨ size ≠ 8 then s
  else if o < 0x10000 then
    match o with
    | 0x008 => s.featackWrite v
    | 0x020 => s.dieCommandAt (v / 2 ^ 4 % 4) [v % 4]
    | 0x060 => s.attctlWrite v
    | _ => if 0x040 ≤ o ∧ o < 0x060 then { s with attNonce := Memory.writeAll s.attNonce (o - 0x040) (toBytes 8 v) } else s
  else if s.bootstat = 2 ∨ s.bootstat = 3 then s
  else if o < 0x110000 then s.partBlock (o / 0x10000 - 1) (o % 0x10000) v d
  else if 0x1000000 ≤ o ∧ o < 0x1400000 then
    let n := o % 0x100000 / 0x1000
    if n < 72 then s.linkBlock (72 * ((o - 0x1000000) / 0x100000) + n) (o % 0x1000) v else s
  else if 0x2000000 ≤ o ∧ o < 0x2002000 then s.msixWrite ((o - 0x2000000) / 8) v
  else s

/-- The registers of the partition block as the host reads them (R274, R336, R411). -/
def Part.block (x : Part) (r : Nat) : Dword :=
  match r with
  | 0x000 => x.psched | 0x008 => x.lqh | 0x018 => x.ctxbase | 0x020 => x.ctxlen
  | 0x028 => BitVec.ofNat 64 x.clovers.toNat | 0x030 => BitVec.ofNat 64 (x.clovers.toNat / 2 ^ 64)
  | 0x038 => x.lostcq | 0x040 => x.pcap | 0x048 => x.qtbase | 0x050 => x.qtlen | 0x058 => x.ttbase | 0x060 => x.ptbase
  | 0x068 => x.lnkstall
  | 0x208 => BitVec.ofNat 64 x.resize
  | _ =>
    if 0x080 ≤ r ∧ r < 0x100 then BitVec.ofNat 64 (if r % 16 = 0 then x.windowBase ((r - 0x80) / 16) else x.windowLim ((r - 0x80) / 16))
    else if 0x100 ≤ r ∧ r < 0x1F8 then Map.get 0 x.intbind ((r - 0x100) / 8)
    else 0

/-- A host read of `size` bytes at an offset of BAR0 (R409 to R413): one of another size than 8, or not aligned, reads 0. It changes nothing. (DEDUCED,
log 79) -/
def State.barRead (s : State) (o : Nat) (size : Nat := 8) : Dword :=
  let num (n : Nat) : Dword := BitVec.ofNat 64 n
  if o % 8 ≠ 0 ∨ size ≠ 8 then 0
  else if o < 0x10000 then
    match o with
    | 0x000 => feat
    | 0x008 => s.featack
    | 0x010 => num s.bootstat
    | 0x018 => s.time
    | 0x020 => num (((List.range 4).map fun d => dieCode (s.die d).state * 2 ^ (4 * d)).foldl (· + ·) 0)
    | 0x028 => num (((List.range 4).map fun k => Map.get k (s.die 0).home k * 2 ^ (2 * k)).foldl (· + ·) 0)
    | 0x030 => num (s.level + (s.temps.map (·.2)).foldl max 0 % 256 * 2 ^ 8 + s.stretchCount % 2 ^ 32 * 2 ^ 32)
    | 0x060 => if s.attReady then 2 else 0
    | _ =>
      if 0x040 ≤ o ∧ o < 0x060 then num (ofBytes (Memory.readAll s.attNonce (o - 0x040) 8))
      else if 0x8000 ≤ o then num (ofBytes (Memory.readAll s.attRep (o - 0x8000) 8))
      else 0
  else if s.bootstat = 2 ∨ s.bootstat = 3 then 0
  else if o < 0x110000 then (s.part (o / 0x10000 - 1)).block (o % 0x10000)
  else if 0x1000000 ≤ o ∧ o < 0x1400000 then
    let n := o % 0x100000 / 0x1000
    let l := 72 * ((o - 0x1000000) / 0x100000) + n
    let k := s.link l
    let r := o % 0x1000
    if 72 ≤ n then 0
    else if r < 0x50 then (k.register (s.depth l) (r / 8)).setWidth 64
    else if 64 ≤ n then 0
    else if 0x400 ≤ r ∧ r < 0x600 then
      num (((List.range 4).map fun i => (Map.get 0x60#32 k.shadow ((r - 0x400) / 8 * 4 + i)).toNat * 2 ^ (16 * i)).foldl (· + ·) 0)
    else if r = 0x608 then num k.swstat
    else 0
  else if 0x2000000 ≤ o ∧ o < 0x2002000 then s.msixWord ((o - 0x2000000) / 8)
  else if 0x2002000 ≤ o ∧ o < 0x2002040 then
    num (((List.range 64).map fun i => if s.msixPend.contains ((o - 0x2002000) * 8 + i) then 2 ^ i else 0).foldl (· + ·) 0)
  else 0

/-- HOST_ACCESS: access, step, bytes done (R280). (DESIGN CHOICE, log 32) -/
def execHostAccess (s : State) : Host.Outcome State Fault Refusal := .next (s.hostAccess s.ev)
/-- BIAS_FLIP: partition, page, direction, step (R334). -/
def execBiasFlip (s : State) : Host.Outcome State Fault Refusal := .next (s.biasFlip (s.arg 0) (s.arg 1) (s.arg 2 == 1) (s.arg 3) (s.arg 4) (s.arg 5))
/-- SOFT_ERROR: kind, place (R313). -/
def execSoftError (s : State) : Host.Outcome State Fault Refusal := .next (s.softError (s.arg 0) s.ev)
/-- FEATACK: value (R422). -/
def execFeatack (s : State) : Host.Outcome State Fault Refusal := .next (s.featackWrite (s.arg 0))
/-- ATTCTL: value (R421). -/
def execAttctl (s : State) : Host.Outcome State Fault Refusal := .next (s.attctlWrite (s.arg 0))
/-- MWBASE: partition, window, value (R414). -/
def execMwbase (s : State) : Host.Outcome State Fault Refusal := .next (s.mwbaseWrite (s.arg 0) (s.arg 1) (s.arg 2))
/-- MWLIM: partition, window, value (R414). -/
def execMwlim (s : State) : Host.Outcome State Fault Refusal := .next (s.mwlimWrite (s.arg 0) (s.arg 1) (s.arg 2))
/-- CLVLO: partition, value (R411). -/
def execClvlo (s : State) : Host.Outcome State Fault Refusal := .next (s.clvloWrite (s.arg 0) (s.arg 1))
/-- CLVHI: partition, value (R411). -/
def execClvhi (s : State) : Host.Outcome State Fault Refusal := .next (s.clvhiWrite (s.arg 0) (s.arg 1))
/-- MSIX_UNMASK: vector, or the function mask (R413). -/
def execMsixUnmask (s : State) : Host.Outcome State Fault Refusal := .next (s.msixUnmask (s.arg 0))
/-- REGISTER_WRITE: offset, value, entry die, and the size of the access where it is not 8 bytes (R409). -/
def execRegisterWrite (s : State) : Host.Outcome State Fault Refusal := .next (s.barWrite (s.arg 0) (s.arg 1) (s.arg 2) (s.ev.getD 3 8))

end Sys2Proof.Machine
end

