-- ==== Sys2Proof/Machine/Walk.lean ====
section
/-! DEFINITION. The ends of page walks, and of the other reads that the device makes for itself (R323, R324, R331, R472). -/
namespace Sys2Proof.Machine

/-- The wave whose bundle or fetch waits for a walk: a free POOL entry that the walk finds is claimed for it (R331). -/
def State.walkFor (s : State) (k : PageWalk) : Option Nat :=
  let seq (w q : Nat) : Option Seq := (s.wave? w).bind fun x => Map.find? x.ctx.seqs q
  match k.use with
  | .bundle w q => if ((seq w q).bind (·.part)).any (·.look.contains (k.va / 2 ^ 16)) then some w else none
  | .fetch w q => if (seq w q).any (·.fetch == .look) then some w else none
  | _ => none

/-- A walk is over with the outcome `o`: it frees its walker, fills the die TLB and, for a wave, the core TLB, and those it was made for go on (R322,
R324). Failed walks and POOL entries are not cached. -/
def State.walkDone (s : State) (id : Nat) (k : PageWalk) (o : Xlate) : State :=
  let vpn := k.va / 2 ^ 16
  let s := State.walkersGo { s with walks := Map.erase s.walks id } k.die
  let s := match o with | .page p => s.modDie k.die (·.tlbAdd p) | _ => s
  match k.use with
  | .bundle w q => s.addPage w q vpn o
  | .fetch w q => s.fetchPage w q vpn o
  | .cmd c steps =>
    let s := match s.cmd? c with
      | some x => s.setCmd c { x with pages := (vpn, o) :: x.pages.filter (·.1 != vpn) }
      | none => s
    steps.foldl (fun s a => State.after s 0 .engineLineTransfer a) s
  | .task t last mode => match o with
    | .page p =>
      if p.flip then s.after 1 .walkComplete [3, t, k.die, k.part, k.va, last, mode]
      else
        let (n, s) := s.taskLines t k.die p k.va last mode
        s.taskStep t n false
    | _ => s.taskStep t 0 false

/-- A walk has read its last entry. A free POOL entry is claimed for the wave that waits, once its line may be written; one that the wave itself has
claimed still raises PAGE_POOL in it (R331). (DEDUCED, log 10; DEDUCED, log 11) -/
def State.walkEnd (s : State) (id : Nat) (k : PageWalk) : State :=
  let r := s.walk k.part k.va
  let leaf := r.reads.getLast?.getD 0
  match r.out, s.walkFor k with
  | .pool, some w => match s.pteReady k.die leaf (some w) with
    | (d + 1, s) => s.after (d + 1) .walkComplete [0, id]
    | (0, s) =>
      let s := s.writePte k.die leaf (s.read leaf 8 ||| 2 ^ 12) (some w)
      (s.modWave w fun x => { x with claims := x.claims ++ [(leaf, k.va / 2 ^ 16)] }).walkDone id k .pool
  | .claimed, some w => s.walkDone id k (if (s.wave w).claims.any (·.1 == leaf) then .pool else .claimed)
  | o, _ => s.walkDone id k o

/-- An entry of a walk has been read: the next one is, or the walk ends (R323). -/
def State.walkStep (s : State) (id : Nat) : State :=
  match Map.find? s.walks id with
  | none => s
  | some k =>
    let k := { k with step := k.step + 1 }
    let s := { s with walks := Map.put s.walks id k }
    if k.step < (s.walk k.part k.va).reads.length then s.walkRead id k else s.walkEnd id k

/-- WALK_COMPLETE, by its first operand. -/
def State.walkComplete (s : State) (args : List Nat) : State :=
  match args with
  | 0 :: id :: _ => s.walkStep id
  | 1 :: q :: pa :: coh :: h :: more => s.readAtHome q pa coh h more
  | 2 :: id :: _ => s.taskStep id 0 true
  | [3, id, die, part, va, last, mode] =>
    let (n, s) := s.taskPage id die part va last mode
    s.taskStep id n false
  | 4 :: core :: line :: _ => s.instLine core line
  | [5, core, coh, pol, line] => s.fillCopy core line coh (BitVec.ofNat 32 pol)
  | [6, q, part, a, vpn] => s.unclaimAt q part a vpn
  | 8 :: _ => s.after 0 .peerPacket args
  | _ => s

/-- WALK_COMPLETE: what a read of the device's own was made for, and its operands: 0 an entry of a walk; 1 it reaches the line's home; 2 a line of a
task; 3 a page of a task; 4 a line of instructions; 5 a prefetched line; 6 a claim to be undone; 8 a line that a peer reads (R323, R324, R331, R472). -/
def execWalkComplete (s : State) : Host.Outcome State Fault Refusal := .next (s.walkComplete s.ev)

/-- DIE_TLB_LOOKUP: wave, sequencer, VA[63:16] (R324). -/
def execDieTlbLookup (s : State) : Host.Outcome State Fault Refusal := .next (s.dieTlbLookup (s.arg 0) (s.arg 1) (s.arg 2))

end Sys2Proof.Machine
end

