-- ==== Sys2Proof/Machine/Dispatch.lean ====
section
/-! DEFINITION. The dispatch: one arm for every instruction. -/
namespace Sys2Proof.Machine

/-- The effect of an instruction. -/
def exec (i : Instr) (s : State) : Host.Outcome State Fault Refusal :=
  match i with
  | .moveM0 gd r src => Sys2Proof.Machine.execMoveM0 gd r src s
  | .moveM1 gd r src => Sys2Proof.Machine.execMoveM1 gd r src s
  | .moveLf gd d src => Sys2Proof.Machine.execMoveLf gd d src s
  | .latchWrite gd u k src => Sys2Proof.Machine.execLatchWrite gd u k src s
  | .iaAdd gd t src => Sys2Proof.Machine.execIaAdd gd t src s
  | .iaSub gd t src => Sys2Proof.Machine.execIaSub gd t src s
  | .iaAnd gd t src => Sys2Proof.Machine.execIaAnd gd t src s
  | .iaOr gd t src => Sys2Proof.Machine.execIaOr gd t src s
  | .iaXor gd t src => Sys2Proof.Machine.execIaXor gd t src s
  | .iaAndn gd t src => Sys2Proof.Machine.execIaAndn gd t src s
  | .iaOrn gd t src => Sys2Proof.Machine.execIaOrn gd t src s
  | .iaMinS gd t src => Sys2Proof.Machine.execIaMinS gd t src s
  | .iaMaxS gd t src => Sys2Proof.Machine.execIaMaxS gd t src s
  | .iaMinU gd t src => Sys2Proof.Machine.execIaMinU gd t src s
  | .iaMaxU gd t src => Sys2Proof.Machine.execIaMaxU gd t src s
  | .iaEq gd t src => Sys2Proof.Machine.execIaEq gd t src s
  | .iaNe gd t src => Sys2Proof.Machine.execIaNe gd t src s
  | .iaLtS gd t src => Sys2Proof.Machine.execIaLtS gd t src s
  | .iaLeS gd t src => Sys2Proof.Machine.execIaLeS gd t src s
  | .iaLtU gd t src => Sys2Proof.Machine.execIaLtU gd t src s
  | .iaLeU gd t src => Sys2Proof.Machine.execIaLeU gd t src s
  | .iaSel gd t src => Sys2Proof.Machine.execIaSel gd t src s
  | .iaSextB gd t src => Sys2Proof.Machine.execIaSextB gd t src s
  | .iaSextH gd t src => Sys2Proof.Machine.execIaSextH gd t src s
  | .iaZextB gd t src => Sys2Proof.Machine.execIaZextB gd t src s
  | .iaZextH gd t src => Sys2Proof.Machine.execIaZextH gd t src s
  | .iaAbs gd t src => Sys2Proof.Machine.execIaAbs gd t src s
  | .iaNeg gd t src => Sys2Proof.Machine.execIaNeg gd t src s
  | .iaAddsS gd t src => Sys2Proof.Machine.execIaAddsS gd t src s
  | .iaSubsS gd t src => Sys2Proof.Machine.execIaSubsS gd t src s
  | .iaAddCo gd t src => Sys2Proof.Machine.execIaAddCo gd t src s
  | .iaSubBo gd t src => Sys2Proof.Machine.execIaSubBo gd t src s
  | .iaMov gd t src => Sys2Proof.Machine.execIaMov gd t src s
  | .maMulLo gd t src => Sys2Proof.Machine.execMaMulLo gd t src s
  | .maMulHiS gd t src => Sys2Proof.Machine.execMaMulHiS gd t src s
  | .maMulHiU gd t src => Sys2Proof.Machine.execMaMulHiU gd t src s
  | .maMadLo gd t src => Sys2Proof.Machine.execMaMadLo gd t src s
  | .maMadWideS gd t src => Sys2Proof.Machine.execMaMadWideS gd t src s
  | .maMadWideU gd t src => Sys2Proof.Machine.execMaMadWideU gd t src s
  | .maDivU gd t src => Sys2Proof.Machine.execMaDivU gd t src s
  | .maDivS gd t src => Sys2Proof.Machine.execMaDivS gd t src s
  | .maRemU gd t src => Sys2Proof.Machine.execMaRemU gd t src s
  | .maRemS gd t src => Sys2Proof.Machine.execMaRemS gd t src s
  | .saShl gd t src => Sys2Proof.Machine.execSaShl gd t src s
  | .saShr gd t src => Sys2Proof.Machine.execSaShr gd t src s
  | .saSar gd t src => Sys2Proof.Machine.execSaSar gd t src s
  | .saRotl gd t src => Sys2Proof.Machine.execSaRotl gd t src s
  | .saRotr gd t src => Sys2Proof.Machine.execSaRotr gd t src s
  | .saBextU gd t src => Sys2Proof.Machine.execSaBextU gd t src s
  | .saBextS gd t src => Sys2Proof.Machine.execSaBextS gd t src s
  | .saBins gd t src => Sys2Proof.Machine.execSaBins gd t src s
  | .saPopc gd t src => Sys2Proof.Machine.execSaPopc gd t src s
  | .saClz gd t src => Sys2Proof.Machine.execSaClz gd t src s
  | .saCtz gd t src => Sys2Proof.Machine.execSaCtz gd t src s
  | .saBrev gd t src => Sys2Proof.Machine.execSaBrev gd t src s
  | .saPerm gd t src => Sys2Proof.Machine.execSaPerm gd t src s
  | .saFsh gd t src => Sys2Proof.Machine.execSaFsh gd t src s
  | .ckEq gd src => Sys2Proof.Machine.execCkEq gd src s
  | .ckRng gd src => Sys2Proof.Machine.execCkRng gd src s
  | .ckMark gd src => Sys2Proof.Machine.execCkMark gd src s
  | .faAdd gd t src => Sys2Proof.Machine.execFaAdd gd t src s
  | .faSub gd t src => Sys2Proof.Machine.execFaSub gd t src s
  | .faMul gd t src => Sys2Proof.Machine.execFaMul gd t src s
  | .faFma gd t src => Sys2Proof.Machine.execFaFma gd t src s
  | .faFms gd t src => Sys2Proof.Machine.execFaFms gd t src s
  | .faFnma gd t src => Sys2Proof.Machine.execFaFnma gd t src s
  | .faFnms gd t src => Sys2Proof.Machine.execFaFnms gd t src s
  | .faMin gd t src => Sys2Proof.Machine.execFaMin gd t src s
  | .faMax gd t src => Sys2Proof.Machine.execFaMax gd t src s
  | .faMinn gd t src => Sys2Proof.Machine.execFaMinn gd t src s
  | .faMaxn gd t src => Sys2Proof.Machine.execFaMaxn gd t src s
  | .faEq gd t src => Sys2Proof.Machine.execFaEq gd t src s
  | .faLt gd t src => Sys2Proof.Machine.execFaLt gd t src s
  | .faLe gd t src => Sys2Proof.Machine.execFaLe gd t src s
  | .faUn gd t src => Sys2Proof.Machine.execFaUn gd t src s
  | .faAbs gd t src => Sys2Proof.Machine.execFaAbs gd t src s
  | .faNeg gd t src => Sys2Proof.Machine.execFaNeg gd t src s
  | .faCsgn gd t src => Sys2Proof.Machine.execFaCsgn gd t src s
  | .faRint gd t src => Sys2Proof.Machine.execFaRint gd t src s
  | .faFrac gd t src => Sys2Proof.Machine.execFaFrac gd t src s
  | .xfRcp gd src => Sys2Proof.Machine.execXfRcp gd src s
  | .xfRsqrt gd src => Sys2Proof.Machine.execXfRsqrt gd src s
  | .xfSqrt gd src => Sys2Proof.Machine.execXfSqrt gd src s
  | .xfDiv gd src => Sys2Proof.Machine.execXfDiv gd src s
  | .xfExp2 gd src => Sys2Proof.Machine.execXfExp2 gd src s
  | .xfLog2 gd src => Sys2Proof.Machine.execXfLog2 gd src s
  | .xfSinpi gd src => Sys2Proof.Machine.execXfSinpi gd src s
  | .xfCospi gd src => Sys2Proof.Machine.execXfCospi gd src s
  | .xfTanh gd src => Sys2Proof.Machine.execXfTanh gd src s
  | .xfSigm gd src => Sys2Proof.Machine.execXfSigm gd src s
  | .cvUp gd sl src => Sys2Proof.Machine.execCvUp gd sl src s
  | .cvDn gd sl src => Sys2Proof.Machine.execCvDn gd sl src s
  | .cvDot gd sl src => Sys2Proof.Machine.execCvDot gd sl src s
  | .cvSc gd sl src => Sys2Proof.Machine.execCvSc gd sl src s
  | .cxF2bf gd src => Sys2Proof.Machine.execCxF2bf gd src s
  | .cxF2bfZ gd src => Sys2Proof.Machine.execCxF2bfZ gd src s
  | .cxF2h gd src => Sys2Proof.Machine.execCxF2h gd src s
  | .cxF2hZ gd src => Sys2Proof.Machine.execCxF2hZ gd src s
  | .cxBf2f gd src => Sys2Proof.Machine.execCxBf2f gd src s
  | .cxH2f gd src => Sys2Proof.Machine.execCxH2f gd src s
  | .cxF2i gd src => Sys2Proof.Machine.execCxF2i gd src s
  | .cxF2iZ gd src => Sys2Proof.Machine.execCxF2iZ gd src s
  | .cxF2ui gd src => Sys2Proof.Machine.execCxF2ui gd src s
  | .cxF2uiZ gd src => Sys2Proof.Machine.execCxF2uiZ gd src s
  | .cxI2f gd src => Sys2Proof.Machine.execCxI2f gd src s
  | .cxUi2f gd src => Sys2Proof.Machine.execCxUi2f gd src s
  | .cxPack gd src => Sys2Proof.Machine.execCxPack gd src s
  | .cxUnpack gd src => Sys2Proof.Machine.execCxUnpack gd src s
  | .lsLdB gd src => Sys2Proof.Machine.execLsLdB gd src s
  | .lsLdBs gd src => Sys2Proof.Machine.execLsLdBs gd src s
  | .lsLdH gd src => Sys2Proof.Machine.execLsLdH gd src s
  | .lsLdHs gd src => Sys2Proof.Machine.execLsLdHs gd src s
  | .lsLdW gd src => Sys2Proof.Machine.execLsLdW gd src s
  | .lsStB gd src => Sys2Proof.Machine.execLsStB gd src s
  | .lsStH gd src => Sys2Proof.Machine.execLsStH gd src s
  | .lsStW gd src => Sys2Proof.Machine.execLsStW gd src s
  | .lsAtAdd gd src => Sys2Proof.Machine.execLsAtAdd gd src s
  | .lsAtAnd gd src => Sys2Proof.Machine.execLsAtAnd gd src s
  | .lsAtOr gd src => Sys2Proof.Machine.execLsAtOr gd src s
  | .lsAtXor gd src => Sys2Proof.Machine.execLsAtXor gd src s
  | .lsAtMinS gd src => Sys2Proof.Machine.execLsAtMinS gd src s
  | .lsAtMaxS gd src => Sys2Proof.Machine.execLsAtMaxS gd src s
  | .lsAtMinU gd src => Sys2Proof.Machine.execLsAtMinU gd src s
  | .lsAtMaxU gd src => Sys2Proof.Machine.execLsAtMaxU gd src s
  | .lsAtXchg gd src => Sys2Proof.Machine.execLsAtXchg gd src s
  | .lsAtCas gd src => Sys2Proof.Machine.execLsAtCas gd src s
  | .lsAtFadd gd src => Sys2Proof.Machine.execLsAtFadd gd src s
  | .lsPf gd src => Sys2Proof.Machine.execLsPf gd src s
  | .lsCwb gd src => Sys2Proof.Machine.execLsCwb gd src s
  | .lsCinvWb gd src => Sys2Proof.Machine.execLsCinvWb gd src s
  | .lsCinvDis gd src => Sys2Proof.Machine.execLsCinvDis gd src s
  | .lsFence gd src => Sys2Proof.Machine.execLsFence gd src s
  | .lsPol gd src => Sys2Proof.Machine.execLsPol gd src s
  | .spLdB gd src => Sys2Proof.Machine.execSpLdB gd src s
  | .spLdH gd src => Sys2Proof.Machine.execSpLdH gd src s
  | .spLdW gd src => Sys2Proof.Machine.execSpLdW gd src s
  | .spStB gd src => Sys2Proof.Machine.execSpStB gd src s
  | .spStH gd src => Sys2Proof.Machine.execSpStH gd src s
  | .spStW gd src => Sys2Proof.Machine.execSpStW gd src s
  | .spAtAdd gd src => Sys2Proof.Machine.execSpAtAdd gd src s
  | .spAtCas gd src => Sys2Proof.Machine.execSpAtCas gd src s
  | .spAtXchg gd src => Sys2Proof.Machine.execSpAtXchg gd src s
  | .xlTakeIx gd src => Sys2Proof.Machine.execXlTakeIx gd src s
  | .xlTakeRot gd src => Sys2Proof.Machine.execXlTakeRot gd src s
  | .xlTakeSh gd src => Sys2Proof.Machine.execXlTakeSh gd src s
  | .xlTakeMir gd src => Sys2Proof.Machine.execXlTakeMir gd src s
  | .xlSpread gd src => Sys2Proof.Machine.execXlSpread gd src s
  | .xlSum gd src => Sys2Proof.Machine.execXlSum gd src s
  | .xlMinS gd src => Sys2Proof.Machine.execXlMinS gd src s
  | .xlMaxS gd src => Sys2Proof.Machine.execXlMaxS gd src s
  | .xlAnd gd src => Sys2Proof.Machine.execXlAnd gd src s
  | .xlOr gd src => Sys2Proof.Machine.execXlOr gd src s
  | .xlFsum gd src => Sys2Proof.Machine.execXlFsum gd src s
  | .xlEvery gd src => Sys2Proof.Machine.execXlEvery gd src s
  | .xlSome gd src => Sys2Proof.Machine.execXlSome gd src s
  | .xlMask gd src => Sys2Proof.Machine.execXlMask gd src s
  | .xlPreAdd gd src => Sys2Proof.Machine.execXlPreAdd gd src s
  | .xlPreFadd gd src => Sys2Proof.Machine.execXlPreFadd gd src s
  | .quEnq gd src => Sys2Proof.Machine.execQuEnq gd src s
  | .quClaim gd src => Sys2Proof.Machine.execQuClaim gd src s
  | .quPub gd src => Sys2Proof.Machine.execQuPub gd src s
  | .quBindU gd src => Sys2Proof.Machine.execQuBindU gd src s
  | .quBindS gd src => Sys2Proof.Machine.execQuBindS gd src s
  | .quUnbind gd src => Sys2Proof.Machine.execQuUnbind gd src s
  | .quAvail gd src => Sys2Proof.Machine.execQuAvail gd src s
  | .quCreate gd src => Sys2Proof.Machine.execQuCreate gd src s
  | .quDestroy gd src => Sys2Proof.Machine.execQuDestroy gd src s
  | .quTsnow gd src => Sys2Proof.Machine.execQuTsnow gd src s
  | .enCp gd src => Sys2Proof.Machine.execEnCp gd src s
  | .enCp2d gd src => Sys2Proof.Machine.execEnCp2d gd src s
  | .enCpb gd src => Sys2Proof.Machine.execEnCpb gd src s
  | .enCpt gd src => Sys2Proof.Machine.execEnCpt gd src s
  | .enGa gd src => Sys2Proof.Machine.execEnGa gd src s
  | .enSc gd src => Sys2Proof.Machine.execEnSc gd src s
  | .enFill gd src => Sys2Proof.Machine.execEnFill gd src s
  | .enStatus gd src => Sys2Proof.Machine.execEnStatus gd src s
  | .mxMma gd sl src => Sys2Proof.Machine.execMxMma gd sl src s
  | .mxMms gd sl src => Sys2Proof.Machine.execMxMms gd sl src s
  | .mxEpi gd sl src => Sys2Proof.Machine.execMxEpi gd sl src s
  | .mxReq gd src => Sys2Proof.Machine.execMxReq gd src s
  | .mxRel gd src => Sys2Proof.Machine.execMxRel gd src s
  | .mxRet gd src => Sys2Proof.Machine.execMxRet gd src s
  | .mxZero gd src => Sys2Proof.Machine.execMxZero gd src s
  | .mxAbft gd src => Sys2Proof.Machine.execMxAbft gd src s
  | .ctJmp gd src => Sys2Proof.Machine.execCtJmp gd src s
  | .ctBr gd src => Sys2Proof.Machine.execCtBr gd src s
  | .ctCall gd src => Sys2Proof.Machine.execCtCall gd src s
  | .ctLoop gd src => Sys2Proof.Machine.execCtLoop gd src s
  | .ctLbrk gd src => Sys2Proof.Machine.execCtLbrk gd src s
  | .ctSpawn gd src => Sys2Proof.Machine.execCtSpawn gd src s
  | .ctLaunch gd src => Sys2Proof.Machine.execCtLaunch gd src s
  | .ctExit gd src => Sys2Proof.Machine.execCtExit gd src s
  | .ctBarMeet gd src => Sys2Proof.Machine.execCtBarMeet gd src s
  | .ctBarSign gd src => Sys2Proof.Machine.execCtBarSign gd src s
  | .ctBarHold gd src => Sys2Proof.Machine.execCtBarHold gd src s
  | .ctWait gd src => Sys2Proof.Machine.execCtWait gd src s
  | .ctYield gd src => Sys2Proof.Machine.execCtYield gd src s
  | .ctTrap gd src => Sys2Proof.Machine.execCtTrap gd src s
  | .ctRcvw gd src => Sys2Proof.Machine.execCtRcvw gd src s
  | .syRdsr gd src => Sys2Proof.Machine.execSyRdsr gd src s
  | .syWrsr gd src => Sys2Proof.Machine.execSyWrsr gd src s
  | .syTlbinv gd src => Sys2Proof.Machine.execSyTlbinv gd src s
  | .syPmap gd src => Sys2Proof.Machine.execSyPmap gd src s
  | .sySret gd src => Sys2Proof.Machine.execSySret gd src s
  | .syMbox gd src => Sys2Proof.Machine.execSyMbox gd src s
  | .syLnk gd src => Sys2Proof.Machine.execSyLnk gd src s
  | .syDctl gd src => Sys2Proof.Machine.execSyDctl gd src s
  | .syInj gd src => Sys2Proof.Machine.execSyInj gd src s
  | .syPart gd src => Sys2Proof.Machine.execSyPart gd src s
  | .bundleIssue => Sys2Proof.Machine.execBundleIssue s
  | .bundleFetch => Sys2Proof.Machine.execBundleFetch s
  | .bundleDeliveredTrap => Sys2Proof.Machine.execBundleDeliveredTrap s
  | .sequencerFill => Sys2Proof.Machine.execSequencerFill s
  | .spillTimeout => Sys2Proof.Machine.execSpillTimeout s
  | .resultReady => Sys2Proof.Machine.execResultReady s
  | .loadBind => Sys2Proof.Machine.execLoadBind s
  | .storePerformed => Sys2Proof.Machine.execStorePerformed s
  | .atomicPerformed => Sys2Proof.Machine.execAtomicPerformed s
  | .lineOperationPerformed => Sys2Proof.Machine.execLineOperationPerformed s
  | .fenceComplete => Sys2Proof.Machine.execFenceComplete s
  | .walkComplete => Sys2Proof.Machine.execWalkComplete s
  | .windowCommit => Sys2Proof.Machine.execWindowCommit s
  | .rollback => Sys2Proof.Machine.execRollback s
  | .rollbackEnd => Sys2Proof.Machine.execRollbackEnd s
  | .escDecay => Sys2Proof.Machine.execEscDecay s
  | .noWindowPeriodEnd => Sys2Proof.Machine.execNoWindowPeriodEnd s
  | .leaseExpiry => Sys2Proof.Machine.execLeaseExpiry s
  | .watchNotice => Sys2Proof.Machine.execWatchNotice s
  | .hostAccess => Sys2Proof.Machine.execHostAccess s
  | .hostGrant => Sys2Proof.Machine.execHostGrant s
  | .hostRecall => Sys2Proof.Machine.execHostRecall s
  | .drawerRequest => Sys2Proof.Machine.execDrawerRequest s
  | .outboundSwath => Sys2Proof.Machine.execOutboundSwath s
  | .inboundSwath => Sys2Proof.Machine.execInboundSwath s
  | .frameBoundary => Sys2Proof.Machine.execFrameBoundary s
  | .fecWindowEnd => Sys2Proof.Machine.execFecWindowEnd s
  | .retrainStart => Sys2Proof.Machine.execRetrainStart s
  | .handBack => Sys2Proof.Machine.execHandBack s
  | .channelFailure => Sys2Proof.Machine.execChannelFailure s
  | .fullRetrainEnd => Sys2Proof.Machine.execFullRetrainEnd s
  | .autoWake => Sys2Proof.Machine.execAutoWake s
  | .wakeEnd => Sys2Proof.Machine.execWakeEnd s
  | .linkStall => Sys2Proof.Machine.execLinkStall s
  | .peerPacket => Sys2Proof.Machine.execPeerPacket s
  | .peerTimeout => Sys2Proof.Machine.execPeerTimeout s
  | .queueControllerOp => Sys2Proof.Machine.execQueueControllerOp s
  | .queueAnswer => Sys2Proof.Machine.execQueueAnswer s
  | .latchRefill => Sys2Proof.Machine.execLatchRefill s
  | .engineLineTransfer => Sys2Proof.Machine.execEngineLineTransfer s
  | .releasePoint => Sys2Proof.Machine.execReleasePoint s
  | .batonGrant => Sys2Proof.Machine.execBatonGrant s
  | .agingPromotion => Sys2Proof.Machine.execAgingPromotion s
  | .batonRelease => Sys2Proof.Machine.execBatonRelease s
  | .watchdog => Sys2Proof.Machine.execWatchdog s
  | .mmaComplete => Sys2Proof.Machine.execMmaComplete s
  | .retComplete => Sys2Proof.Machine.execRetComplete s
  | .epiChunk => Sys2Proof.Machine.execEpiChunk s
  | .barrierTimeout => Sys2Proof.Machine.execBarrierTimeout s
  | .mailboxPost => Sys2Proof.Machine.execMailboxPost s
  | .cmack => Sys2Proof.Machine.execCmack s
  | .resume => Sys2Proof.Machine.execResume s
  | .killwave => Sys2Proof.Machine.execKillwave s
  | .killteam => Sys2Proof.Machine.execKillteam s
  | .lqdoor => Sys2Proof.Machine.execLqdoor s
  | .launchAccept => Sys2Proof.Machine.execLaunchAccept s
  | .placement => Sys2Proof.Machine.execPlacement s
  | .teamTransfer => Sys2Proof.Machine.execTeamTransfer s
  | .stealRequest => Sys2Proof.Machine.execStealRequest s
  | .stealAnswer => Sys2Proof.Machine.execStealAnswer s
  | .yieldDeadline => Sys2Proof.Machine.execYieldDeadline s
  | .waitSwap => Sys2Proof.Machine.execWaitSwap s
  | .teamSwap => Sys2Proof.Machine.execTeamSwap s
  | .launchComplete => Sys2Proof.Machine.execLaunchComplete s
  | .completionRetry => Sys2Proof.Machine.execCompletionRetry s
  | .resize => Sys2Proof.Machine.execResize s
  | .spawnBinArrival => Sys2Proof.Machine.execSpawnBinArrival s
  | .binTimeout => Sys2Proof.Machine.execBinTimeout s
  | .taskWavePending => Sys2Proof.Machine.execTaskWavePending s
  | .dieStatus => Sys2Proof.Machine.execDieStatus s
  | .dieQuiesce => Sys2Proof.Machine.execDieQuiesce s
  | .writeBack => Sys2Proof.Machine.execWriteBack s
  | .reHome => Sys2Proof.Machine.execReHome s
  | .homeOffline => Sys2Proof.Machine.execHomeOffline s
  | .dieReset => Sys2Proof.Machine.execDieReset s
  | .selftest => Sys2Proof.Machine.execSelftest s
  | .dieReadmit => Sys2Proof.Machine.execDieReadmit s
  | .copyBack => Sys2Proof.Machine.execCopyBack s
  | .dieFailure => Sys2Proof.Machine.execDieFailure s
  | .coldStart => Sys2Proof.Machine.execColdStart s
  | .supplySag => Sys2Proof.Machine.execSupplySag s
  | .stretchFall => Sys2Proof.Machine.execStretchFall s
  | .temperatureSensor => Sys2Proof.Machine.execTemperatureSensor s
  | .featack => Sys2Proof.Machine.execFeatack s
  | .attctl => Sys2Proof.Machine.execAttctl s
  | .attestationReport => Sys2Proof.Machine.execAttestationReport s
  | .swcommit => Sys2Proof.Machine.execSwcommit s
  | .lctl => Sys2Proof.Machine.execLctl s
  | .berthr => Sys2Proof.Machine.execBerthr s
  | .qtbase => Sys2Proof.Machine.execQtbase s
  | .qtlen => Sys2Proof.Machine.execQtlen s
  | .ptbase => Sys2Proof.Machine.execPtbase s
  | .mwbase => Sys2Proof.Machine.execMwbase s
  | .mwlim => Sys2Proof.Machine.execMwlim s
  | .clvlo => Sys2Proof.Machine.execClvlo s
  | .clvhi => Sys2Proof.Machine.execClvhi s
  | .msixUnmask => Sys2Proof.Machine.execMsixUnmask s
  | .registerWrite => Sys2Proof.Machine.execRegisterWrite s
  | .injAbft => Sys2Proof.Machine.execInjAbft s
  | .injSoft => Sys2Proof.Machine.execInjSoft s
  | .injUncorr => Sys2Proof.Machine.execInjUncorr s
  | .injTwin => Sys2Proof.Machine.execInjTwin s
  | .storeBufferEntryReady => Sys2Proof.Machine.execStoreBufferEntryReady s
  | .scratchpadWriteBack => Sys2Proof.Machine.execScratchpadWriteBack s
  | .dieOffline => Sys2Proof.Machine.execDieOffline s
  | .homeTableUpdate => Sys2Proof.Machine.execHomeTableUpdate s
  | .biasFlip => Sys2Proof.Machine.execBiasFlip s
  | .softError => Sys2Proof.Machine.execSoftError s
  | .dieTlbLookup => Sys2Proof.Machine.execDieTlbLookup s
  | .launchDistribution => Sys2Proof.Machine.execLaunchDistribution s

end Sys2Proof.Machine
end

