-- ==== Sys2Proof/Machine/Due.lean ====
section
/-! DEFINITION. What happens in a cycle: the events whose conditions hold, the fragment a core issues, and the end of the cycle. Each event
is named with its operands. -/
namespace Sys2Proof.Machine

/-- The first entry of a table that satisfies `p`. -/
def firstWhere {α : Type} (m : Map α) (p : Nat × α → Bool) : Option (Nat × α) := List.find? p m

/-- The first step of the agenda, when it is due. -/
def State.agendaDue (s : State) : Option (Instr × List Nat × List (Nat × Instr × List Nat)) :=
  match s.agenda with
  | (t, i, a) :: r => if t ≤ s.now then some (i, a, r) else none
  | [] => none

/-- A wave's window commits (R288). -/
def State.commitDue (s : State) : Option (Instr × List Nat) :=
  (firstWhere s.waves fun (_, x) => x.mayCommit).map fun (w, _) => (.windowCommit, [w])

/-- A sequencer is free for a spilled fragment, or a spilled fragment's wait is over (R32). -/
def State.seqDue (s : State) : Option (Instr × List Nat) :=
  match firstWhere s.waves fun (_, x) => x.ctx.canFill with
  | some (w, _) => some (.sequencerFill, [w])
  | none => (firstWhere s.waves fun (_, x) => x.ctx.spillDue s.now).map fun (w, _) => (.spillTimeout, [w])

/-- Whether a fragment's next bundle is to be fetched (R46). -/
def Wave.fetches (x : Wave) (g : Seq) : Bool := x.stop == .running && !x.dead && decide (x.from_ < notYet) && g.parked.isNone && !g.kept && g.fetch == .need

/-- A fragment's next bundle is fetched (R46). -/
def State.fetchDue (s : State) : Option (Instr × List Nat) :=
  s.waves.findSome? fun (w, x) => (firstWhere x.ctx.seqs fun (_, g) => x.fetches g).map fun (q, _) => (.bundleFetch, [w, q])

/-- A fragment has reached its reconvergence bundle (R30). -/
def State.parkDue (s : State) : Option (Instr × List Nat) :=
  s.waves.findSome? fun (w, x) => (firstWhere x.ctx.seqs fun (q, _) => (s.parksAt w q).isSome).map fun (q, _) => (.bundleIssue, [w, q, 0])

/-- A team's swap begins, or its operations have drained (R352, R369). -/
def State.teamDue (s : State) : Option (Instr × List Nat) :=
  match firstWhere s.teams fun (_, t) => s.swapDue t with
  | some (id, _) => some (.teamSwap, [id, 0])
  | none => (firstWhere s.teams fun (_, t) => s.drained t).map fun (id, _) => (.teamSwap, [id, 1])

/-- A launch is complete (R342), or a cohort that is away is to come back (R346). -/
def State.launchDue (s : State) : Option (Instr × List Nat) :=
  match firstWhere s.launches fun (id, l) => !l.done && s.launchDone id l with
  | some (id, _) => some (.launchComplete, [id])
  | none => (firstWhere s.launches fun (id, l) => s.cohortDue id l).map fun (id, l) => (.launchAccept, [l.part, 7, id])

/-- A distributor begins to steal (R347), a quiesced die goes on (R417), or a resize does (R354). -/
def State.dieDue (s : State) : Option (Instr × List Nat) :=
  match (List.range 4).find? fun d => s.bootstat == 1 && s.stealDue d with
  | some d => some (.stealRequest, [d])
  | none => match (List.range 4).find? fun d => s.quiesced d with
    | some d => some (.writeBack, [d, 0])
    | none => if s.anyFrozen then none else s.resizeDue.map fun r => (.resize, [r.source, r.clover, r.target, 2])

/-- ESC falls: 4,096 resident cycles without a rollback have passed, and no run without windows keeps it (R293, R297). -/
def State.escDue (s : State) : Option (Instr × List Nat) :=
  (firstWhere s.waves fun (_, x) => x.escOver s.now).map fun (w, x) => (.escDecay, [w, x.escStamp])

/-- The first event whose condition holds now. -/
def State.conditionDue (s : State) : Option (Instr × List Nat) :=
  s.escDue <|> s.commitDue <|> s.teamDue <|> s.seqDue <|> s.fetchDue <|> s.parkDue <|> s.launchDue <|> s.dieDue

/-- The cores that hold a wave. -/
def State.busyCores (s : State) : List Nat := (s.waves.map fun (w, _) => coreOf w).eraseDups

/-- The bundle that a core with a free issue slot issues now (R60, R355), or the trap delivered in its place (R358). -/
def State.issueDue (s : State) : Option (Instr × List Nat) :=
  s.busyCores.findSome? fun k =>
    if s.now < (s.core k).free then none
    else (s.choose k).map fun (w, q) => if s.trapDue w q then (.bundleDeliveredTrap, [w, q]) else (.bundleIssue, [w, q, 0])

/-- A team is swapped for its waits (R351): it has not issued in this cycle either. -/
def State.waitDue (s : State) : Option (Instr × List Nat) :=
  (firstWhere s.teams fun (_, t) => s.waitSwapDue t).map fun (id, _) => (.waitSwap, [id])

/-- A distributor decides, after the bundles of its cycle (R345, R468). -/
def State.placeDue (s : State) : Option (Instr × List Nat) :=
  ((List.range 4).find? fun d => (s.die d).placeAt == some s.now && (s.die d).stepAt != some s.now && (s.die d).state == .run && !(s.die d).items.isEmpty).map
    fun d => (.placement, [d])

/-- What the step carries out, with its operands; none when the cycle is over. -/
def State.due (s : State) : Option (Instr × List Nat) := s.conditionDue <|> s.issueDue <|> s.waitDue <|> s.placeDue

/-- A fragment that is not ready in this cycle is ready from the next one on at the earliest (R355); one in a counted wait has waited since the
first of the cycles in which it has been held so (R351). -/
def State.keepSince (s : State) (w : Nat) (x : Wave) : Wave :=
  { x with ctx := { x.ctx with seqs := x.ctx.seqs.map fun ((q, g) : Nat × Seq) =>
    let r := s.fragReady w q
    let g := { g with waiting := if r = .counted then some (g.waiting.getD s.now) else none }
    (q, if g.since ≤ s.now ∧ r ≠ .yes then { g with since := s.now + 1 } else g) } }

/-- The end of a cycle: counts of readiness and of wait-swaps go on (R351, R355), and the time base runs (R220). (DESIGN CHOICE, log 36) -/
def State.tick (s : State) : State :=
  { s with
    waves := s.waves.map fun ((w, x) : Nat × Wave) => (w, s.keepSince w x)
    teams := s.teams.map fun ((k, t) : Nat × Team) => (k, if s.restartsCount t then { t with lastIssue := s.now } else t)
    now := s.now + 1
    time := if Config.nsTick s.level s.now then s.time + 1 else s.time }

/-! A program at hand. -/

/-- The virtual address of the bundle that `withProgram` places. -/
def programVa : Nat := 0x10000

/-- The page that holds it: VA and PA 0x10000. -/
def programPage : Page :=
  { vpn := 1, big := false, part := 0, pa := 0x10000, r := true, w := true, x := true, supo := false, coh := 0, dis := false, hb := false, flip := false }

/-- A launch record of one team of one wave. -/
def programRecord : LaunchRec :=
  { entry := BitVec.ofNat 64 programVa, teams := 1, waves := 1, scratch := 0, cohort := false, shadow := false, prio := 0, scrwin := 0, backed := false,
    args := [], fmt := [], complq := 0, ydl := 0, maxpass := 0, waitswap := 31, barto := 0, utag := 0 }

/-- A launch in progress with that record. -/
def programLaunch : Launch :=
  { addr := 0, part := 0, lrec := programRecord, die := 0, killed := 0, started := none, finished := none, status := 0, left := 1, tasks := 0, moved := 0,
    posting := false, done := false, reports := [], plan := [] }

/-- Its team, in wave slot 0 of core 0. -/
def programTeam : Team :=
  { launch := 0, number := 0, task := false, waves := 1, state := .resident, core := 0, slots := [(0, 0)], killed := [], retired := [], scratch := 0,
    granule := 0, bytes := [], window := [], spec := [], arr := [], ph := [], timer := [], timing := [], abn := [], owner := 0, placed := 0,
    deadline := none, past := false, lastIssue := 0, saved := [], area := none, args := [], entry := BitVec.ofNat 64 programVa, threads := [], moved := false,
    stage := 0, tested := 0 }

/-- Its wave: one fragment of 32 lanes, whose first bundle has been fetched. -/
def programWave (now : Nat) : Wave :=
  { Wave.blank with ctx := { Ctx.start with seqs := [(0, { Seq.start (BitVec.ofNat 64 programVa) (BitVec.allOnes 32) now with fetch := .ready })] } }

/-- A machine in READY whose only work is the bundle of the given words, at hand in wave slot 0 of core 0. -/
def State.withProgram (s : State) (ws : List Nat) : State :=
  { s with
    bootstat := 1, featack := 0xFFF, featSet := true, stopped := false, cur := none, ev := []
    agenda := s.agenda.filter fun (t, _, _) => decide (s.now < t)
    waves := [(0, programWave s.now)], teams := [(0, { programTeam with placed := s.now, lastIssue := s.now })], launches := [(0, programLaunch)]
    cores := Map.put s.cores 0 { Core.reset with tlb := [programPage] }
    dies := (List.range 4).map fun d => (d, { s.die d with state := .run, phase := 0, stealAt := s.now + 1 })
    resizes := [], walks := [], tasks := []
    parts := Map.put s.parts 0 (let p := s.part 0; { p with mwbase := Map.put p.mwbase 0 0x10000#64, mwlim := Map.put p.mwlim 0 0x10000#64 })
    mem := Memory.writeAll s.mem 0x10000 (ws.flatMap (toBytes 4)) }

end Sys2Proof.Machine
end

