-- ==== Sys2Proof/Machine/Step.lean ====
section
/-! DEFINITION. The step: the next event that is due, the bundle a core issues, or the end of the cycle; each is carried out by `exec`. -/
namespace Sys2Proof.Machine

/-- Carries out an instruction whose operands, if it is an event, are `a`. -/
def State.run (s : State) (i : Instr) (a : List Nat) : Host.Outcome State Fault Refusal := exec i { s with ev := a }

/-- One step: first what the agenda holds for this cycle, then the events whose conditions hold, then the bundles that the cores issue;
when nothing is left, the cycle ends. A stopped package stops (R424). (DESIGN CHOICE, log 82) -/
def step (s : State) : Host.Outcome State Fault Refusal :=
  if s.stopped then .fault .packageStopped
  else match s.agendaDue with
    | some (i, a, r) => State.run { s with agenda := r } i a
    | none => match s.due with
      | some (i, a) => s.run i a
      | none => .next s.tick

/-- The state with one instruction at hand, so that the next step runs it: a bundle of one move, with two long-immediate words of zeros. (DESIGN CHOICE, log 1) -/
def State.withFetchWord (s : State) (nbits w : Nat) : State := s.withProgram [0x30000000, w % 2 ^ nbits % 2 ^ 32, 0, 0]

end Sys2Proof.Machine
end

