-- ==== Sys2Proof/Safety.lean ====
section
/-! DEFINITION. The terms that claims are stated in: a safe run, the inputs of a move of the bundle in progress, what a step leaves
alone, and the operations that a later event carries out. -/
namespace Sys2Proof.Machine

/-- `n` steps from `s` lead to `t`, and none of them stops. -/
def Reaches : Nat → State → State → Prop
  | 0, s, t => s = t
  | n + 1, s, t => ∃ u, step s = .next u ∧ Reaches n u t

/-- A run of `n` steps from `s` is safe: it never faults and is never refused. -/
def Safe (n : Nat) (s : State) : Prop := ∃ t, Reaches n s t

/-- `m` is what a move with guard `gd` and source `src` acts on: the bundle in progress, its wave, the enabled lanes, and the
source value of each lane (R24, R54, R55). -/
structure State.Issues (s : State) (gd : Guard) (src : Src) (m : MoveIn) : Prop where
  cur : s.cur = some m.c
  wave : s.wave? m.c.wave = some m.x
  en : m.en = slotEn m.c m.x gd
  t : m.t = s.slotSrc m.c m.x src

/-- `t` differs from `s` in nothing but its waves, and there in nothing but wave `w`. -/
def State.OnlyWave (s t : State) (w : Nat) : Prop := t = { s with waves := t.waves } ∧ ∀ v, v ≠ w → t.wave? v = s.wave? v

/-- `t` differs from `s` in nothing but its agenda and its waves, and there in nothing but wave `w`. -/
def State.OnlyWaveAndAgenda (s t : State) (w : Nat) : Prop :=
  t = { s with waves := t.waves, agenda := t.agenda } ∧ ∀ v, v ≠ w → t.wave? v = s.wave? v

/-- Every byte of memory, of every scratchpad, of the drawer and of every B-store reads in `t` as in `s`; and so does every byte as a program sees it, through
scratch windows too, while the teams stand in order, as they do in every run. -/
def State.SameMemory (s t : State) : Prop :=
  (∀ a, Memory.read t.mem a = Memory.read s.mem a) ∧ (∀ k a, t.scrByte k a = s.scrByte k a) ∧ (∀ a, Memory.read t.drawer a = Memory.read s.drawer a) ∧
    (∀ c a, Memory.read (t.clover c).bstore a = Memory.read (s.clover c).bstore a) ∧
    ((s.teams.Pairwise fun p q => p.1 < q.1) → ∀ a, t.byte a = s.byte a)

/-- A step on the agenda of `t` at cycle `c`. -/
def State.Due (t : State) (c : Nat) (i : Instr) (a : List Nat) : Prop := (c, i, a) ∈ t.agenda

/-- The trap a slot raises is what an instruction on its own answers with: the trap is taken at the slot (R63, R359). -/
def State.traps (s : State) (m : MoveIn) (cause : Nat) (mask : Mask) (info : Dword) : Host.Outcome State Fault Refusal :=
  .next (s.takeTrap m.c.wave m.c.seq { cause := cause, slot := m.c.slot, mask := mask, info := info, pc := none } m.c.cap.addr (some m.c.cap))

/-- The guard of a move; an event has none. -/
def moveGuard (i : Instr) : Option Guard := (moveFields i).map (·.gd)

/-- The source of a move. -/
def moveSource (i : Instr) : Option Src := (moveFields i).map (·.src)

/-- Every memory of a state is in its canonical form, and the teams, whose scratchpads are memories, stand in order. -/
def State.memoriesWf (s : State) : Prop :=
  Memory.wf s.mem = true ∧ Memory.wf s.drawer = true ∧ Memory.wf s.attNonce = true ∧ Memory.wf s.attRep = true ∧
    (∀ k c, Map.find? s.clovers k = some c → Memory.wf c.bstore = true) ∧ (∀ k t, s.team? k = some t → Memory.wf t.bytes = true) ∧
    s.teams.Pairwise fun p q => p.1 < q.1

end Sys2Proof.Machine
end

