-- ==== Sys2Proof/Certificates/Slice0/Obligations.lean ====
section
/-! DEFINITION. The statements for the provers. -/
open Sys2Proof Sys2Proof.Machine

/-! Encoding (02_bundle_encoding.md). -/

/-- The words of the spec's own examples, and words written out from R47 to R62, decode to the moves they stand for: at least one of
every family (R49, R51, R62, R128). -/
def Obligations.DecodeWords : Prop :=
  decodeMove 0x22800004 = .ok (.latchWrite ⟨false, 2⟩ .ma .o1 (.main 4)) ∧
  decodeMove 0x22A06003 = .ok (.latchWrite ⟨false, 2⟩ .ma .o2 (.imm 3)) ∧
  decodeMove 0x22C36001 = .ok (.maMadLo ⟨false, 2⟩ .a (.imm 1)) ∧
  decodeMove 0xA3C16001 = .ok (.saShr ⟨true, 2⟩ .a (.imm 1)) ∧
  decodeMove 0x00098000 = .ok (.moveM0 ⟨false, 0⟩ 9 (.long 0)) ∧
  decodeMove 0x00890004 = .ok (.moveM1 ⟨false, 0⟩ 9 (.main 4)) ∧
  decodeMove 0x24416001 = .ok (.saShr ⟨false, 2⟩ .b (.imm 1)) ∧
  decodeMove 0x01DA400D = .ok (.iaAddCo ⟨false, 0⟩ .a (.port .ia .hi)) ∧
  decodeMove 0x35C30007 = .ok (.faFma ⟨false, 3⟩ .b (.main 7)) ∧
  decodeMove 0x06D18000 = .ok (.cvDot ⟨false, 0⟩ 1 (.long 0)) ∧
  decodeMove 0x07802204 = .ok (.latchWrite ⟨false, 0⟩ .ls .o1 (.base 4)) ∧
  decodeMove 0x07C80008 = .ok (.lsAtAdd ⟨false, 0⟩ (.main 8)) ∧
  decodeMove 0x0009403C = .ok (.moveM0 ⟨false, 0⟩ 9 (.port .ls .res)) ∧
  decodeMove 0x08426000 = .ok (.spLdW ⟨false, 0⟩ (.imm 0)) ∧
  decodeMove 0x01802700 = .ok (.latchWrite ⟨false, 0⟩ .ia .o1 .lane) ∧
  decodeMove 0x0109400C = .ok (.moveLf ⟨false, 0⟩ (.guard 1) (.port .ia .res)) ∧
  decodeMove 0x0AC36028 = .ok (.ctLoop ⟨false, 0⟩ (.imm 40)) ∧
  decodeMove 0x9AC1601C = .ok (.ctBr ⟨true, 1⟩ (.imm 28)) ∧
  decodeMove 0x00052600 = .ok (.moveM0 ⟨false, 0⟩ 5 (.index 0)) ∧
  decodeMove 0x28CE0003 = .ok (.xlPreAdd ⟨false, 2⟩ (.main 3)) ∧
  decodeMove 0x04C10001 = .ok (.ckRng ⟨false, 0⟩ (.main 1)) ∧
  decodeMove 0x06430001 = .ok (.xfDiv ⟨false, 0⟩ (.main 1)) ∧
  decodeMove 0x074D2401 = .ok (.cxUnpack ⟨false, 0⟩ (.pair 1)) ∧
  decodeMove 0x09406001 = .ok (.quEnq ⟨false, 0⟩ (.imm 1)) ∧
  decodeMove 0x09C72302 = .ok (.enStatus ⟨false, 0⟩ (.baseHi 2)) ∧
  decodeMove 0x0A5A250B = .ok (.mxRet ⟨false, 0⟩ (.head 1 3)) ∧
  decodeMove 0x0B447FFF = .ok (.sySret ⟨false, 0⟩ (.imm 8191))

/-- Decode and encode agree, both ways: decode of encode gives back every well-formed move, every operand at every value the encoding admits; and a word
that decodes is the one word of a well-formed move, so no move word has two meanings (R47 to R53, R62). -/
def Obligations.DecodeAndEncodeAgree : Prop :=
  (∀ i w, i.wellFormed = true → encode i = some w → w < 2 ^ 32 ∧ decodeMove w = .ok i) ∧
  ∀ w i, w < 2 ^ 32 → decodeMove w = .ok i → i.wellFormed = true ∧ encode i = some w

/-- How many operations each unit has (the counts of R62). -/
def opCount : FuncUnit → Nat
  | .ia | .ib => 29 | .ma | .mb => 10 | .sa | .sb => 14 | .ck => 3 | .fa | .fb => 20 | .xf => 10 | .cv => 32 | .cx => 14 | .ls => 25
  | .sp => 9 | .xl => 16 | .qu => 10 | .en => 8 | .mx => 29 | .ct => 15 | .sy => 10

/-- The bundle header: its fields stand where R44 puts them, and it is refused exactly where R64 says.
Every move encoding that R64 names is refused: reserved units and destinations, latch writes with OP ≠ 0 or to a latch the unit
lacks, reserved operations, and reserved sources. -/
def Obligations.HeadersAndReservedEncodings : Prop :=
  ((∀ h : Header, (h.rcv = false → h.rtok = 0) → encodeHeader h < 2 ^ 32 ∧ decodeHeader (encodeHeader h) = .ok h) ∧
  (∀ w h, w < 2 ^ 32 → decodeHeader w = .ok h → encodeHeader h = w) ∧
  ∀ w, w < 2 ^ 32 → ((∃ e, decodeHeader w = .error e) ↔
    (w / 2 ^ 29 = 7 ∨ w / 2 ^ 27 % 4 = 3 ∨ w % 2 ^ 13 ≠ 0 ∨ (w / 2 ^ 22 % 2 = 0 ∧ w / 2 ^ 14 % 16 ≠ 0)))) ∧
  (∀ w, w < 2 ^ 32 →
    let unit := w / 2 ^ 23 % 32
    let port := w / 2 ^ 21 % 4
    let op := w / 2 ^ 16 % 32
    let cls := w / 2 ^ 13 % 8
    let v := w % 2 ^ 13
    (23 ≤ unit ∨ (unit = 1 ∧ 64 ≤ 32 * port + op) ∨ (unit = 2 ∧ 72 ≤ 32 * port + op) ∨
      (3 ≤ unit ∧ port ≠ 2 ∧ op ≠ 0) ∨
      (∃ u k, unitOf unit = some u ∧ port = latchCode k ∧ hasLatch u k = false) ∨
      (∃ u, unitOf unit = some u ∧ port = 2 ∧ opCount u ≤ op) ∨
      5 ≤ cls ∨ (cls = 0 ∧ 192 ≤ v) ∨ (cls = 1 ∧ (8 ≤ v / 256 ∨ v / 256 ≤ 1 ∧ 8 ≤ v % 256 ∨ 2 ≤ v / 256 ∧ v / 256 ≤ 3 ∧ 16 ≤ v % 256 ∨
        v / 256 = 4 ∧ 96 ≤ v % 256 ∨ v / 256 = 5 ∧ 32 ≤ v % 256 ∨ v / 256 = 6 ∧ 6 ≤ v % 256 ∨ v / 256 = 7 ∧ 3 ≤ v % 256)) ∨
      (cls = 2 ∧ (128 ≤ v ∨ v % 4 = 3 ∨ unitOf (v / 4) = none ∨ ∃ u p, unitOf (v / 4) = some u ∧ v % 4 = portCode p ∧ hasPort u p = false)) ∨
      (cls = 4 ∧ 2 ≤ v)) ↔ ∃ e, decodeMove w = .error e)

/-! The step. -/

/-- A step carries out the first thing that is due: the step the agenda holds for this cycle, else the event or the bundle whose
condition holds, else the end of the cycle. A stopped package stops (R424). Log entry 82: the model's own reading in it. -/
def Obligations.StepOrder : Prop :=
  ∀ s : State,
    (s.stopped = true → step s = .fault .packageStopped) ∧
    (s.stopped = false → ∀ i a r, s.agendaDue = some (i, a, r) → step s = exec i { s with agenda := r, ev := a }) ∧
    (s.stopped = false → s.agendaDue = none → ∀ i a, s.due = some (i, a) → step s = exec i { s with ev := a }) ∧
    (s.stopped = false → s.agendaDue = none → s.due = none → step s = .next s.tick)

/-- Nothing but a stopped package stops the machine: every instruction answers a next state in every state, and so does every step of a
package that has not stopped. -/
def Obligations.AlwaysNext : Prop :=
  (∀ i s, ∃ t, exec i s = .next t) ∧ ∀ s : State, ((∃ t, step s = .next t) ↔ s.stopped = false)

/-- The listed slots carried out one after another by `exec`. -/
def ExecAll : List (Nat × Instr) → State → State → Prop
  | [], s, t => s = t
  | (k, i) :: r, s, t => ∃ u, exec i (s.modCur fun c => { c with slot := k }) = .next u ∧ ExecAll r u t

/-- A bundle carries out the moves its words decode to: its words are the bytes at the translations of its addresses, from the fragment's PC on (R43, R46); slot k of a parsed bundle is the move that word k + 1 decodes to, writes to
registers and latches come before triggers (R56), and the slots that commit are carried out one after another by `exec`. Log entry 14: the model's own reading in it. -/
def Obligations.BundleRunsDecodedMoves : Prop :=
  (∀ (s : State) w ps va ws, va < 2 ^ 64 → s.bundleWords w ps va = .ok ws → ∀ k v, ws[k]? = some v →
    ∃ pa, s.instPa w ps ((va + 4 * k) % 2 ^ 64) = .ok pa ∧ v = s.read pa 4) ∧
  (∀ (s : State) w g b, g.part = none → s.nextBundle w g = .bundle b → ∃ ws, s.bundleWords w g.pages g.pc.toNat = .ok ws ∧ parseBundle s.featack ws = some b) ∧
  (∀ fa ws b, parseBundle fa ws = some b → decodeHeader (ws.headD 0) = .ok b.head ∧
    ∀ k v, b.moves[k]? = some (some v) → decodeMove (ws.getD (k + 1) 0) = .ok v.instr ∧ moveFields v.instr = some v.f) ∧
  (∀ (b : Bundle) first stop k i, (k, i) ∈ b.order first stop ↔ first ≤ k ∧ k < stop ∧ ∃ v, b.moves[k]? = some (some v) ∧ v.instr = i) ∧
  (∀ i s, (moveFields i).isSome = true → exec i s = asStep (moveSlot i s) s) ∧
  ∀ ms s t, (∀ k i, (k, i) ∈ ms → (moveFields i).isSome = true) → runSlots ms s = .done t → ExecAll ms s t

/-- BUNDLE_ISSUE of a plain bundle: a fragment that is not at its reconvergence bundle, has no bundle begun, and whose next bundle
has legal slots, no extra issue cycle, no REGION bit and opens no window (it has one, may open none, or has no access that stands behind an
unperformed one, of an older bundle or of an earlier slot), reads its sources, carries out its moves and
ends the bundle; the step around them is stated by name (R56). Log entries 51, 54: the model's own readings in it. -/
def Obligations.IssueRunsTheBundle : Prop :=
  ∀ (s : State) w q x g b,
    s.ev = [w, q, 0] → s.wave? w = some x → Map.find? x.ctx.seqs q = some g → s.parksAt w q = none → g.part = none →
    s.nextBundle w g = .bundle b → b.extra = 0 → b.bads = [] → b.head.region = false → b.marks = false → x.trap = none →
    (x.win.isSome = true ∨ x.mayOpen = false ∨
      (accessesOf (triggersOf x.ctx (s.liveMoves x g b))).length ≤ if x.unperformed then 0 else 1) →
    let cap := s.captureOf w q x g b
    let s1 := (s.popReads w (s.liveMoves x g b)).modSeq w q fun g => { g with hold := .none }
    let s2 := (s1.modCtx w Ctx.releaseWaits).modSeq w q fun g => { g with part := some { cap := cap, first := 0, pages := [], due := s1.now } }
    let capEn := { cap with en := cap.en.map fun ((k, m) : Nat × Mask) => (k, m &&& (~~~(s1.wave w).ctx.vac ||| (s1.wave w).ctx.shadows)) }
    let s3 := { s2 with cur := some (Issue.start w q 0 b.head.nmov.val capEn []) }
    ∀ t, runSlots (b.order 0 b.head.nmov.val) s3 = .done t → (t.cur.bind (·.after)) = none →
      exec .bundleIssue s =
        .next { (((t.modSeq w q fun g => { g with part := none }).noteIssue w q 0).popHeads w capEn b.head).control b with cur := none }

/-! Operands and destinations (R11, R24, R49 to R55). -/

/-- The source values of R51 to R53, widened to 64 bits: 32-bit sources by their sign, guards as 0 or 1, base registers and pairs whole,
the short immediate from 13 bits; an index beyond the loop depth reads 0, a shadow lane reads its partner's number, a task wave has wave 0
and team −1. A head-latch word is the same record's in every lane of a latch of uniform mode, and the record of the lane's rank in spread mode; an
unbound or stale latch reads 0 (R22, R218, R219). The FIFO ports give the oldest entry's value in the lanes it fills, and the lane's last value elsewhere
(R15). Log entries 9 and 94 (the ranks of shadow lanes): the model's own readings in it. -/
def Obligations.SourceValues : Prop :=
  ∀ (s : State) (c : Issue) (x : Wave) (l : Nat),
    (∀ i, (s.readSrc c x (.main i) l).toInt = (x.ctx.reg i.val l).toInt) ∧
    (∀ i, (s.readSrc c x (.opnd i) l).toInt = (x.ctx.reg (192 + i.val) l).toInt) ∧
    (∀ i, (s.readSrc c x (.guard i) l).toNat = if x.ctx.guard i.val l then 1 else 0) ∧
    (∀ i, s.readSrc c x (.base i) l = x.ctx.baseReg i.val) ∧
    (∀ i, (s.readSrc c x (.baseHi i) l).toInt = (x.ctx.baseReg i.val).toInt / 2 ^ 32) ∧
    (∀ i, (s.readSrc c x (.pair i) l).toNat = (x.ctx.reg (2 * i.val + 1) l).toNat * 2 ^ 32 + (x.ctx.reg (2 * i.val) l).toNat) ∧
    (∀ i v, (x.ctx.seq c.seq).loops[i.val]? = some v → (s.readSrc c x (.index i) l).toInt = v.index.toInt) ∧
    (∀ i, (x.ctx.seq c.seq).loops.length ≤ i.val → s.readSrc c x (.index i) l = 0) ∧
    (l < 32 → (s.readSrc c x .lane l).toNat = if x.ctx.shadows.getLsbD l then (if l < 16 then l + 16 else l - 16) else l) ∧
    (x.ctx.wstat.getLsbD 10 = true → (s.readSrc c x .wave l).toNat = 0 ∧ lowWord (s.readSrc c x .team l) = 0xFFFFFFFF#32) ∧
    (x.ctx.wstat.getLsbD 10 = false → (x.index < 2 ^ 64 → (s.readSrc c x .wave l).toNat = x.index) ∧
      ∀ t, s.team? x.team = some t → (s.readSrc c x .team l).toInt = t.number.toInt) ∧
    (∀ q f, (s.readSrc c x (.head q f) l).toInt =
      let h := x.ctx.head q.val
      let rank := ((List.range l).filter fun j => decide (j < 32) && c.cap.mask.getLsbD j && !x.ctx.vac.getLsbD j).length
      if h.bound = false ∨ h.stale = true then 0 else ((h.recs.getD (if h.spread then rank else 0) []).getD f.val 0).toInt) ∧
    (let fifo (es : List FifoEntry) (last : Map Word) (v : Word) : Prop :=
      (es = [] → v = Map.get 0 last l) ∧
        ∀ e r, es = e :: r → v = if e.mask.getLsbD l then Map.get 0 e.vals l else Map.get 0 last l
     fifo x.ctx.lsFifo x.ctx.lsLast (lowWord (s.readSrc c x (.port .ls .res) l)) ∧
      fifo x.ctx.spFifo x.ctx.spLast (lowWord (s.readSrc c x (.port .sp .res) l))) ∧
    (∀ v, (s.readSrc c x (.imm v) l).toInt = if v.val < 4096 then (v.val : Int) else (v.val : Int) - 8192) ∧
    (∀ i v, c.cap.longs[i.val]? = some v → (s.readSrc c x (.long i) l).toInt = v.toInt) ∧
    ∀ (u : FuncUnit) p, (s.readSrc c x (.port u p) l).toInt =
      if (u, p) = (.ls, .res) ∨ (u, p) = (.sp, .res) then (lowWord (s.readSrc c x (.port u p) l)).toInt else (x.ctx.reg (portVec u p) l).toInt

/-- The enabled lanes of a move (R24, R47, R375): a lane of the fragment's mask that is not vacant, or a shadow lane whose partner is in
it, where the guard after NEG reads 1; guard g0 reads 1, so an unguarded move is enabled in all of them and its negation in none. -/
def Obligations.EnabledLanes : Prop :=
  ∀ (c : Issue) (x : Wave) (gd : Guard) (l : Nat), Map.find? c.cap.en c.slot = none → l < 32 →
    ((slotEn c x gd).getLsbD l = true ↔
      (x.ctx.guard gd.g.val l = !gd.neg) ∧
        ((c.cap.mask.getLsbD l = true ∧ x.ctx.vac.getLsbD l = false) ∨
          (x.ctx.wstat.getLsbD 3 = true ∧ x.ctx.vac.getLsbD l = true ∧ x.ctx.vac.getLsbD (l ^^^ 16) = false ∧ c.cap.mask.getLsbD (l ^^^ 16) = true))) ∧
    (gd.g = 0 → gd.neg = true → (slotEn c x gd).getLsbD l = false)

/-- The triggers at which shadow pairs are compared: the stores and atomics of ls and sp, and jmp, br, call and exit (R173, R375). -/
def comparesPairs (u : FuncUnit) (op : Nat) : Bool :=
  (u == .ls && decide (5 ≤ op ∧ op < 19)) || (u == .sp && decide (3 ≤ op)) || (u == .ct && [0, 1, 2, 7].contains op)

/-- A move with no enabled lane has no effect, whatever it names; a trigger of a unit that no shadow lane feeds (xl, ls, sp, ct, qu, en, mx, sy) has
none either when its only enabled lanes are shadows, but at a trigger that compares shadow pairs such a lane's enable bit differs from its
partner's, which raises CHECK_MISMATCH for the partners (R13, R47, R173, R375). -/
def Obligations.NoEnabledLane : Prop :=
  ∀ (s : State) gd src m i, s.Issues gd src m → i.wellFormed = true → moveGuard i = some gd → moveSource i = some src →
    (m.en = 0 → exec i s = .next s) ∧
    ∀ f u, moveFields i = some f → f.port = 2 → unitOf f.unit = some u → u ∈ [FuncUnit.xl, .ls, .sp, .ct, .qu, .en, .mx, .sy] → m.real = 0 →
      let lone := maskWhere fun p => m.x.ctx.wstat.getLsbD 3 && m.x.ctx.vac.getLsbD (p ^^^ 16) && !m.x.ctx.vac.getLsbD p &&
        m.c.cap.mask.getLsbD p && m.en.getLsbD (p ^^^ 16)
      (comparesPairs u f.op = false ∨ lone = 0 → exec i s = .next s) ∧
      (comparesPairs u f.op = true → lone ≠ 0 → exec i s = s.traps m 0x08 lone 0)

/-- `y` is wave `x` with register vector `v` written with `f` in the lanes of `en`; nothing else of it differs but the undo log of an open
window or a handler. -/
def VecWritten (x y : Wave) (v : Nat) (en : Mask) (f : Nat → Word) : Prop :=
  (∀ v' l, l < 32 → y.ctx.reg v' l = if v' = v ∧ en.getLsbD l = true then f l else x.ctx.reg v' l) ∧
  y.ctx = { x.ctx with vec := y.ctx.vec } ∧ y = { x with ctx := y.ctx, win := y.win, trap := y.trap } ∧
  y.win.map (·.ckpt) = x.win.map (·.ckpt) ∧ y.trap.map (·.saved) = x.trap.map (·.saved)

/-- A move to m0–m127, m128–m191 or o0–o7 writes bits [31:0] of the source in each enabled lane and changes nothing else (R48, R50). -/
def Obligations.MovesToRegisters : Prop :=
  ∀ (s : State) gd src m, s.Issues gd src m → m.en ≠ 0 →
    let wrote (i : Instr) (v : Nat) : Prop := ∃ t y, exec i s = .next t ∧ s.OnlyWave t m.w ∧ t.wave? m.w = some y ∧
      VecWritten m.x y v m.en fun l => (m.t l).setWidth 32
    (∀ r, wrote (.moveM0 gd r src) r.val) ∧ (∀ r, wrote (.moveM1 gd r src) (128 + r.val)) ∧
    ∀ r, wrote (.moveLf gd (.opnd r) src) (192 + r.val)

/-- A move to a guard writes whether bits [31:0] of the source are not 0, and a move to gk.bits the lane's bit of the lowest enabled
lane's source, in each enabled lane; a write to g0 is discarded; nothing else changes (R49, R50).
A move to a base register takes the lowest enabled lane's source: all 64 bits, or its low word into one half; nothing else changes, and
without an enabled lane that is no shadow there is no effect (R17, R50). -/
def Obligations.MovesToGuardsAndBases : Prop :=
  (∀ (s : State) gd src m, s.Issues gd src m →
    let wrote (i : Instr) (g : Nat) (f : Nat → Bool) : Prop := ∃ t y, exec i s = .next t ∧ s.OnlyWave t m.w ∧ t.wave? m.w = some y ∧
      (∀ g' l, l < 32 → y.ctx.guard g' l = if g ≠ 0 ∧ g' = g ∧ m.en.getLsbD l = true then f l else m.x.ctx.guard g' l) ∧
      y.ctx = { m.x.ctx with guards := y.ctx.guards } ∧ y = { m.x with ctx := y.ctx }
    (m.en ≠ 0 → ∀ g, wrote (.moveLf gd (.guard g) src) g.val fun l => (m.t l).setWidth 32 != 0#32) ∧
    (m.real ≠ 0 → ∀ g, wrote (.moveLf gd (.guardBits g) src) g.val fun l => (m.t m.low).getLsbD l) ∧
    (m.real = 0 → ∀ g, exec (.moveLf gd (.guardBits g) src) s = .next s)) ∧
  (∀ (s : State) gd src m, s.Issues gd src m →
    let wrote (i : Instr) (k : Nat) (d : Dword) : Prop := ∃ t y, exec i s = .next t ∧ s.OnlyWave t m.w ∧ t.wave? m.w = some y ∧
      (∀ j, y.ctx.baseReg j = if j = k then d else m.x.ctx.baseReg j) ∧ y.ctx = { m.x.ctx with base := y.ctx.base } ∧ y = { m.x with ctx := y.ctx }
    ∀ k : Fin 16,
      let b := (m.x.ctx.baseReg k.val).toNat
      let v := (m.t m.low).toNat
      (m.real ≠ 0 → wrote (.moveLf gd (.base k) src) k.val (m.t m.low) ∧
        wrote (.moveLf gd (.baseLo k) src) k.val (BitVec.ofNat 64 (b / 2 ^ 32 * 2 ^ 32 + v % 2 ^ 32)) ∧
        wrote (.moveLf gd (.baseHi k) src) k.val (BitVec.ofNat 64 (v % 2 ^ 32 * 2 ^ 32 + b % 2 ^ 32))) ∧
      (m.real = 0 → exec (.moveLf gd (.base k) src) s = .next s ∧ exec (.moveLf gd (.baseLo k) src) s = .next s ∧
        exec (.moveLf gd (.baseHi k) src) s = .next s))

/-- A latch write: each enabled lane's latch of a lane unit takes the source, a 64-bit latch all of it; every lane's latch of a wave-uniform
unit takes the lowest enabled lane's; nothing else changes. A latch the unit lacks is an illegal bundle at the slot (R13, R14, R48, R52). That
all 32 lanes of a uniform latch are written is the model's reading of R13 (log entry 2). -/
def Obligations.LatchWrites : Prop :=
  ∀ (s : State) gd src m (u : FuncUnit) k, s.Issues gd src m →
    let val (l : Nat) : Dword := if wideLatch u k then m.t l else ((m.t l).setWidth 32).signExtend 64
    let wrote (f : Nat → Option Dword) : Prop := ∃ t y, exec (.latchWrite gd u k src) s = .next t ∧ s.OnlyWave t m.w ∧ t.wave? m.w = some y ∧
      (∀ l, l < 32 → y.ctx.latch u k l = (f l).getD (m.x.ctx.latch u k l)) ∧
      (∀ v l, l < 32 → v ≠ latchVec u k → ¬(wideLatch u k = true ∧ v = latchVec u k + 1) → y.ctx.reg v l = m.x.ctx.reg v l) ∧
      y.ctx = { m.x.ctx with vec := y.ctx.vec } ∧ y = { m.x with ctx := y.ctx, win := y.win, trap := y.trap } ∧
      y.win.map (·.ckpt) = m.x.win.map (·.ckpt) ∧ y.trap.map (·.saved) = m.x.trap.map (·.saved)
    (hasLatch u k = false → exec (.latchWrite gd u k src) s = s.traps m 0x01 (m.c.cap.mask &&& ~~~m.x.ctx.vac) 0) ∧
    (hasLatch u k = true → uniformUnit u = false → m.en ≠ 0 → wrote fun l => if m.en.getLsbD l then some (val l) else none) ∧
    (hasLatch u k = true → uniformUnit u = true → m.real ≠ 0 → wrote fun _ => some (val m.low)) ∧
    (hasLatch u k = true → uniformUnit u = true → m.real = 0 → exec (.latchWrite gd u k src) s = .next s)

/-! Operations of the lane units (R12, R58, R108). -/

/-- An operation that has started: until its event its ports are not ready in its lanes and keep their values; RESULT_READY, due `lat` cycles
after it, writes its results into exactly these ports and lanes and makes them ready; an armed injection inverts bit 0 of res (R12, R58,
R275). -/
def Obligations.ResultsArrive : Prop :=
  ∀ (s : State) w x (u : FuncUnit) (ports : List PortNo) (en : Mask) lat (out : Nat → LaneOut), s.wave? w = some x → (∀ p ∈ ports, p ∈ portsOf u) →
    let t := s.start w u ports en lat out
    let r := { t with ev := [w, x.nextOp] }
    let val (p : PortNo) (l : Nat) : Word :=
      if p = .res ∧ x.inject.contains (32 * unitCode u + l) = true then (out l).port p ^^^ 1 else (out l).port p
    t.Due (s.now + lat) .resultReady [w, x.nextOp] ∧
    (∃ y, t.wave? w = some y ∧ (∀ v l, y.ctx.reg v l = x.ctx.reg v l) ∧
      ∀ p ∈ ports, ∀ l < 32, en.getLsbD l = true → (Map.get 0 y.ctx.busy (portVec u p)).getLsbD l = true) ∧
    ∃ z, exec .resultReady r = .next (r.setWave w z) ∧
      (∀ p ∈ ports, ∀ l < 32, en.getLsbD l = true → z.ctx.reg (portVec u p) l = val p l) ∧
      (∀ v l, l < 32 → (en.getLsbD l = false ∨ ∀ p ∈ ports, v ≠ portVec u p) → z.ctx.reg v l = x.ctx.reg v l) ∧
      (∀ p ∈ ports, ∀ l < 32, en.getLsbD l = true → (Map.get 0 z.ctx.busy (portVec u p)).getLsbD l = false) ∧
      z.ctx = { x.ctx with vec := z.ctx.vec, busy := z.ctx.busy, last := z.ctx.last }

/-- The operations that answer in their own ports and never trap: all of ia, sa, fa, xf, cx, xl and their twins, the multiplies, and cv but
for dot. -/
def pureOp (u : FuncUnit) (op : Nat) : Bool :=
  match u with
  | .ia | .ib | .sa | .sb | .fa | .fb | .xf | .cx | .xl => true
  | .ma | .mb => decide (op < 6)
  | .cv => decide (op < 16 ∨ 24 ≤ op)
  | .ck => op == 2
  | _ => false

/-- What such an operation leaves unchanged when it starts: every register, guard, base register, head latch, counter, FIFO and fragment of the
wave, its saved trap and window state, every other wave, all of memory, and everything else in the machine; only the ready bits and the operation
in flight are new (R12, R108, R129). -/
def Obligations.LaneOperationFrame : Prop :=
  ∀ (s : State) gd src m i f u t, s.Issues gd src m → moveFields i = some f → f.gd = gd → f.src = src → f.port = 2 → unitOf f.unit = some u →
    pureOp u f.op = true → m.real ≠ 0 → exec i s = .next t →
    s.OnlyWaveAndAgenda t m.w ∧ s.SameMemory t ∧ ∃ y, t.wave? m.w = some y ∧
      y.ctx = { m.x.ctx with busy := y.ctx.busy, last := y.ctx.last } ∧
      y = { m.x with ctx := y.ctx, pend := y.pend, nextOp := y.nextOp, inject := y.inject, win := y.win, trap := y.trap } ∧
      y.win.map (·.ckpt) = m.x.win.map (·.ckpt) ∧ y.trap.map (·.saved) = m.x.trap.map (·.saved) ∧
      ∀ v, (∀ p, hasPort u p = true → v ≠ portVec u p) → Map.get 0 y.ctx.busy v = Map.get 0 m.x.ctx.busy v

/-! Integer, shift and check operations (05_integer_units.md). -/

/-- The flags word of R111 from its four bits N, Z, V and C. -/
def flagsWord (n z v c : Bool) : Word := 0#28 ++ BitVec.ofBool n ++ BitVec.ofBool z ++ BitVec.ofBool v ++ BitVec.ofBool c

/-- A result of ia with its flags, Z and N taken from it (R111). -/
def aluOut (res : Word) (v c : Bool) : LaneOut := ⟨res, flagsWord res.msb (decide (res = 0)) v c, 0⟩

/-- Whether a signed value lies outside −2^31 to 2^31 − 1. -/
def outside32 (i : Int) : Bool := decide (i < -2147483648) || decide (2147483647 < i)

/-- Every operation of ia and ib starts and is ready one cycle later with the result of R110 and, in hi, the flags word of R111: Z and N from the result,
C and V for the additions, subtractions, saturating forms, abs and neg, and 0 for every other form. -/
def Obligations.IntegerOperations : Prop :=
  ∀ (s : State) gd src m (t : Twin), s.Issues gd src m → m.en ≠ 0 →
    let u := twin t .ia .ib
    let a := m.latchW u .o1
    let b2 := m.latchW u .o2
    let b := m.tw
    let starts (i : Instr) (f : Nat → LaneOut) : Prop := exec i s = .next (s.start m.w u [.res, .hi] m.en 1 f)
    let plain (i : Instr) (f : Nat → Word) : Prop := starts i fun l => aluOut (f l) false false
    starts (.iaAdd gd t src) (fun l => aluOut (a l + b l) (outside32 ((a l).toInt + (b l).toInt)) (decide ((a l + b l).toNat < (a l).toNat))) ∧
    starts (.iaSub gd t src) (fun l => aluOut (a l - b l) (outside32 ((a l).toInt - (b l).toInt)) ((a l).ult (b l))) ∧
    starts (.iaAddCo gd t src) (fun l =>
      let k : Nat := if (b l).getLsbD 0 then 1 else 0
      aluOut (a l + b2 l + BitVec.ofNat 32 k) (outside32 ((a l).toInt + (b2 l).toInt + k)) (decide (4294967296 ≤ (a l).toNat + (b2 l).toNat + k))) ∧
    starts (.iaSubBo gd t src) (fun l =>
      let k : Nat := if (b l).getLsbD 0 then 1 else 0
      aluOut (a l - b2 l - BitVec.ofNat 32 k) (outside32 ((a l).toInt - (b2 l).toInt - k)) (decide (((a l).toNat : Int) - (b2 l).toNat - k < 0))) ∧
    starts (.iaAddsS gd t src) (fun l =>
      let e := (a l).toInt + (b l).toInt
      aluOut (if e < -2147483648 then 0x80000000#32 else if 2147483647 < e then 0x7FFFFFFF#32 else a l + b l) (outside32 e) false) ∧
    starts (.iaSubsS gd t src) (fun l =>
      let e := (a l).toInt - (b l).toInt
      aluOut (if e < -2147483648 then 0x80000000#32 else if 2147483647 < e then 0x7FFFFFFF#32 else a l - b l) (outside32 e) false) ∧
    starts (.iaAbs gd t src) (fun l => aluOut (BitVec.ofNat 32 (b l).toInt.natAbs) (decide (b l = 0x80000000#32)) false) ∧
    starts (.iaNeg gd t src) (fun l => aluOut (0 - b l) (decide (b l = 0x80000000#32)) (decide (b l ≠ 0))) ∧
    plain (.iaAnd gd t src) (fun l => a l &&& b l) ∧ plain (.iaOr gd t src) (fun l => a l ||| b l) ∧
    plain (.iaXor gd t src) (fun l => a l ^^^ b l) ∧ plain (.iaAndn gd t src) (fun l => a l &&& ~~~(b l)) ∧
    plain (.iaOrn gd t src) (fun l => a l ||| ~~~(b l)) ∧ plain (.iaMov gd t src) b ∧
    plain (.iaSel gd t src) (fun l => if b l = 0 then b2 l else a l) ∧
    plain (.iaSextB gd t src) (fun l => BitVec.ofInt 32 (if (b l).toNat % 256 < 128 then ((b l).toNat % 256 : Nat) else ((b l).toNat % 256 : Nat) - 256)) ∧
    plain (.iaSextH gd t src) (fun l => BitVec.ofInt 32 (if (b l).toNat % 65536 < 32768 then ((b l).toNat % 65536 : Nat) else ((b l).toNat % 65536 : Nat) - 65536)) ∧
    plain (.iaZextB gd t src) (fun l => b l &&& 0xFF#32) ∧ plain (.iaZextH gd t src) (fun l => b l &&& 0xFFFF#32) ∧
    plain (.iaMinS gd t src) (fun l => BitVec.ofInt 32 (min (a l).toInt (b l).toInt)) ∧
    plain (.iaMaxS gd t src) (fun l => BitVec.ofInt 32 (max (a l).toInt (b l).toInt)) ∧
    plain (.iaMinU gd t src) (fun l => BitVec.ofNat 32 (min (a l).toNat (b l).toNat)) ∧
    plain (.iaMaxU gd t src) (fun l => BitVec.ofNat 32 (max (a l).toNat (b l).toNat)) ∧
    plain (.iaEq gd t src) (fun l => if a l = b l then 1 else 0) ∧ plain (.iaNe gd t src) (fun l => if a l = b l then 0 else 1) ∧
    plain (.iaLtS gd t src) (fun l => if (a l).toInt < (b l).toInt then 1 else 0) ∧
    plain (.iaLeS gd t src) (fun l => if (a l).toInt ≤ (b l).toInt then 1 else 0) ∧
    plain (.iaLtU gd t src) (fun l => if (a l).toNat < (b l).toNat then 1 else 0) ∧
    plain (.iaLeU gd t src) (fun l => if (a l).toNat ≤ (b l).toNat then 1 else 0)

/-- The multiplies are ready three cycles later (R115) with the product or sum of R112 and the bits V and U of R113.
A divide or remainder raises ARITH for the enabled lanes, shadows apart, whose divisor is 0 (R114, R127); otherwise it gives the quotient
and the remainder of R112, V for 0x8000_0000 / 0xFFFF_FFFF (R113), after 8 + 7 × ⌈Q / 8⌉ cycles, Q being the significant bits of the largest
quotient (R117). A shadow lane that divides by 0 receives a free quotient and remainder: the model's choice (log entry 97). -/
def Obligations.MultipliesAndDivides : Prop :=
  (∀ (s : State) gd src m (t : Twin), s.Issues gd src m → m.en ≠ 0 →
    let u := twin t .ma .mb
    let a := m.latchW u .o1
    let b2 := m.latchW u .o2
    let b := m.tw
    let st (v w : Bool) : Word := 0#30 ++ BitVec.ofBool w ++ BitVec.ofBool v
    let starts (i : Instr) (f : Nat → LaneOut) : Prop := exec i s = .next (s.start m.w u [.res, .hi, .st] m.en 3 f)
    starts (.maMulLo gd t src) (fun l => ⟨a l * b l, BitVec.ofNat 32 ((a l).toNat * (b l).toNat / 4294967296),
      st (outside32 ((a l).toInt * (b l).toInt)) (decide (4294967296 ≤ (a l).toNat * (b l).toNat))⟩) ∧
    starts (.maMulHiS gd t src) (fun l => ⟨BitVec.ofInt 32 ((a l).toInt * (b l).toInt / 4294967296), a l * b l, 0⟩) ∧
    starts (.maMulHiU gd t src) (fun l => ⟨BitVec.ofNat 32 ((a l).toNat * (b l).toNat / 4294967296), a l * b l, 0⟩) ∧
    starts (.maMadLo gd t src) (fun l =>
      let p := (a l).toNat * (b2 l).toNat + (b l).toNat
      ⟨a l * b2 l + b l, BitVec.ofNat 32 (p / 4294967296), st (outside32 ((a l).toInt * (b2 l).toInt + (b l).toInt)) (decide (4294967296 ≤ p))⟩) ∧
    starts (.maMadWideS gd t src) (fun l =>
      ⟨a l * b2 l + b l, BitVec.ofInt 32 (((a l).toInt * (b2 l).toInt + (b l).toInt) / 4294967296), 0⟩) ∧
    starts (.maMadWideU gd t src) (fun l =>
      ⟨a l * b2 l + b l, BitVec.ofNat 32 (((a l).toNat * (b2 l).toNat + (b l).toNat) / 4294967296), 0⟩)) ∧
  (∀ (s : State) gd src m (t : Twin), s.Issues gd src m → m.en ≠ 0 →
    let u := twin t .ma .mb
    let a := m.latchW u .o1
    let b := m.tw
    let zero := maskWhere fun l => m.real.getLsbD l && decide (b l = 0)
    let divs (i : Instr) (mag : Nat → Nat) (f : Nat → LaneOut) : Prop :=
      (zero ≠ 0 → exec i s = s.traps m 0x0F zero 0) ∧
      (zero = 0 → ∃ q, (∀ l < 32, m.real.getLsbD l = true → mag l < 2 ^ q) ∧
        (q ≠ 0 → ∃ l < 32, m.real.getLsbD l = true ∧ 2 ^ (q - 1) ≤ mag l) ∧
        exec i s = .next (s.start m.w u [.res, .hi, .st] m.en (8 + 7 * ((q + 7) / 8)) f))
    let umag (l : Nat) : Nat := (a l).toNat / (b l).toNat
    let smag (l : Nat) : Nat := (a l).toInt.natAbs / (b l).toInt.natAbs
    let v (l : Nat) : Word := if a l = 0x80000000#32 ∧ b l = 0xFFFFFFFF#32 then 1 else 0
    let free (signed : Bool) (l : Nat) (p : Word × Word) : Word × Word := if b l = 0 then Config.divByZero signed (a l) else p
    let u2 (l : Nat) : Word × Word := free false l (a l / b l, a l % b l)
    let s2 (l : Nat) : Word × Word := free true l ((a l).sdiv (b l), (a l).srem (b l))
    divs (.maDivU gd t src) umag (fun l => ⟨(u2 l).1, (u2 l).2, 0⟩) ∧
    divs (.maRemU gd t src) umag (fun l => ⟨(u2 l).2, (u2 l).1, 0⟩) ∧
    divs (.maDivS gd t src) smag (fun l => ⟨(s2 l).1, (s2 l).2, v l⟩) ∧
    divs (.maRemS gd t src) smag (fun l => ⟨(s2 l).2, (s2 l).1, v l⟩))

/-- The shifts, rotates, bit-field operations, counts and permutes of sa and sb, bit by bit, one cycle later (R119, R120). -/
def Obligations.ShiftsAndFields : Prop :=
  ∀ (s : State) gd src m (t : Twin), s.Issues gd src m → m.en ≠ 0 →
    let u := twin t .sa .sb
    let a := m.latchW u .o1
    let b2 := m.latchW u .o2
    let b := m.tw
    let pos (f : Word) : Nat := min (f.toNat % 256) 32
    let len (f : Word) : Nat := min (f.toNat / 256 % 256) 32
    let byte (v : Nat) (l : Nat) (k : Nat) : Nat :=
      let y := ((b2 l).toNat * 2 ^ 32 + (a l).toNat) / 256 ^ (v % 8) % 256
      if v / 8 % 2 = 1 then (if y < 128 then 0 else 255) * 256 ^ k else y * 256 ^ k
    let starts (i : Instr) (f : Nat → Word) : Prop := exec i s = .next (s.start m.w u [.res] m.en 1 fun l => ⟨f l, 0, 0⟩)
    starts (.saShl gd t src) (fun l => a l <<< b l) ∧ starts (.saShr gd t src) (fun l => a l >>> b l) ∧
    starts (.saSar gd t src) (fun l => (a l).sshiftRight' (b l)) ∧
    starts (.saRotl gd t src) (fun l => maskWhere fun k => (a l).getLsbD ((k + 32 - (b l).toNat % 32) % 32)) ∧
    starts (.saRotr gd t src) (fun l => maskWhere fun k => (a l).getLsbD ((k + (b l).toNat) % 32)) ∧
    starts (.saBextU gd t src) (fun l => maskWhere fun k => decide (k < len (b l)) && (a l).getLsbD (pos (b l) + k)) ∧
    starts (.saBextS gd t src) (fun l => maskWhere fun k =>
      decide (0 < len (b l)) && (a l).getLsbD (pos (b l) + min k (len (b l) - 1))) ∧
    starts (.saBins gd t src) (fun l => maskWhere fun k =>
      if pos (b l) ≤ k ∧ k < pos (b l) + len (b l) then (b2 l).getLsbD (k - pos (b l)) else (a l).getLsbD k) ∧
    starts (.saPopc gd t src) (fun l => (b l).cpop) ∧ starts (.saClz gd t src) (fun l => (b l).clz) ∧
    starts (.saCtz gd t src) (fun l => (b l).ctz) ∧ starts (.saBrev gd t src) (fun l => (b l).reverse) ∧
    starts (.saPerm gd t src) (fun l => BitVec.ofNat 32 (((List.range 4).map fun k => byte ((b l).toNat / 16 ^ k) l k).sum)) ∧
    starts (.saFsh gd t src) (fun l => ((b2 l ++ a l : BitVec 64) >>> ((b l).toNat % 64)).setWidth 32)

/-- ck.eq and ck.rng raise CHECK_MISMATCH for the enabled lanes, shadows apart, that fail, and otherwise leave st as it is; ck.mark sets PEND in
the lanes that differ; each is ready one cycle later (R121 to R123, R127). -/
def Obligations.Checks : Prop :=
  ∀ (s : State) gd src m, s.Issues gd src m → m.en ≠ 0 →
    let a := m.latchW .ck .o1
    let b2 := m.latchW .ck .o2
    let b := m.tw
    let st := m.x.ctx.port .ck .st
    let checks (i : Instr) (fails : Nat → Bool) : Prop :=
      let bad := maskWhere fun l => m.real.getLsbD l && fails l
      (bad ≠ 0 → exec i s = s.traps m 0x08 bad 0) ∧
      (bad = 0 → exec i s = .next (s.start m.w .ck [.st] m.en 1 fun l => ⟨0, 0, st l⟩))
    checks (.ckEq gd src) (fun l => decide (a l ≠ b l)) ∧
    checks (.ckRng gd src) (fun l => decide ((b l).toNat < (a l).toNat ∨ (b2 l).toNat < (b l).toNat)) ∧
    exec (.ckMark gd src) s = .next (s.start m.w .ck [.st] m.en 1 fun l =>
      ⟨0, 0, if m.real.getLsbD l ∧ a l ≠ b l then st l ||| 1 else st l⟩)

/-! Floating-point, special-function and conversion operations (06_float_units.md). -/

/-- Sums the bits of a status word: NV, DZ, OF, UF, NX (R130). -/
def statusWord (nv dz ovf unf nx : Bool) : Word :=
  0#27 ++ BitVec.ofBool nx ++ BitVec.ofBool unf ++ BitVec.ofBool ovf ++ BitVec.ofBool dz ++ BitVec.ofBool nv

/-- An arithmetic result under R132 and R133: the first NaN of the inputs with M[22] set; the default NaN with NV where the operation is invalid
(`none`); an infinity without flags; else the exact value rounded once, with NX, OF and UF. -/
def arithmetic (ins : List Word) (mode : Rnd) (x : Option XVal) : LaneOut :=
  match ins.filter isNan, x with
  | n :: _, _ => ⟨n ||| 0x00400000#32, 0, statusWord (ins.any fun v => isNan v && !v.getLsbD 22) false false false false⟩
  | [], none => ⟨0x7FC00000#32, 0, 1⟩
  | [], some (.nan c) => ⟨c, 0, 0⟩
  | [], some (.inf neg) => ⟨if neg then 0xFF800000#32 else 0x7F800000#32, 0, 0⟩
  | [], some (.fin r) =>
    let c := cvtDn (.fin r) .fp32 mode false
    ⟨BitVec.ofNat 32 c.code, 0, statusWord false false c.ovf (c.inx && decide (0 < r.num ∧ r.num * 2 ^ 126 < r.den)) c.inx⟩

/-- Every arithmetic form of fa and fb is ready four cycles later with the exact sum, product or fused result rounded once under WSTAT.RM, or
with the NaN of R133 (R129, R131 to R134); the two units give the same results. Log entry 5: the model's own reading in it. -/
def Obligations.FloatArithmetic : Prop :=
  ∀ (s : State) gd src m (t : Twin), s.Issues gd src m → m.en ≠ 0 →
    let u := twin t .fa .fb
    let a := m.latchW u .o1
    let b2 := m.latchW u .o2
    let b := m.tw
    let rm : Rnd := if m.x.ctx.wstat.getLsbD 2 then .rtz else .rne
    let v (w : Word) : XVal := ofFp32 w
    let neg (w : Word) : XVal := ofFp32 (w ^^^ 0x80000000#32)
    let starts (i : Instr) (f : Nat → LaneOut) : Prop := exec i s = .next (s.start m.w u [.res, .st] m.en 4 f)
    let fused (p q : Bool) (l : Nat) : LaneOut := arithmetic [a l, b2 l, b l] rm
      ((mulX (if p then neg (a l) else v (a l)) (v (b2 l))).bind fun x => addX x (if q then neg (b l) else v (b l)))
    starts (.faAdd gd t src) (fun l => arithmetic [a l, b l] rm (addX (v (a l)) (v (b l)))) ∧
    starts (.faSub gd t src) (fun l => arithmetic [a l, b l] rm (addX (v (a l)) (neg (b l)))) ∧
    starts (.faMul gd t src) (fun l => arithmetic [a l, b l] rm (mulX (v (a l)) (v (b l)))) ∧
    starts (.faFma gd t src) (fused false false) ∧ starts (.faFms gd t src) (fused false true) ∧
    starts (.faFnma gd t src) (fused true true) ∧ starts (.faFnms gd t src) (fused true false)

/-- a < b as FP32 numbers, −0 equal to +0; false when either is a NaN. -/
def fpLess (a b : Word) : Bool :=
  match ofFp32 a, ofFp32 b with
  | .fin x, .fin y => decide (x.signed * y.den < y.signed * x.den)
  | .inf s, .inf t => s && !t
  | .inf s, .fin _ => s
  | .fin _, .inf t => !t
  | _, _ => false

/-- The lesser or greater of two FP32 numbers, −0 below +0 (R135). -/
def fpPick (greater : Bool) (a b : Word) : Word :=
  if fpLess a b then (if greater then b else a) else if fpLess b a then (if greater then a else b) else if greater then a &&& b else a ||| b

/-- The minimum, maximum, comparison, sign and integral forms of fa and fb (R135 to R137): comparisons write 1 or 0, abs, neg and csgn act on
bits alone, rint rounds without NX, frac is exact; ready four cycles later. -/
def Obligations.FloatSelection : Prop :=
  ∀ (s : State) gd src m (t : Twin), s.Issues gd src m → m.en ≠ 0 →
    let u := twin t .fa .fb
    let a := m.latchW u .o1
    let b := m.tw
    let rm : Rnd := if m.x.ctx.wstat.getLsbD 2 then .rtz else .rne
    let snan (w : Word) : Bool := isNan w && !w.getLsbD 22
    let nv (c : Bool) : Word := if c then 1 else 0
    let quiet2 (x y : Word) : LaneOut := ⟨(if isNan x then x else y) ||| 0x00400000#32, 0, nv (snan x || snan y)⟩
    let starts (i : Instr) (f : Nat → LaneOut) : Prop := exec i s = .next (s.start m.w u [.res, .st] m.en 4 f)
    let pick (g : Bool) (l : Nat) : LaneOut := if isNan (a l) || isNan (b l) then quiet2 (a l) (b l) else ⟨fpPick g (a l) (b l), 0, 0⟩
    let pickn (g : Bool) (l : Nat) : LaneOut :=
      if isNan (a l) && isNan (b l) then quiet2 (a l) (b l)
      else if isNan (a l) then ⟨b l, 0, nv (snan (a l))⟩
      else if isNan (b l) then ⟨a l, 0, nv (snan (b l))⟩ else ⟨fpPick g (a l) (b l), 0, 0⟩
    let cmp (p : Word → Word → Bool) (any : Bool) (l : Nat) : LaneOut :=
      let n := isNan (a l) || isNan (b l)
      ⟨if !n && p (a l) (b l) then 1 else 0, 0, nv (if any then n else snan (a l) || snan (b l))⟩
    starts (.faMin gd t src) (pick false) ∧ starts (.faMax gd t src) (pick true) ∧
    starts (.faMinn gd t src) (pickn false) ∧ starts (.faMaxn gd t src) (pickn true) ∧
    starts (.faEq gd t src) (cmp (fun x y => !fpLess x y && !fpLess y x) false) ∧
    starts (.faLt gd t src) (cmp fpLess true) ∧ starts (.faLe gd t src) (cmp (fun x y => !fpLess y x) true) ∧
    starts (.faUn gd t src) (fun l => ⟨if isNan (a l) || isNan (b l) then 1 else 0, 0, nv (snan (a l) || snan (b l))⟩) ∧
    starts (.faAbs gd t src) (fun l => ⟨b l &&& 0x7FFFFFFF#32, 0, 0⟩) ∧ starts (.faNeg gd t src) (fun l => ⟨b l ^^^ 0x80000000#32, 0, 0⟩) ∧
    starts (.faCsgn gd t src) (fun l => ⟨BitVec.ofBool (b l).msb ++ (a l).setWidth 31, 0, 0⟩) ∧
    starts (.faRint gd t src) (fun l => match ofFp32 (b l) with
      | .nan _ => quiet2 (b l) (b l)
      | .inf _ => ⟨b l, 0, 0⟩
      | .fin x => ⟨rneFp32 ⟨x.neg, roundQuot rm x.num x.den, 1⟩, 0, 0⟩) ∧
    starts (.faFrac gd t src) (fun l => match ofFp32 (b l) with
      | .nan _ => quiet2 (b l) (b l)
      | .inf _ => ⟨0x7FC00000#32, 0, 1⟩
      | .fin x => ⟨rneFp32 ⟨x.neg, x.num % x.den, x.den⟩, 0, 0⟩)

/-- The magnitude of an FP32 code in units of 2^−149. -/
def fpUnitsOf (c : Nat) : Nat := if c / 2 ^ 23 = 0 then c else (2 ^ 23 + c % 2 ^ 23) * 2 ^ (c / 2 ^ 23 - 1)

/-- CVT_DN to FP32 rounds to nearest, ties to even, under RNE and toward zero under RTZ, over all finite values whose
result stays within FP32's range; the sign is that of x, and INX tells exactly whether the value changed (R86, R90). -/
def Obligations.RoundingIsCorrect : Prop :=
  ∀ (x : Exact) (mode : Rnd), 0 < x.den → 0 < x.num → (cvtDn (.fin x) .fp32 mode false).ovf = false →
    let r := cvtDn (.fin x) .fp32 mode false
    let c := r.code % 2 ^ 31
    let off (k : Nat) : Nat := ((fpUnitsOf k * x.den : Nat) - (x.num * 2 ^ 149 : Nat) : Int).natAbs
    c ≤ 0x7F7FFFFF ∧ r.code / 2 ^ 31 = (if x.neg then 1 else 0) ∧
    (mode = .rne → ∀ k ≤ 0x7F7FFFFF, off c ≤ off k ∧ (off c = off k → k ≠ c → c % 2 = 0)) ∧
    (mode = .rtz → fpUnitsOf c * x.den ≤ x.num * 2 ^ 149 ∧ ∀ k ≤ 0x7F7FFFFF, fpUnitsOf k * x.den ≤ x.num * 2 ^ 149 → fpUnitsOf k ≤ fpUnitsOf c) ∧
    (r.inx = true ↔ off c ≠ 0)

/-- The special functions are ready after 12, 16 (sqrt) or 20 (div) cycles (R129). A NaN input gives the NaN of R133; the special cases give the
results and flags of R139; rcp and div round the exact quotient (R138); an exact power of two from exp2 and a logarithm of one set no flag. Log entry 5: the model's own reading in it. -/
def Obligations.SpecialFunctions : Prop :=
  ∀ (s : State) gd src m, s.Issues gd src m → m.en ≠ 0 →
    let nan : LaneOut := ⟨0x7FC00000#32, 0, 1⟩
    let ok (w : Word) : LaneOut := ⟨w, 0, 0⟩
    let inf (n : Bool) : Word := if n then 0xFF800000#32 else 0x7F800000#32
    let zero (n : Bool) : Word := if n then 0x80000000#32 else 0#32
    let one (n : Bool) : Word := if n then 0xBF800000#32 else 0x3F800000#32
    let pole (n : Bool) : LaneOut := ⟨inf n, 0, 2⟩
    let func (i : Instr) (lat : Nat) (claim : Word → LaneOut → Prop) : Prop :=
      ∃ f : Nat → LaneOut, exec i s = .next (s.start m.w .xf [.res, .st] m.en lat f) ∧
        ∀ l, (isNan (m.tw l) = true → f l = arithmetic [m.tw l] .rne none) ∧ (isNan (m.tw l) = false → claim (m.tw l) (f l))
    let negative (a : Word) : Prop := a.msb = true ∧ a ≠ 0x80000000#32
    func (.xfRcp gd src) 12 (fun a r =>
      (a = zero a.msb → r = pole a.msb) ∧ (a = inf a.msb → r = ok (zero a.msb)) ∧
      ∀ x, ofFp32 a = .fin x → x.num ≠ 0 → r = arithmetic [] .rne (some (.fin ⟨x.neg, x.den, x.num⟩))) ∧
    func (.xfRsqrt gd src) 12 (fun a r =>
      (a = zero a.msb → r = pole a.msb) ∧ (a = inf false → r = ok 0) ∧ (negative a → r = nan)) ∧
    func (.xfSqrt gd src) 16 (fun a r =>
      (a = zero a.msb → r = ok a) ∧ (a = inf false → r = ok a) ∧ (negative a → r = nan)) ∧
    func (.xfExp2 gd src) 12 (fun a r =>
      (a = inf a.msb → r = ok (if a.msb then 0 else inf false)) ∧ (a = zero a.msb → r = ok (one false)) ∧
      ∀ x : Exact, ∀ k ≤ 126, ofFp32 a = .fin x → x.num = k * x.den →
        r = ok (BitVec.ofNat 32 ((if x.neg then 127 - k else 127 + k) * 2 ^ 23))) ∧
    func (.xfLog2 gd src) 12 (fun a r =>
      (a = zero a.msb → r = pole true) ∧ (a = one false → r = ok 0) ∧ (a = inf false → r = ok a) ∧ (negative a → r = nan)) ∧
    func (.xfSinpi gd src) 12 (fun a r =>
      (a = inf a.msb → r = nan) ∧ ∀ x : Exact, ofFp32 a = .fin x → x.num % x.den = 0 → r = ok (zero a.msb)) ∧
    func (.xfCospi gd src) 12 (fun a r =>
      (a = inf a.msb → r = nan) ∧
      ∀ x : Exact, ofFp32 a = .fin x → 2 * x.num % x.den = 0 → 2 * x.num / x.den % 2 = 1 → r = ok 0) ∧
    func (.xfTanh gd src) 12 (fun a r => (a = zero a.msb → r = ok a) ∧ (a = inf a.msb → r = ok (one a.msb))) ∧
    func (.xfSigm gd src) 12 (fun a r =>
      (a = zero a.msb → r = ok 0x3F000000#32) ∧ (a = inf a.msb → r = ok (if a.msb then 0 else one false))) ∧
    exec (.xfDiv gd src) s = .next (s.start m.w .xf [.res, .st] m.en 20 fun l =>
      let a := m.latchW .xf .o1 l
      let b := m.tw l
      let n := a.msb != b.msb
      if isNan a || isNan b then arithmetic [a, b] .rne none
      else match ofFp32 a, ofFp32 b with
        | .fin x, .fin y =>
          if y.num = 0 then (if x.num = 0 then nan else pole n)
          else if x.num = 0 then ok (zero n) else arithmetic [] .rne (some (.fin ⟨n, x.num * y.den, x.den * y.num⟩))
        | .inf _, .inf _ => nan
        | .inf _, _ => ok (inf n)
        | _, _ => ok (zero n))

/-- The cv operations read the format slot of the launch that OP[2:0] names and are ready four cycles later: up widens two elements, dn narrows
two values and shifts them in, sc scales by two block scales with one rounding, dot sums the products exactly and rounds once, or in INT32; hi
keeps its value where a form does not name it, and a dot of two widths raises ARITH (R129, R140 to R144).
The cx operations are ready four cycles later with the conversions of R146 and R147; hi is written by bf2f, h2f and unpack alone and keeps its
value otherwise; out-of-range conversions clamp and set OF, a NaN gives 0 with OF.
NX together with OF on overflow: the model's own reading (log entry 5); a dot of two widths in shadow lanes alone has a free result (log entry 120). -/
def Obligations.Conversions : Prop :=
  (∀ (s : State) gd (n : Fin 8) src m, s.Issues gd src m → m.en ≠ 0 →
    let a := m.latchW .cv .o1
    let b2 := m.latchW .cv .o2
    let b := m.tw
    let hi := m.x.ctx.port .cv .hi
    let sl := FmtSlot.ofBits (((s.launch? m.x.launch).map fun r => r.lrec.fmt.getD n.val 0).getD 0)
    let starts (i : Instr) (f : Nat → LaneOut) : Prop := exec i s = .next (s.start m.w .cv [.res, .hi, .st] m.en 4 f)
    let k := 32 / sl.afmt.width
    let down (v : Word) : Cvt := cvtDn (ofFp32 v) sl.ofmt sl.rnd sl.sat
    let w := sl.ofmt.width
    let bit (c : Bool) : Nat := if c then 1 else 0
    let el (f : Fmt) (v : Word) (i : Nat) : Nat := v.toNat / 2 ^ (f.width * i) % 2 ^ f.width
    starts (.cvUp gd n src) (fun l =>
      ⟨cvtUp (el sl.afmt (a l) ((b l).toNat % 8 % k)) sl.afmt, cvtUp (el sl.afmt (a l) (((b l).toNat % 8 % k + 1) % k)) sl.afmt, 0⟩) ∧
    starts (.cvDn gd n src) (fun l =>
      let e0 := down (a l)
      let e1 := down (b2 l)
      if w = 32 then ⟨BitVec.ofNat 32 e0.code, BitVec.ofNat 32 (bit e0.ovf), statusWord false false e0.ovf false e0.inx⟩
      else ⟨BitVec.ofNat 32 ((b l).toNat / 4 ^ w + e0.code * 2 ^ (32 - 2 * w) + e1.code * 2 ^ (32 - w)), BitVec.ofNat 32 (bit e0.ovf + bit e1.ovf),
        statusWord false false (e0.ovf || e1.ovf) false (e0.inx || e1.inx)⟩) ∧
    starts (.cvSc gd n src) (fun l =>
      let ea := (b l).toNat % 256
      let eb := (b l).toNat / 256 % 256
      let e : Int := (ea : Int) + eb - 254
      let r : LaneOut := if isNan (a l) then arithmetic [a l] .rne none
        else if ea = 255 ∨ eb = 255 then ⟨0x7FC00000#32, 0, 0⟩
        else match ofFp32 (a l) with
          | .fin x => arithFin (x.scale (if (b l).getLsbD 16 then -e else e)) sl.rnd sl.sat false
          | _ => ⟨a l, 0, 0⟩
      ⟨r.res, hi l, r.st⟩) ∧
    (sl.afmt.width = sl.bfmt.width → starts (.cvDot gd n src) fun l =>
      let ts : List Term := (List.range k).map fun i => ⟨el sl.afmt (a l) i, el sl.bfmt (b2 l) i, 127, 127⟩
      if sl.accInt then ⟨dotInt sl.afmt sl.bfmt (b l) ts, hi l, 0⟩
      else
        let d := dotSum sl.afmt sl.bfmt (b l) ts
        let snan (v : Word) : Bool := isNan v && !v.getLsbD 22
        ⟨d.code, hi l, statusWord (d.invalid || snan (b l) || ts.any fun t => snan (cvtUp t.a sl.afmt) || snan (cvtUp t.b sl.bfmt)) false d.ovf d.unf d.inx⟩) ∧
    (sl.afmt.width ≠ sl.bfmt.width → m.real ≠ 0 → exec (.cvDot gd n src) s = s.traps m 0x0F m.real 0) ∧
    (sl.afmt.width ≠ sl.bfmt.width → m.real = 0 → starts (.cvDot gd n src) fun l =>
      let p := Config.dotOfUnequal sl.afmt.width sl.bfmt.width (a l) (b2 l) (b l)
      ⟨p.1, hi l, p.2⟩)) ∧
  (∀ (s : State) gd src m, s.Issues gd src m → m.en ≠ 0 →
    let a := m.latchW .cx .o1
    let b := m.tw
    let hi := m.x.ctx.port .cx .hi
    let st (nx ovf : Bool) : Word := statusWord false false ovf false nx
    let starts (i : Instr) (f : Nat → LaneOut) : Prop := exec i s = .next (s.start m.w .cx [.res, .hi, .st] m.en 4 f)
    let pair (f : Fmt) (mode : Rnd) (l : Nat) : LaneOut :=
      let x := cvtDn (ofFp32 (a l)) f mode false
      let y := cvtDn (ofFp32 (b l)) f mode false
      ⟨BitVec.ofNat 32 (x.code + 65536 * y.code), hi l, st (x.inx || y.inx) (x.ovf || y.ovf)⟩
    let toInt (mode : Rnd) (lo up : Int) (l : Nat) : LaneOut := match ofFp32 (b l) with
      | .nan _ => ⟨0, hi l, st false true⟩
      | .inf neg => ⟨BitVec.ofInt 32 (if neg then lo else up), hi l, st false true⟩
      | .fin x =>
        let q := roundQuot mode x.num x.den
        let n : Int := if x.neg then -(q : Int) else q
        ⟨BitVec.ofInt 32 (if n < lo then lo else if up < n then up else n), hi l, st (decide (q * x.den ≠ x.num)) (decide (n < lo ∨ up < n))⟩
    let fromInt (i : Int) (l : Nat) : LaneOut :=
      let r := cvtDn (.fin ⟨decide (i < 0), i.natAbs, 1⟩) .fp32 .rne false
      ⟨BitVec.ofNat 32 r.code, hi l, st r.inx r.ovf⟩
    let half (w : Word) : Word := (if w.toInt < -32768 then 0x8000#16 else if 32767 < w.toInt then 0x7FFF#16 else w.setWidth 16).setWidth 32
    let clamped (w : Word) : Bool := decide (w.toInt < -32768 ∨ 32767 < w.toInt)
    starts (.cxF2bf gd src) (pair .bf16 .rne) ∧ starts (.cxF2bfZ gd src) (pair .bf16 .rtz) ∧
    starts (.cxF2h gd src) (pair .fp16 .rne) ∧ starts (.cxF2hZ gd src) (pair .fp16 .rtz) ∧
    starts (.cxBf2f gd src) (fun l => ⟨b l <<< 16, b l &&& 0xFFFF0000#32, 0⟩) ∧
    starts (.cxH2f gd src) (fun l => ⟨cvtUp ((b l).toNat % 65536) .fp16, cvtUp ((b l).toNat / 65536) .fp16, 0⟩) ∧
    starts (.cxF2i gd src) (toInt .rne (-2147483648) 2147483647) ∧ starts (.cxF2iZ gd src) (toInt .rtz (-2147483648) 2147483647) ∧
    starts (.cxF2ui gd src) (toInt .rne 0 4294967295) ∧ starts (.cxF2uiZ gd src) (toInt .rtz 0 4294967295) ∧
    starts (.cxI2f gd src) (fun l => fromInt (b l).toInt l) ∧ starts (.cxUi2f gd src) (fun l => fromInt (b l).toNat l) ∧
    starts (.cxPack gd src) (fun l => ⟨half (b l) <<< 16 ||| half (a l), hi l, st false (clamped (a l) || clamped (b l))⟩) ∧
    starts (.cxUnpack gd src) (fun l => ⟨((b l).setWidth 16).signExtend 32, (b l).sshiftRight 16, 0⟩))

/-! Cross-lane operations (08_control_and_cross_lane.md). -/

/-- The take forms and spread are ready three cycles later. A take gives each enabled lane o1 of the source lane its operand names within the lane's
segment, with hi 1, or its own o1 with hi 0 where that lane is out of the segment or vacant; spread gives every lane T of the lowest enabled
lane, and the mask of the enabled lanes in hi; a shadow lane receives its partner's results (R197, R198). -/
def Obligations.Takes : Prop :=
  ∀ (s : State) gd src m, s.Issues gd src m → m.real ≠ 0 →
    let o := m.latchW .xl .o1
    let size (l : Nat) : Nat := 32 / 2 ^ min ((m.tw l).toNat / 256 % 8) 4
    let base (l : Nat) : Nat := l / size l * size l
    let d (l : Nat) : Nat := (m.tw l).toNat % 64
    let take (src : Nat → Int) (l : Nat) : LaneOut :=
      let k := src l
      if base l ≤ k ∧ k < base l + size l ∧ m.x.ctx.vac.getLsbD k.toNat = false then ⟨o k.toNat, 1, 0⟩ else ⟨o l, 0, 0⟩
    let starts (i : Instr) (f : Nat → LaneOut) : Prop := exec i s = .next (s.start m.w .xl [.res, .hi] m.en 3 fun l =>
      f (if m.x.ctx.shadows.getLsbD l then l ^^^ 16 else l))
    starts (.xlTakeIx gd src) (take fun l => base l + d l % size l) ∧
    starts (.xlTakeRot gd src) (take fun l => base l + (l + d l) % size l) ∧
    starts (.xlTakeSh gd src) (take fun l => if d l < 32 then (l : Int) + d l else (l : Int) + d l - 64) ∧
    starts (.xlTakeMir gd src) (take fun l => (l ^^^ (d l % size l) : Nat)) ∧
    starts (.xlSpread gd src) (fun _ => ⟨m.tw m.low, m.real, 0⟩)

/-- The reductions, ready eight cycles later, range over the enabled lanes that are no shadows and give every lane the same value with their mask
in hi; the prefixes, ready after ten, range over the lanes up to each lane; the floating sums are exact, are rounded once, and put their flags in hi
(R199 to R201). The flags of an overflow: the model's own reading (log entry 5). -/
def Obligations.Reductions : Prop :=
  ∀ (s : State) gd src m, s.Issues gd src m → m.real ≠ 0 →
    let ls := lanesOf m.real
    let upTo (l : Nat) : List Nat := ls.filter fun k => decide (k ≤ l)
    let starts (i : Instr) (lat : Nat) (f : Nat → LaneOut) : Prop := exec i s = .next (s.start m.w .xl [.res, .hi] m.en lat fun l =>
      f (if m.x.ctx.shadows.getLsbD l then l ^^^ 16 else l))
    let all (i : Instr) (w : Word) : Prop := starts i 8 fun _ => ⟨w, m.real, 0⟩
    let sum (ks : List Nat) : Word := BitVec.ofNat 32 (ks.map fun k => (m.tw k).toNat).sum
    let fsum (ks : List Nat) : LaneOut :=
      let vs := ks.map m.tw
      let units : Int := (vs.map fun v => match ofFp32 v with | .fin x => x.signed * 2 ^ 149 / x.den | _ => 0).sum
      let r := if vs.any isNan then arithmetic vs .rne none
        else if vs.contains 0x7F800000#32 && vs.contains 0xFF800000#32 then ⟨0x7FC00000#32, 0, 1⟩
        else if vs.contains 0x7F800000#32 then ⟨0x7F800000#32, 0, 0⟩
        else if vs.contains 0xFF800000#32 then ⟨0xFF800000#32, 0, 0⟩
        else if units = 0 then ⟨if vs.all (· == 0x80000000#32) then 0x80000000#32 else 0, 0, 0⟩
        else arithmetic [] .rne (some (.fin ⟨decide (units < 0), units.natAbs, 2 ^ 149⟩))
      ⟨r.res, r.st, 0⟩
    all (.xlSum gd src) (sum ls) ∧
    all (.xlMinS gd src) (BitVec.ofInt 32 (((ls.map fun k => (m.tw k).toInt).min?).getD 0)) ∧
    all (.xlMaxS gd src) (BitVec.ofInt 32 (((ls.map fun k => (m.tw k).toInt).max?).getD 0)) ∧
    all (.xlAnd gd src) (maskWhere fun b => ls.all fun k => (m.tw k).getLsbD b) ∧
    all (.xlOr gd src) (maskWhere fun b => ls.any fun k => (m.tw k).getLsbD b) ∧
    all (.xlEvery gd src) (if ∀ k ∈ ls, m.tw k ≠ 0 then 1 else 0) ∧ all (.xlSome gd src) (if ∃ k ∈ ls, m.tw k ≠ 0 then 1 else 0) ∧
    all (.xlMask gd src) (maskWhere fun k => m.real.getLsbD k && decide (m.tw k ≠ 0)) ∧
    starts (.xlFsum gd src) 8 (fun _ => fsum ls) ∧ starts (.xlPreAdd gd src) 10 (fun l => ⟨sum (upTo l), m.real, 0⟩) ∧
    starts (.xlPreFadd gd src) 10 (fun l => fsum (upTo l))

/-! Memory operations (07_memory_operations.md). -/

/-- The forms of ls that make an access, with their kinds (R150). -/
def lsForms (gd : Guard) (src : Src) : List (Instr × AccKind) :=
  [(.lsLdB gd src, .load 1 false), (.lsLdBs gd src, .load 1 true), (.lsLdH gd src, .load 2 false), (.lsLdHs gd src, .load 2 true),
   (.lsLdW gd src, .load 4 false), (.lsStB gd src, .store 1), (.lsStH gd src, .store 2), (.lsStW gd src, .store 4)] ++
  [(.lsAtAdd gd src, .atomic 0), (.lsAtAnd gd src, .atomic 1), (.lsAtOr gd src, .atomic 2), (.lsAtXor gd src, .atomic 3),
   (.lsAtMinS gd src, .atomic 4), (.lsAtMaxS gd src, .atomic 5), (.lsAtMinU gd src, .atomic 6), (.lsAtMaxU gd src, .atomic 7),
   (.lsAtXchg gd src, .atomic 8), (.lsAtCas gd src, .atomic 9), (.lsAtFadd gd src, .atomic 10)] ++
  [(.lsCwb gd src, .cwb), (.lsCinvWb gd src, .cinvWb), (.lsCinvDis gd src, .cinvDis)]

/-- The forms of sp (R150, R169). -/
def spForms (gd : Guard) (src : Src) : List (Instr × AccKind) :=
  [(.spLdB gd src, .load 1 false), (.spLdH gd src, .load 2 false), (.spLdW gd src, .load 4 false), (.spStB gd src, .store 1),
   (.spStH gd src, .store 2), (.spStW gd src, .store 4), (.spAtAdd gd src, .atomic 0), (.spAtCas gd src, .atomic 9), (.spAtXchg gd src, .atomic 8)]

/-- The alignment of R152. -/
def accAlign : AccKind → Nat
  | .load w _ => w
  | .store w => w
  | .atomic _ => 4
  | _ => 1

/-- Whether it reads, and whether it changes memory: a store or an atomic has a third input. -/
def accReads : AccKind → Bool
  | .load _ _ => true
  | .atomic _ => true
  | _ => false
def accWrites : AccKind → Bool
  | .store _ => true
  | .atomic _ => true
  | _ => false

/-- The address of R151: the sum of the 64-bit o1 and the sign-extended offset, T or, for a store or atomic, o2. -/
def accAddr (m : MoveIn) (k : AccKind) (l : Nat) : Dword :=
  m.latch .ls .o1 l + (if accWrites k then m.latchW .ls .o2 l else m.tw l).signExtend 64

/-- The permissions of R154. -/
def accPermits (k : AccKind) (p : Page) (sup : Bool) : Bool :=
  (!accReads k || p.r) && (match k with | .load _ _ => true | _ => p.w && decide (p.coh ≠ 3)) && (k != .cinvDis || p.dis) && (!p.supo || sup)

/-- The lanes in which a shadow pair differs, in its enable bits or in what `f` gives for it (R375). -/
def shadowMismatch (m : MoveIn) (f : Nat → List Dword) : Mask :=
  maskWhere fun p => m.c.cap.mask.getLsbD p && !m.x.ctx.vac.getLsbD p && m.x.ctx.vac.getLsbD (p ^^^ 16) && m.x.ctx.wstat.getLsbD 3 &&
    (m.en.getLsbD p != m.en.getLsbD (p ^^^ 16) || (m.en.getLsbD p && f p != f (p ^^^ 16)))

/-- What the shadow compare of a store or atomic of ls compares: the address and the data. -/
def lsMismatch (m : MoveIn) (k : AccKind) : Mask :=
  if accWrites k then shadowMismatch m fun l => accAddr m k l :: (if k = .atomic 9 then [m.latch .ls .o3 l] else []) ++ [m.t l] else 0

/-- The enabled lanes, shadows apart, that satisfy `p`. -/
def realWhere (m : MoveIn) (p : Nat → Bool) : Mask := maskWhere fun l => m.real.getLsbD l && p l

/-- The lowest lane of a mask, 0 for none. -/
def lowestOf (k : Mask) : Nat := ((List.range 32).find? fun l => k.getLsbD l).getD 0

/-- The checks of an ls trigger in their order: a shadow mismatch, MISALIGNED, then the hold-back until every lane's page is known, then
PAGE_FAULT, PAGE_POOL and PROTECTION; each trap names the enabled lanes that have its cause and the address of the lowest (R152 to R154,
R265, R375). Log entries 11, 12: the model's own readings in it. -/
def Obligations.LsFaults : Prop :=
  ∀ (s : State) gd src m i k, s.Issues gd src m → m.real ≠ 0 → (i, k) ∈ lsForms gd src →
    let a := accAddr m k
    let at_ (l : Nat) : Option Xlate := s.laneXlate m.c m.x l (a l)
    let sup := m.x.ctx.wstat.getLsbD 4
    let mis := realWhere m fun l => decide ((a l).toNat % accAlign k ≠ 0)
    let unknown := realWhere m fun l => decide (at_ l = none)
    let waits := realWhere m fun l => match at_ l with | some .claimed => true | some (.page p) => p.flip | _ => false
    let fault := realWhere m fun l => decide (at_ l = some .fault)
    let pool := realWhere m fun l => decide (at_ l = some .pool)
    let prot := realWhere m fun l => match at_ l with | some (.page p) => !accPermits k p sup | _ => false
    let traps (c : Nat) (f : Mask) : Prop := f ≠ 0 → exec i s = s.traps m c f (a (lowestOf f))
    (lsMismatch m k ≠ 0 → exec i s = s.traps m 0x08 (lsMismatch m k) 0) ∧
    (lsMismatch m k = 0 → traps 0x06 mis ∧ (mis = 0 →
      (unknown ≠ 0 → ∃ pages, (∀ v, v ∈ pages ↔ ∃ l < 32, unknown.getLsbD l = true ∧ v = (a l).toNat / 65536 * 65536) ∧
        exec i s = .next (s.lookPages m.w m.c.seq pages)) ∧
      (unknown = 0 → (waits ≠ 0 → exec i s = .next (s.lookPages m.w m.c.seq [])) ∧ (waits = 0 →
        traps 0x03 fault ∧ (fault = 0 → traps 0x04 pool ∧ (pool = 0 → traps 0x05 prot))))))

/-- An ls trigger whose lanes are aligned and translate to pages that permit it enters its access, whatever the caches hold: the FIFO entry and LDC
for a load or atomic, STC for a store or line operation, st not ready in its lanes; each lane's address, physical address, data and line are the
access's; no memory, no register and no other wave changes (R15, R21, R150, R151, R156 to R158, R163). But a load, store or atomic for whose
lines the core's miss slots have no room, a line operation in a window for whose drawer requests they have none, and a load of a line whose discard its
window holds, waits in place (R3, R171, R319). Log entries 12, 98: the model's own readings in it. -/
def Obligations.LsStarts : Prop :=
  ∀ (s : State) gd src m i k (page : Nat → Page), s.Issues gd src m → m.real ≠ 0 → (i, k) ∈ lsForms gd src →
    let a := accAddr m k
    let pa (l : Nat) : Nat := (page l).addr (a l).toNat
    let fifo := accReads k
    let loads := accReads k && !accWrites k
    lsMismatch m k = 0 →
    (∀ l < 32, m.real.getLsbD l = true → (a l).toNat % accAlign k = 0 ∧ s.laneXlate m.c m.x l (a l) = some (.page (page l)) ∧
      accPermits k (page l) (m.x.ctx.wstat.getLsbD 4) = true ∧ (page l).flip = false) →
    let us := groupLines (lanesOf m.real) fun l => s.lineUse (page l) (pa l) l
    let full := if (fifo || accWrites k) = true then s.slotsFree (coreOf m.w) us = false
      else m.x.win.isSome = true ∧ s.slotsFree (coreOf m.w) (us.filter s.takesSlot) = false
    let held := loads = true ∧ ∃ l < 32, m.real.getLsbD l = true ∧ (s.scratchAt (pa l)).isSome = false ∧
      ∃ j b, (j, b) ∈ m.x.accs ∧ b.win = true ∧ b.kind = .cinvDis ∧ ∃ u ∈ b.lines, u.place = .mem (pa l / 128)
    (full ∨ held → exec i s = .next (s.lookPages m.w m.c.seq [])) ∧
    (¬full → ¬held → ∃ t y b, exec i s = .next t ∧ (∀ v, v ≠ m.w → t.wave? v = s.wave? v) ∧ s.SameMemory t ∧
      t.wave? m.w = some y ∧ Map.find? y.accs m.x.nextOp = some b ∧ b.kind = k ∧ b.sp = false ∧ b.en = m.en ∧ b.lanes = m.real ∧
      (∀ l < 32, m.real.getLsbD l = true → Map.get 0 b.addr l = a l ∧ Map.get 0 b.pa l = pa l ∧
        (accWrites k = true → Map.get 0 b.data l = if k = .atomic 9 then m.latchW .ls .o3 l else m.tw l) ∧
        (k = .atomic 9 → Map.get 0 b.data2 l = m.tw l) ∧ ∃ u ∈ b.lines, u.line = pa l / 128 ∧ u.lanes.getLsbD l = true) ∧
      y.ctx = { m.x.ctx with busy := y.ctx.busy, last := y.ctx.last, ldc := m.x.ctx.ldc + (if fifo then 1 else 0)
                             stc := m.x.ctx.stc + (if fifo then 0 else 1),
                             lsFifo := m.x.ctx.lsFifo ++ (if fifo then [⟨m.x.nextOp, m.en, [], false⟩] else []) } ∧
      (∀ l < 32, m.en.getLsbD l = true → (Map.get 0 y.ctx.busy (portVec .ls .st)).getLsbD l = true) ∧
      (∀ v, v ≠ portVec .ls .st → Map.get 0 y.ctx.busy v = Map.get 0 m.x.ctx.busy v) ∧
      y = { m.x with ctx := y.ctx, accs := y.accs, nextOp := m.x.nextOp + 1, win := y.win, trap := y.trap, lastPage := y.lastPage } ∧
      y.win.map (·.ckpt) = m.x.win.map (·.ckpt) ∧
      y.win.map (·.count) = m.x.win.map (fun v => v.count + if loads || !fifo then 1 else 0) ∧
      y.trap.map (·.saved) = m.x.trap.map (·.saved))

/-- The forms without an access: ls.pf never faults and changes no wave, no team and no memory; ls.fence starts and
leaves st not ready until it completes; ls.pol writes the policy word from the lowest enabled lane and nothing else (R161, R164, R166). -/
def Obligations.LsOthers : Prop :=
  ∀ (s : State) gd src m, s.Issues gd src m → m.real ≠ 0 →
    (∃ t, exec (.lsPf gd src) s = .next t ∧ t.waves = s.waves ∧ t.teams = s.teams ∧ s.SameMemory t) ∧
    (∃ t y b, exec (.lsFence gd src) s = .next t ∧ s.OnlyWaveAndAgenda t m.w ∧ t.wave? m.w = some y ∧ Map.find? y.accs m.x.nextOp = some b ∧
      b.kind = .fence ((m.tw m.low).toNat % 4) ∧ b.en = m.en ∧ y.ctx = { m.x.ctx with busy := y.ctx.busy, last := y.ctx.last } ∧
      (∀ l < 32, m.en.getLsbD l = true → (Map.get 0 y.ctx.busy (portVec .ls .st)).getLsbD l = true)) ∧
    ∃ t y, exec (.lsPol gd src) s = .next t ∧ s.OnlyWave t m.w ∧ t.wave? m.w = some y ∧ y = { m.x with ctx := { m.x.ctx with pol := m.tw m.low } }

/-- The offset of R167. -/
def spOffset (m : MoveIn) (k : AccKind) (l : Nat) : Nat :=
  let b : Word := match k with | .load _ _ => m.tw l | .atomic 9 => 0 | _ => m.latchW .sp .o2 l
  ((m.latchW .sp .o1 l).toNat + b.toNat) % 2 ^ 32

/-- What the shadow compare of a store or atomic of sp compares. -/
def spMismatch (m : MoveIn) (k : AccKind) : Mask :=
  if accWrites k then shadowMismatch m fun l =>
    BitVec.ofNat 64 (spOffset m k l) :: (if k = .atomic 9 then [m.latch .sp .o2 l] else []) ++ [m.t l] else 0

/-- B of R169: the largest number of distinct words, or for atomics of lanes, of one of the 32 banks. -/
def bankConflicts (m : MoveIn) (k : AccKind) : Nat :=
  let ls := lanesOf m.real
  let words := ls.map fun l => spOffset m k l / 4
  let words := match k with | .atomic _ => words | _ => words.eraseDups
  ((List.range 32).map fun b => words.countP (· % 32 == b)).foldl max 0

/-- An sp trigger checks its bounds against the team's SCRATCH, then its alignment (R167, R168); otherwise it enters its access, whose lines
are due after 20 + (B − 1) cycles, or 28 + (B − 1) for an atomic (R150, R169). -/
def Obligations.Scratchpad : Prop :=
  ∀ (s : State) gd src m i k, s.Issues gd src m → m.real ≠ 0 → (i, k) ∈ spForms gd src →
    let o := spOffset m k
    let size := ((s.team? m.x.team).map (·.scratch)).getD 0
    let fifo := accReads k
    let out := realWhere m fun l => decide (size < o l + accAlign k)
    let mis := realWhere m fun l => decide (o l % accAlign k ≠ 0)
    let lat := (match k with | .atomic _ => 28 | _ => 20) + (bankConflicts m k - 1)
    (spMismatch m k ≠ 0 → exec i s = s.traps m 0x08 (spMismatch m k) 0) ∧
    (spMismatch m k = 0 → out ≠ 0 → exec i s = s.traps m 0x07 out (BitVec.ofNat 64 (o (lowestOf out)))) ∧
    (spMismatch m k = 0 → out = 0 → mis ≠ 0 → exec i s = s.traps m 0x06 mis (BitVec.ofNat 64 (o (lowestOf mis)))) ∧
    (spMismatch m k = 0 → out = 0 → mis = 0 → ∃ t y b, exec i s = .next t ∧ s.OnlyWaveAndAgenda t m.w ∧ t.wave? m.w = some y ∧
      Map.find? y.accs m.x.nextOp = some b ∧ b.kind = k ∧ b.sp = true ∧ b.en = m.en ∧ b.lanes = m.real ∧
      (∀ l < 32, m.real.getLsbD l = true → Map.get 0 b.addr l = BitVec.ofNat 64 (o l) ∧
        (accWrites k = true → Map.get 0 b.data l = if k = .atomic 9 then m.latchW .sp .o2 l else m.tw l) ∧
        (k = .atomic 9 → Map.get 0 b.data2 l = m.tw l) ∧
        ∃ j u, b.lines[j]? = some u ∧ u.place = .scratch m.x.team (o l / 128) ∧ u.lanes.getLsbD l = true ∧
          ∃ e, t.Due (s.now + lat) e [m.w, m.x.nextOp, j]) ∧
      y.ctx = { m.x.ctx with busy := y.ctx.busy, last := y.ctx.last, stc := m.x.ctx.stc + (if fifo then 0 else 1)
                             spFifo := m.x.ctx.spFifo ++ (if fifo then [⟨m.x.nextOp, m.en, [], false⟩] else []) } ∧
      (∀ l < 32, m.en.getLsbD l = true → (Map.get 0 y.ctx.busy (portVec .sp .st)).getLsbD l = true))

/-! Control (08_control_and_cross_lane.md). -/

/-- The target of R177: the bundle's address plus the sign-extended T. -/
def ctTarget (m : MoveIn) (l : Nat) : Dword := m.c.cap.addr + (m.tw l).signExtend 64
/-- The next sequential address (R43). -/
def ctNext (m : MoveIn) : Dword := m.c.cap.addr + BitVec.ofNat 64 m.c.cap.len

/-- `t` is `s` with the outcome `f` in the enabled lanes of the bundle in progress, the other lanes' as they were (R29, R179). -/
def OutcomesSet (s t : State) (m : MoveIn) (f : Nat → Option (Dword × Nat)) : Prop :=
  ∃ c : Issue, t = { s with cur := some c } ∧ c = { m.c with outs := c.outs } ∧
    ∀ l < 32, Map.find? c.outs l = if m.real.getLsbD l = true then some (f l) else Map.find? m.c.outs l

/-- A later slot of the bundle decides lane `l` (R29, R59, R179). -/
def decidesLater (m : MoveIn) (l : Nat) : Prop :=
  ∃ k v i f, m.c.slot < k ∧ k < m.c.stop ∧ m.c.cap.words[k + 1]? = some v ∧ decodeMove v = .ok i ∧ moveFields i = some f ∧ f.port = 2 ∧
    unitOf f.unit = some .ct ∧ f.op ∈ [0, 1, 2, 4, 7] ∧ (Map.get 0 m.c.cap.en k).getLsbD l = true

/-- jmp gives each enabled lane its own target, br and call the lowest lane's; call's res is the return address relative to the target, one cycle
later, in the lanes that no later slot decides; a target that is no multiple of 4 raises MISALIGNED in its lanes (R59, R175, R177, R179). A shadow
pair that differs raises CHECK_MISMATCH (R375). Log entry 44: the model's own reading in it. -/
def Obligations.Branches : Prop :=
  ∀ (s : State) gd src m, s.Issues gd src m → m.real ≠ 0 →
    let jumps (i : Instr) (dest : Nat → Dword) (after : State → State → Prop) : Prop :=
      let diff := shadowMismatch m fun l => [dest l]
      let bad := realWhere m fun l => decide ((dest l).toNat % 4 ≠ 0)
      (diff ≠ 0 → exec i s = s.traps m 0x08 diff 0) ∧
      (diff = 0 → bad ≠ 0 → exec i s = s.traps m 0x06 bad (dest (lowestOf bad))) ∧
      (diff = 0 → bad = 0 → ∃ t r, exec i s = .next r ∧ after t r ∧ OutcomesSet s t m fun l => some (dest l, 0))
    let dest := ctTarget m m.low
    jumps (.ctJmp gd src) (ctTarget m) Eq ∧ jumps (.ctBr gd src) (fun _ => dest) Eq ∧
    jumps (.ctCall gd src) (fun _ => dest) fun t r => ∃ en : Mask,
      (∀ l < 32, en.getLsbD l = true ↔ m.en.getLsbD l = true ∧ ¬decidesLater m l) ∧
      r = if en = 0 then t else t.start m.w .ct [.res, .st] en 1 fun l => ⟨(ctNext m - dest).setWidth 32, 0, m.x.ctx.port .ct .st l⟩

/-- ct.exit makes its enabled lanes vacant at bundle end, which is its outcome for them; a wave that would leave with a live accumulator while it
holds the baton raises BATON, lanes that a control move further right decides not leaving by this one, and a shadow pair whose enable bits differ CHECK_MISMATCH
(R59, R179, R185, R237, R375). -/
def Obligations.Exits : Prop :=
  ∀ (s : State) gd src m, s.Issues gd src m → m.real ≠ 0 →
    let diff := shadowMismatch m fun _ => []
    let cl := s.clover (cloverOf m.w)
    let leaves := ∀ l < 32, m.x.ctx.vac.getLsbD l = true ∨
      ¬decidesLater m l ∧ (m.real.getLsbD l = true ∨ Map.find? m.c.outs l = some none)
    let stuck := leaves ∧ (∃ p, cl.baton = some (m.w, p)) ∧ cl.live ≠ []
    (diff ≠ 0 → exec (.ctExit gd src) s = s.traps m 0x08 diff 0) ∧
    (diff = 0 → stuck → exec (.ctExit gd src) s = s.traps m 0x0B m.real 0) ∧
    (diff = 0 → ¬stuck → ∃ t, exec (.ctExit gd src) s = .next t ∧ OutcomesSet s t m fun _ => none)

/-- The length of the bundle at `va`, which a slot needs: `out` is the slot's answer where it traps or waits, and `go` follows from the length. A
fetch fault of the address traps at the slot (R46, R180); a page to be looked up, a POOL entry that another handler owns and a bias flip make the
slot wait (R331, R334). A slot that committed before a trap has kept the length it read, which is its length when the bundle is re-entered (R363). -/
def LengthRead (s : State) (m : MoveIn) (va : Dword) (out : Host.Outcome State Fault Refusal) (go : Nat → Prop) : Prop :=
  let unread (c : Nat) := out = s.traps m c m.real (if c = 1 then 0 else va)
  let waits (need : List Nat) := out = .next (s.lookPages m.w m.c.seq need)
  match Map.find? m.c.cap.ends m.c.slot with
  | some n => go n
  | none =>
  if canonical va = false then unread 3 else
  match s.coreXlate m.c m.x va with
  | none => waits [va.toNat]
  | some .claimed => waits []
  | some .fault => unread 3
  | some .pool => unread 4
  | some (.page p) =>
    if p.flip = true then waits []
    else if p.x = false ∨ (p.supo = true ∧ m.x.ctx.wstat.getLsbD 4 = false) then unread 5
    else match decodeHeader (s.read (p.addr va.toNat) 4) with
      | .error _ => unread 1
      | .ok h => go (4 * (1 + h.nmov.val + h.nlim.val))

/-- ct.loop pushes a level, skips its body when COUNT is 0, or raises STACK; ct.lbrk leaves levels for its lanes or raises STACK; a bundle at END
whose length cannot be read traps at the slot, or waits for its translation (R27, R180, R182, R331, R334); the length read is kept with the captured bundle (R363). Log
entries 53, 106: the model's own readings in it. -/
def Obligations.Loops : Prop :=
  ∀ (s : State) gd src m, s.Issues gd src m → m.real ≠ 0 →
    let stack := s.traps m 0x11 m.real 0
    let loops := (m.x.ctx.seq m.c.seq).loops
    let count := m.latchW .ct .o1 m.low
    let fin := ctTarget m m.low
    let bad := fin.toNat % 4 ≠ 0 ∨ fin.toNat < (ctNext m).toNat ∨ ∃ v, loops.head? = some v ∧ v.fin = m.c.cap.addr
    let go := exec (.ctLoop gd src) s
    (bad → go = stack) ∧
    let noted (n : Nat) : Capture := { m.c.cap with ends := Map.put m.c.cap.ends m.c.slot n }
    (¬bad → count = 0 → LengthRead s m fin go fun n =>
      go = .next { s with cur := some { m.c with skip := some (fin + BitVec.ofNat 64 n), cap := noted n } }) ∧
    (¬bad → count ≠ 0 → 6 ≤ loops.length → go = stack) ∧
    (¬bad → count ≠ 0 → loops.length < 6 →
      go = .next { s with cur := some { m.c with push := some { start := ctNext m, fin := fin, count := count, index := 0 } } }) ∧
    let n := (m.tw m.low).toNat % 8
    let out := exec (.ctLbrk gd src) s
    (n = 0 ∨ loops.length < n → out = stack) ∧
    ∀ v, n ≠ 0 → loops[n - 1]? = some v → LengthRead s m v.fin out fun k =>
      ∃ t c, out = .next { t with cur := some { c with cap := noted k } } ∧ t.cur = some c ∧ OutcomesSet s t m fun _ => some (v.fin + BitVec.ofNat 64 k, n)

/-- ct.wait holds the fragment to its four limits; ct.yield stops it after the bundle only where a pre-emption is pending and no wave of the team
holds its clover's baton; ct.trap has SOFTWARE taken after its slot, with T as its code; ct.rcvw makes every non-vacant lane expected at its token
(R184, R193 to R195). -/
def Obligations.WaitsAndTraps : Prop :=
  ∀ (s : State) gd src m, s.Issues gd src m → m.real ≠ 0 →
    let v := (m.tw m.low).toNat
    let baton := ∃ t i w p, s.team? m.x.team = some t ∧ (i, w) ∈ t.slots ∧ (s.clover (cloverOf w)).baton = some (w, p)
    exec (.ctWait gd src) s = .next { s with cur := some { m.c with hold := .counters (v % 32) (v / 32 % 64) (v / 2048 % 16) (v / 32768 % 16) } } ∧
    (m.x.ctx.wstat.getLsbD 7 = false ∨ baton → exec (.ctYield gd src) s = .next s) ∧
    (m.x.ctx.wstat.getLsbD 7 = true → ¬baton → exec (.ctYield gd src) s = .next { s with cur := some { m.c with hold := .stopped } }) ∧
    exec (.ctTrap gd src) s = .next { s with cur := some { m.c with
      after := some { cause := 0x10, slot := m.c.slot + 1, mask := m.real, info := BitVec.ofNat 64 v, pc := none } } } ∧
    ∃ t y, exec (.ctRcvw gd src) s = .next t ∧ s.OnlyWave t m.w ∧ t.wave? m.w = some y ∧
      y = { m.x with ctx := { m.x.ctx with join := y.ctx.join } } ∧
      ∀ k, Map.find? y.ctx.join k = if k = v % 16 then
          (match Map.find? m.x.ctx.join k with
          | some j => some { j with expect := j.expect ||| ~~~m.x.ctx.vac }
          | none => some { expect := ~~~m.x.ctx.vac, arrived := 0 })
        else Map.find? m.x.ctx.join k

/-- ct.spawn sends the threads of the enabled lanes, ascending, to the bins of the wave's die, where they arrive 24 cycles later, and then has OK
or, for a misaligned or non-canonical entry, whose thread is dropped, BADENTRY in st (R175, R176, R186). ct.launch raises MISALIGNED unless its
record stands at a multiple of 256, answers DENIED where the partition does not permit it, and otherwise sends an enq of the record's address to
the partition's launch queue (R187). Log entries 41, 44: the model's own readings in it. -/
def Obligations.SpawnAndLaunch : Prop :=
  ∀ (s : State) gd src m, s.Issues gd src m → m.real ≠ 0 →
    let entry (l : Nat) : Dword := m.latch .ct .o1 l + (m.tw l).signExtend 64
    let bad (l : Nat) : Bool := decide ((entry l).toNat % 4 ≠ 0) || !canonical (entry l)
    let sent := (lanesOf m.real).filter fun l => !bad l
    let d := dieOf m.w
    let st (k : Nat → Word) (l : Nat) : LaneOut := ⟨m.x.ctx.port .ct .res l, 0, k l⟩
    let thread (l : Nat) : Thread :=
      { launch := m.x.launch, entry := entry l, words := (List.range 6).map fun k => m.x.ctx.reg (192 + k) l, flush := (m.latchW .ct .o2 l).getLsbD 0 }
    (∃ t, exec (.ctSpawn gd src) s = .next (t.start m.w .ct [.res, .st] m.en 24 (st fun l => if bad l then 6 else 0)) ∧
      t.waves = s.waves ∧ t.now = s.now ∧ s.SameMemory t ∧
      if sent = [] then t = { s with nextId := t.nextId }
      else t.Due (s.now + 24) .spawnBinArrival [d, s.nextId] ∧ Map.find? (t.die d).threads s.nextId = some (sent.map thread)) ∧
    let a := m.latch .ct .o1 m.low + (m.tw m.low).signExtend 64
    let p := s.part m.x.part
    let go := exec (.ctLaunch gd src) s
    (a.toNat % 256 ≠ 0 → go = s.traps m 0x06 m.real a) ∧
    (a.toNat % 256 = 0 → p.psched.getLsbD 3 = false →
      go = .next (s.start m.w .ct [.res, .st] m.en (60 + 360 * ringDist d (handleHome p.lqh)) (st fun _ => 4))) ∧
    (a.toNat % 256 = 0 → p.psched.getLsbD 3 = true → ∃ t y q, go = .next t ∧ t.wave? m.w = some y ∧ y.quOut = m.x.quOut ++ [m.x.nextOp] ∧
      y.ctx = { m.x.ctx with busy := y.ctx.busy, last := y.ctx.last } ∧ Map.find? t.qops s.nextId = some q ∧ q.kind = .enq ∧
      q.handle = p.lqh ∧ q.part = m.x.part ∧ q.count = 1 ∧ q.forms = [[7, a.setWidth 32, (a.toNat / 2 ^ 32 : Nat), 1]] ∧ q.wave = some m.w ∧
      q.lanes = m.en ∧ q.unit = .ct ∧ s.SameMemory t)

/-- A barrier completes once every lane of the team's waves that is not vacant has arrived, the lanes of killed and retired waves counting as vacant: PH goes up
by one, no lane has arrived any more, its timer stops, and every fragment held there goes on, with PH in ct.res and the lowest killed sibling not yet reported
in ct.st; otherwise the test changes nothing. The four barriers are tested in order (R190, R191). -/
def BarrierCompletes : Prop :=
  (∀ (s : State) team, s.barTests team = (((s.barTest team 0).barTest team 1).barTest team 2).barTest team 3) ∧
  ∀ (s : State) team k t, s.team? team = some t → k < 4 → t.state = .resident →
    let vacant (i : Nat) : Mask := if t.killed.contains i || t.retired.contains i then BitVec.allOnes 32 else match Map.find? t.slots i with
      | some w => (s.wave w).ctx.vac
      | none => BitVec.allOnes 32
    let met := ∀ i < t.waves, Map.get 0 t.arr (4 * i + k) ||| vacant i = BitVec.allOnes 32
    (¬met → s.barTest team k = s) ∧
    (met → ∃ u v, s.barTest team k = u ∧ s.SameMemory u ∧ u.team? team = some v ∧ v = { t with ph := v.ph, arr := v.arr, timer := v.timer, timing := v.timing, abn := v.abn } ∧
      (∀ j, Map.get 0 v.ph j = if j = k then Map.get 0 t.ph k + 1 else Map.get 0 t.ph j) ∧ (∀ j, Map.get 0 v.arr j = if j % 4 = k then 0 else Map.get 0 t.arr j) ∧
      (∀ j, Map.find? v.timing j = if j = k then none else Map.find? t.timing j) ∧ (∀ j, Map.find? v.timer j = if j = k then none else Map.find? t.timer j) ∧
      ∀ i w x q g m, i < t.waves → Map.find? t.slots i = some w → (∀ j, Map.find? t.slots j = some w → j = i) → s.wave? w = some x →
        Map.find? x.ctx.seqs q = some g → g.hold = .barrier k m →
        let abn := Map.get 0 t.abn i
        ∃ y, u.wave? w = some y ∧ Map.find? y.ctx.seqs q = some { g with hold := .none } ∧
          Map.get 0 v.abn i = (if abn = 0 then 0 else abn &&& ~~~(BitVec.ofNat 32 (2 ^ lowestOf abn))) ∧
          ∀ l < 32, m.getLsbD l = true → y.ctx.reg (portVec .ct .res) l = Map.get 0 t.ph k + 1 ∧
            y.ctx.reg (portVec .ct .st) l = (if abn = 0 then 0 else BitVec.ofNat 32 (1 + 256 * lowestOf abn)) ∧
            (Map.get 0 y.ctx.busy (portVec .ct .res)).getLsbD l = false ∧ (Map.get 0 y.ctx.busy (portVec .ct .st)).getLsbD l = false)

/-- The barrier operations: sign records the arrival of its enabled lanes and answers PH, with REARRIVED for a lane that had arrived, one cycle
later; meet arrives likewise and holds the fragment; hold passes at once, with PH and the status of R191, where none of its lanes waits, and holds
otherwise; a phase's first arrival starts the timer (R188, R189, R191, R192). -/
def Obligations.Barriers : Prop :=
  BarrierCompletes ∧ ∀ (s : State) gd src m t, s.Issues gd src m → m.real ≠ 0 → s.team? m.x.team = some t → m.x.index < t.waves →
    let k := (m.tw m.low).toNat % 4
    let key := 4 * m.x.index + k
    let ph := Map.get 0 t.ph k
    let arr := Map.get 0 t.arr key
    let abn := Map.get 0 t.abn m.x.index
    let first := ∀ i < t.waves, Map.get 0 t.arr (4 * i + k) = 0
    let limit := 2 ^ (((s.launch? t.launch).map (·.lrec.barto)).getD 24) - Map.get 0 t.timer k
    let arrived (u : State) : Prop := ∃ v, u.team? m.x.team = some v ∧ v = { t with arr := v.arr, timing := v.timing } ∧
      (∀ j, Map.get 0 v.arr j = if j = key then arr ||| m.real else Map.get 0 t.arr j) ∧
      (¬first → v.timing = t.timing) ∧ (first → Map.find? v.timing k = some s.now ∧ u.Due (s.now + limit) .barrierTimeout [m.x.team, k, s.now])
    let held (u : State) : Prop := u.cur = some { m.c with hold := .barrier k m.en } ∧ ∃ y, u.wave? m.w = some y ∧
      y.ctx = { m.x.ctx with busy := y.ctx.busy, last := y.ctx.last } ∧
      ∀ l < 32, m.en.getLsbD l = true → (Map.get 0 y.ctx.busy (portVec .ct .res)).getLsbD l = true ∧ (Map.get 0 y.ctx.busy (portVec .ct .st)).getLsbD l = true
    let answers (u : State) (st : Nat → Word) : Prop := u.Due (s.now + 1) .resultReady [m.w, m.x.nextOp] ∧ ∃ y p, u.wave? m.w = some y ∧
      Map.find? y.pend m.x.nextOp = some p ∧ ∀ l < 32, m.en.getLsbD l = true →
        Map.get 0 p.vals (32 * portVec .ct .res + l) = ph ∧ Map.get 0 p.vals (32 * portVec .ct .st + l) = st l
    (m.x.inject = [] → ∃ u, exec (.ctBarSign gd src) s = .next u ∧ arrived u ∧ u.cur = s.cur ∧ answers u fun l => if arr.getLsbD l then 3 else 0) ∧
    (∃ u, exec (.ctBarMeet gd src) s = .next u ∧ arrived u ∧ held u) ∧
    (arr &&& m.real ≠ 0 → ∃ u, exec (.ctBarHold gd src) s = .next u ∧ u.teams = s.teams ∧ held u) ∧
    (arr &&& m.real = 0 → m.x.inject = [] → ∃ u v, exec (.ctBarHold gd src) s = .next u ∧ u.cur = s.cur ∧ u.team? m.x.team = some v ∧
      v = { t with abn := v.abn } ∧ (abn = 0 → answers u fun _ => 0) ∧
      (abn ≠ 0 → (answers u fun _ => BitVec.ofNat 32 (1 + 256 * lowestOf abn)) ∧
        Map.get 0 v.abn m.x.index = abn &&& ~~~(BitVec.ofNat 32 (2 ^ lowestOf abn))))

/-! Queues (09_queue_and_engine_operations.md). -/

/-- `t` is `s` after an operation of wave `m.w` has been sent to its queue controller: res and st are not ready in its lanes; it reaches the
controller 30 + 180 h + `extra` cycles later (R209, R220); a remote enqueue leaves in a packet on the peer link of its package at once, where the host
has acknowledged peers, to be answered no earlier than the peer round trip, and is otherwise refused (R404, R405, R422). A bind records handle and mode in its latch, which has no record and awaits the answer (R217). -/
def QueueSent (s t : State) (m : MoveIn) (k : QuKind) (h : Dword) (home n a : Nat) (forms : List (List Word)) (extra : Nat) : Prop :=
  let d := ringDist (dieOf m.w) home
  let remote := h.getLsbD 48 && k == .enq
  let binds := k = .bindU ∨ k = .bindS
  (∀ v, v ≠ m.w → t.wave? v = s.wave? v) ∧ s.SameMemory t ∧ ∃ y o, t.wave? m.w = some y ∧ Map.find? t.qops s.nextId = some o ∧
    y.quOut = m.x.quOut ++ (if k = .avail then [] else [m.x.nextOp]) ∧
    y.ctx = { m.x.ctx with busy := y.ctx.busy, last := y.ctx.last, heads := if binds then y.ctx.heads else m.x.ctx.heads } ∧
    (∀ j, y.ctx.head j = if binds ∧ j = a then
        { handle := h, spread := k == .bindS, bound := true, stale := false, pos := 0, recs := [], wait := m.x.nextOp } else m.x.ctx.head j) ∧
    (∀ p i v j, (p, i, v, j) ∈ t.bound ↔ (p, i, v, j) ∈ s.bound ∧ ¬(binds ∧ v = m.w ∧ j = a)) ∧
    (∀ l < 32, m.en.getLsbD l = true → (Map.get 0 y.ctx.busy (portVec .qu .res)).getLsbD l = true ∧ (Map.get 0 y.ctx.busy (portVec .qu .st)).getLsbD l = true) ∧
    o.kind = k ∧ o.handle = h ∧ o.part = m.x.part ∧ o.count = n ∧ o.arg = a ∧ o.forms = forms ∧ o.wave = some m.w ∧ o.lanes = m.en ∧
    o.op = m.x.nextOp ∧ o.unit = .qu ∧ o.dist = d ∧
    (remote = false → t.Due (s.now + (30 + 180 * d + extra)) .queueControllerOp [s.nextId, 0]) ∧
    (remote = true → if s.featack.getLsbD 5 = true then t.Due s.now .peerPacket [0, s.nextId] ∧
        let pkg := h.toNat / 2 ^ 38 % 2 ^ 10
        ∃ p, Map.find? t.packets s.nextId = some p ∧ p.pkg = pkg ∧ p.link = 72 * dieOf m.w + 64 + pkg % 8 ∧ p.op = some s.nextId ∧ p.reply = false ∧
          p.size = (forms.map (4 * ·.length)).foldl (· + ·) 0 ∧ p.due = 60 + extra + 1400 + 360 * ringDist (pkg % 4) home
      else t.Due (s.now + (30 + 180 * d + extra)) .queueControllerOp [s.nextId, 2])

/-- The qu triggers: a handle with a reserved bit set or a count outside 1 to 32 raises QUEUE, enq's bounds and alignment SCRATCH_BOUNDS and
MISALIGNED; otherwise the operation is sent to its controller. unbind frees its latch at once and answers 0 after 4 cycles; tsnow samples the
time base and is ready after 8 (R204, R208, R209, R211, R217, R220). Log entries 102, 104: the model's own readings in it. -/
def Obligations.QueueTriggers : Prop :=
  ∀ (s : State) gd src m, s.Issues gd src m → m.real ≠ 0 →
    let tv := (m.tw m.low).toNat
    let c3 := (m.latchW .qu .o3 m.low).toNat
    let h : Dword := m.latchW .qu .o2 m.low ++ m.latchW .qu .o1 m.low
    let ht : Dword := m.tw m.low ++ m.latchW .qu .o1 m.low
    let home (h : Dword) : Nat := h.toNat / 2 ^ 32 % 4
    let reserved (h : Dword) : Prop := h.toNat / 2 ^ 49 ≠ 0
    let refused (n : Nat) : Prop := reserved h ∨ n = 0 ∨ 32 < n
    let bad := s.traps m 0x12 m.real 0
    let sent (i : Instr) (k : QuKind) (h : Dword) (home n a : Nat) (forms : List (List Word)) (extra : Nat) : Prop :=
      ∃ t, exec i s = .next t ∧ QueueSent s t m k h home n a forms extra
    let size := ((s.team? m.x.team).map (·.scratch)).getD 0
    let f := s.formsAt m.x.team tv c3
    (refused tv → exec (.quEnq gd src) s = bad) ∧
    (¬refused tv → (size < f.2 → exec (.quEnq gd src) s = s.traps m 0x07 m.real (BitVec.ofNat 64 c3)) ∧
      (f.2 ≤ size → c3 % 4 ≠ 0 → exec (.quEnq gd src) s = s.traps m 0x06 m.real (BitVec.ofNat 64 c3)) ∧
      (f.2 ≤ size → c3 % 4 = 0 → sent (.quEnq gd src) .enq h (home h) tv 0 f.1 (2 * (tv - 1)))) ∧
    (refused tv → exec (.quClaim gd src) s = bad) ∧ (¬refused tv → sent (.quClaim gd src) .claim h (home h) tv 0 [] 0) ∧
    (refused c3 → exec (.quPub gd src) s = bad) ∧ (¬refused c3 → sent (.quPub gd src) .pub h (home h) c3 tv [] 0) ∧
    (reserved h → exec (.quBindU gd src) s = bad ∧ exec (.quBindS gd src) s = bad) ∧
    (¬reserved h → sent (.quBindU gd src) .bindU h (home h) 0 (tv % 4) [] 0 ∧ sent (.quBindS gd src) .bindS h (home h) 0 (tv % 4) [] 0) ∧
    (reserved ht → exec (.quAvail gd src) s = bad ∧ exec (.quDestroy gd src) s = bad) ∧
    (¬reserved ht → sent (.quAvail gd src) .avail ht (home ht) 0 0 [] 0 ∧ sent (.quDestroy gd src) .destroy ht (home ht) 0 0 [] 0) ∧
    sent (.quCreate gd src) .create 0 (tv / 2 ^ 20 % 4) 0 tv [] 0 ∧
    exec (.quTsnow gd src) s = .next (s.start m.w .qu [.res, .st] m.en 8 fun _ => ⟨s.time.setWidth 32, 0, (s.time >>> 32).setWidth 32⟩) ∧
    ∃ t y z, exec (.quUnbind gd src) s = .next t ∧ (s.start m.w .qu [.res, .st] m.en 4 fun _ => ⟨0, 0, 0⟩).wave? m.w = some y ∧
      t.Due (s.now + 4) .resultReady [m.w, m.x.nextOp] ∧ t.wave? m.w = some z ∧ z = { y with ctx := { y.ctx with heads := z.ctx.heads } } ∧
      (∀ p i w k, (p, i, w, k) ∈ t.bound ↔ (p, i, w, k) ∈ s.bound ∧ ¬(w = m.w ∧ k = tv % 4)) ∧
      ∀ k, (k = tv % 4 → (z.ctx.head k).bound = false ∧ (z.ctx.head k).recs = []) ∧ (k ≠ tv % 4 → z.ctx.head k = y.ctx.head k)

/-- `t` is `s` after queue operation `id`, which was `o`, has its answer, which reaches its issuer 30 + 180 h cycles later (R220); the operation is
performed (R282). -/
def QueueAnswered (s t : State) (id : Nat) (o : QuOp) (st : Nat) (res : Word) : Prop :=
  t.Due (s.now + (30 + 180 * o.dist)) .queueAnswer [id] ∧
  (∃ p, Map.find? t.qops id = some p ∧ p = { o with res := res, st := BitVec.ofNat 32 st, pos := p.pos, recs := p.recs }) ∧
  (o.kind ≠ .avail → o.kind ≠ .device → o.unit = .qu ∨ o.unit = .ct → ∀ w y, o.wave = some w → t.wave? w = some y → o.op ∉ y.quOut)

/-- An operation that has reached its controller does not wait there for older memory operations of its wave, which stand in earlier slots of its bundle
(R278, R298, R302). -/
def QueueUnheld (s : State) (o : QuOp) : Prop :=
  o.unit ≠ .ls ∧ (o.kind = .avail ∨ ∀ w x, o.wave = some w → s.wave? w = some x →
    (∀ j a, (j, a) ∈ x.accs → j < o.op → a.open = true → a.win = true) ∧ ∀ j ∈ x.quOut, o.op ≤ j)

/-- A controller has the context of a queue before it: it caches it, or no controller does and it has read the descriptor (R206). -/
def QueueAtHand (s : State) (d p idx stage : Nat) (c : QCtx) : Prop :=
  Map.find? (s.die d).qctx (qkey p idx) = some c ∨
    ((∀ e < 4, Map.find? (s.die e).qctx (qkey p idx) = none) ∧ d < 4 ∧ 1 ≤ stage ∧ s.readDesc d p idx = some c)

/-- A stored form is valid in a queue (R210). -/
def FormValid (c : QCtx) (fm : Nat) : Prop :=
  4 + 4 * popCount8 fm + (if c.ctl.getLsbD 7 then 8 else 0) ≤ 16 * (c.ctl.toNat / 32 % 4 + 1) ∧ (c.ctl.getLsbD 7 = true → fm / 64 % 4 = 0)

/-- The bytes of a stored form (R210). -/
def formBytes (f : List Word) : List (BitVec 8) :=
  (f.zipIdx.map fun (w, j) => if j = 0 then toBytes 1 w.toNat ++ [0, 0, 0] else toBytes 4 w.toNat).flatten

/-- `e` is context `c` with entries `i` to `i + n − 1` published: `k` more entries are visible, up to the first that is not published (R213). -/
def Published (c e : QCtx) (i : Word) (n k : Nat) : Prop :=
  let d := (i - c.tail).toNat
  let marked (j : Nat) : Prop := c.pmap.getLsbD j = true ∨ (d ≤ j ∧ j < d + n)
  k ≤ 32 ∧ e.tail = c.tail + BitVec.ofNat 32 k ∧ (∀ j < k, marked j) ∧ (k < 32 → ¬marked k) ∧
    (∀ j, e.pmap.getLsbD j = true ↔ j + k < 32 ∧ marked (j + k)) ∧ e = { c with claim := e.claim, tail := e.tail, pmap := e.pmap, used := e.used }

/-- What the controller of die `d` writes to memory as it enqueues `forms` at entry `i` and makes `k` entries visible: the forms' slots, and, in a queue of
stamps, the stamps (R211, R213, R219). -/
def slotsWritten (s : State) (d : Nat) (c : QCtx) (i : Word) (forms : List (List Word)) (k : Nat) : State :=
  let slot (j : Word) : Nat := c.ring.toNat + j.toNat % 2 ^ (c.ctl.toNat % 32) * (16 * (c.ctl.toNat / 32 % 4 + 1))
  let s1 := forms.zipIdx.foldl (fun s f => State.devStore s d c.part (slot (i + BitVec.ofNat 32 f.2)) (formBytes f.1)) s
  if c.ctl.getLsbD 7 then (List.range k).foldl (fun s j =>
    State.devStore s d c.part (slot (c.tail + BitVec.ofNat 32 j) + 16 * (c.ctl.toNat / 32 % 4 + 1) - 8) (toBytes 8 s.time.toNat)) s1
  else s1

/-- What follows once entries have become visible, or a pop has moved HEAD: `e` is cached, every latch bound to the queue is refilled 60 + 360 h cycles
later (R218, R220), and a launch queue's next entry is accepted (R339). -/
def QueueMoved (s t : State) (d : Nat) (c e : QCtx) : Prop :=
  Map.find? (t.die d).qctx (qkey c.part c.index) = some e ∧ e.used = s.now ∧
  (e.tail ≠ c.tail ∨ e.head ≠ c.head → ∀ w k, (c.part, c.index, w, k) ∈ s.bound →
    t.Due (s.now + (60 + 360 * ringDist (c.ctl.toNat / 2 ^ 25 % 4) (dieOf w))) .latchRefill [w, k, e.tail.toNat, c.part, c.index, e.head.toNat]) ∧
  (e.head = c.head → (s.part c.part).lqh = e.handle → (s.part c.part).accepting = false → e.tail ≠ e.head → t.Due s.now .launchAccept [c.part, 0])

/-- A write that the device makes of its own to a virtual address whose page stands in its die's TLB: the bytes enter memory, in ascending order,
and no other byte of memory changes (R471). -/
def DeviceStores : Prop :=
  ∀ (s : State) d part va (bytes : List (BitVec 8)) p e, va % 2 ^ 16 + bytes.length ≤ 2 ^ 16 → canonical (BitVec.ofNat 64 va) = true → va < 2 ^ 64 →
    (s.die d).tlbFind part va = some (p, e) → p.w = true → p.coh ≠ 3 →
    (∀ j < bytes.length, s.pageAt p (va + j) = .page p ∧ s.scratchAt (p.addr (va + j)) = none) →
    ∀ a, Memory.read (s.devStore d part va bytes).mem a =
      if p.addr va ≤ a ∧ a < p.addr va + bytes.length then bytes.getD (a - p.addr va) 0 else Memory.read s.mem a

/-- An operation at its controller waits for older memory operations of its bundle (R278); it is then tested in the order of R208: OFFLINE, QIDX against
QTLEN, STALE, DENIED; and carried out, once its slots are at hand and its writes may be made (R282, R472), on a context that the controller caches or has read:
enq, and a record of the device's own, answer DENIED for an invalid form and FULL without room, and otherwise move CLAIM, write the forms and publish
them (R210, R211); claim answers FULL or CLAIM and moves CLAIM on (R212); pub publishes, or is DENIED outside the claim, twice, or for an invalid form
(R213); avail answers the number of visible entries (R214); a bind of a queue bound elsewhere, or of a launch queue, is DENIED, and another takes the visible
records for its latch (R217, R338); create makes a queue from its descriptor, or is DENIED (R215, R471); destroy answers the new GEN, clears VALID in the
descriptor, and makes the latches bound to the queue stale (R215, R219); a pop moves HEAD and DBASE on (R216, R219).
QUEUE_ANSWER writes res and st of a qu operation that is still the unit's most recent in its lanes, or the status of a launch, and the answer to a bind gives the latch that
still awaits it its position and records, or, where it was refused, takes its binding back, and leaves a latch that has become stale so;
LATCH_REFILL gives a bound latch the records that were visible and within reach when it was caused, but for one that awaits a bind's answer (R58, R207, R217 to
R220). Log entries 39, 40, 76, 89, 104, 114: the model's own readings in it. -/
def Obligations.QueueEvents : Prop :=
  DeviceStores ∧
  (∀ (s : State) id stage r o, s.ev = id :: stage :: r → stage ≠ 2 → Map.find? s.qops id = some o → o.unit ≠ .ls → o.kind ≠ .avail →
    (∃ w x, o.wave = some w ∧ s.wave? w = some x ∧ ((∃ j a, (j, a) ∈ x.accs ∧ j < o.op ∧ a.open = true ∧ a.win = false) ∨ ∃ j ∈ x.quOut, j < o.op)) →
    exec .queueControllerOp s = .next (s.after 1 .queueControllerOp [id, stage])) ∧
  (∀ (s : State) id stage r o, s.ev = id :: stage :: r → stage ≠ 2 → Map.find? s.qops id = some o → QueueUnheld s o → o.kind ≠ .pop →
    let creates := o.kind = .create
    let d := if creates then o.arg / 2 ^ 20 % 4 else o.handle.toNat / 2 ^ 32 % 4
    let p := if creates then o.part else o.handle.toNat / 2 ^ 34 % 16
    let idx := if creates then o.arg % 2 ^ 20 else o.handle.toNat % 2 ^ 20
    let gen := o.handle.toNat / 2 ^ 20 % 2 ^ 12
    let answers (st : Nat) (res : Word) : Prop := ∃ t, exec .queueControllerOp s = .next t ∧ QueueAnswered s t id o st res
    (s.queuesOffline d = true → answers 5 0) ∧
    (s.queuesOffline d = false → (s.part p).qtlen.toNat ≤ idx → answers 4 0) ∧
    ∀ c, s.queuesOffline d = false → idx < (s.part p).qtlen.toNat → QueueAtHand s d p idx stage c → (s.die d).qctx.length < 1024 →
      let owner := c.ctl.toNat / 2 ^ 9 % 16
      let right := owner = o.part ∨ (o.kind ∉ [QuKind.bindU, .bindS, .destroy] ∧ c.allow.getLsbD o.part = true)
      let live := c.ctl.getLsbD 8 = true ∧ c.ctl.toNat / 2 ^ 13 % 2 ^ 12 = gen
      let mine := c.ctl.toNat / 2 ^ 25 % 4 = d ∧ right ∧ o.handle.getLsbD 48 = false
      let full (n : Nat) : Prop := 2 ^ (c.ctl.toNat % 32) < (c.claim - c.head + BitVec.ofNat 32 n).toNat ∨ 32 < (c.claim - c.tail + BitVec.ofNat 32 n).toNat
      let ready := (stage = 3 ∨ State.opReads o c = [] ∧ s.opWrites o d c = []) ∧ s.opReady o d c = (0, s)
      let forms := if o.kind = .device then o.forms.map fun r => if c.ctl.getLsbD 7 then 0x3F#32 :: r.take 6 else 0xFF#32 :: r else o.forms
      let invalid := ∃ f ∈ forms, ¬FormValid c ((f.getD 0 0).toNat % 256)
      let sameMemory (t u : State) : Prop := (∀ a, Memory.read t.mem a = Memory.read u.mem a) ∧ ∀ k a, t.scrByte k a = u.scrByte k a
      (¬creates → ¬live → answers 3 0) ∧ (¬creates → live → ¬mine → answers 4 0) ∧
      (live → mine → ready →
        (o.kind = .enq ∨ o.kind = .device → (invalid → answers 4 0) ∧ (¬invalid → full forms.length → answers 2 0) ∧
          (¬invalid → ¬full forms.length → ∃ t e k, exec .queueControllerOp s = .next t ∧ QueueAnswered s t id o 0 c.claim ∧
            e.claim = c.claim + BitVec.ofNat 32 forms.length ∧ Published c e c.claim forms.length k ∧ QueueMoved s t d c e ∧
            sameMemory t (slotsWritten s d c c.claim forms k))) ∧
        (o.kind = .claim → full o.count → answers 2 0) ∧
        (o.kind = .claim → ¬full o.count → ∃ t e, exec .queueControllerOp s = .next t ∧ QueueAnswered s t id o 0 c.claim ∧
          Map.find? (t.die d).qctx (qkey c.part c.index) = some e ∧ e = { c with claim := c.claim + BitVec.ofNat 32 o.count, used := s.now }) ∧
        (o.kind = .pub →
          let i := BitVec.ofNat 32 o.arg
          let off := (i - c.tail).toNat
          let bad := (c.claim - c.tail).toNat < off + o.count ∨ (∃ k < o.count, c.pmap.getLsbD (off + k) = true) ∨
            ∃ k < o.count, ∃ b, s.devRead d c.part (c.slotAddr (i + BitVec.ofNat 32 k)) 4 = some b ∧ ¬FormValid c (ofBytes b % 256)
          (bad → answers 4 0) ∧ (¬bad → ∃ t e k, exec .queueControllerOp s = .next t ∧ QueueAnswered s t id o 0 e.tail ∧ e.claim = c.claim ∧
            Published c e i o.count k ∧ QueueMoved s t d c e ∧ sameMemory t (slotsWritten s d c i [] k))) ∧
        (o.kind = .avail → answers (if c.tail = c.head then 1 else 0) (c.tail - c.head)) ∧
        (o.kind = .bindU ∨ o.kind = .bindS → ∀ w, o.wave = some w →
          let elsewhere := (s.part c.part).lqh = c.handle ∨ ∃ v k, (c.part, c.index, v, k) ∈ s.bound ∧ (v, k) ≠ (w, o.arg)
          (elsewhere → answers 4 0) ∧ (¬elsewhere → ∃ t q, exec .queueControllerOp s = .next t ∧ QueueAnswered s t id o 0 (c.tail - c.head) ∧
            Map.find? t.qops id = some q ∧ q.pos = c.head ∧ q.recs = (s.recordsOf d c (min 32 (c.tail - c.head).toNat)).1 ∧
            ∀ b, b ∈ t.bound ↔ (b ∈ s.bound ∧ b.2.2 ≠ (w, o.arg)) ∨ b = (c.part, c.index, w, o.arg))) ∧
        (o.kind = .destroy → ∃ t, exec .queueControllerOp s = .next t ∧ QueueAnswered s t id o 0 (BitVec.ofNat 32 ((gen + 1) % 4096)) ∧
          Map.find? (t.die d).qctx (qkey c.part c.index) = none ∧
          (∀ b, b ∈ t.bound ↔ b ∈ s.bound ∧ (b.1, b.2.1) ≠ (c.part, c.index)) ∧
          (∀ w k x y, (c.part, c.index, w, k) ∈ s.bound → s.wave? w = some x → t.wave? w = some y → (x.ctx.head k).bound = true →
            handleIdx (x.ctx.head k).handle = c.index → handlePart (x.ctx.head k).handle = c.part → (y.ctx.head k).stale = true ∧ (y.ctx.head k).recs = []) ∧
          let at_ := s.descAddr c.part c.index
          let ctl : Word := BitVec.ofNat 32 (c.ctl.toNat / 2 ^ 25 * 2 ^ 25 + (gen + 1) % 4096 * 2 ^ 13 + c.ctl.toNat % 2 ^ 13 - 256)
          c.dbase.length = 8 → at_ % 64 = 0 → at_ < 2 ^ 64 → canonical (BitVec.ofNat 64 at_) = true → ∀ g v, (s.die d).tlbFind c.part at_ = some (g, v) → g.w = true → g.coh ≠ 3 →
            (∀ j < 64, s.pageAt g (at_ + j) = .page g ∧ s.scratchAt (g.addr (at_ + j)) = none) →
            t.read (g.addr at_ + 24) 4 = ctl.toNat)) ∧
      (creates → ready → Map.find? (s.die d).qctx (qkey p idx) = none ∨ c.ctl.getLsbD 8 = true →
        let raw := s.devRead d p (s.descAddr p idx) 64
        let bad := c.ctl.getLsbD 8 = true ∨ c.ctl.toNat % 32 = 0 ∨ 20 < c.ctl.toNat % 32 ∨ c.ring.toNat % 128 ≠ 0 ∨ c.ctl.toNat / 2 ^ 27 ≠ 0 ∨
          (∀ b, raw = some b → ofBytes ((b.drop 30).take 2) ≠ 0) ∨ s.ringOk d c = false
        (bad → answers 4 0) ∧ (¬bad → Map.find? (s.die d).qctx (qkey p idx) = none → ∃ t e, exec .queueControllerOp s = .next t ∧
          QueueAnswered s t id o 0 (BitVec.ofNat 32 (idx + c.ctl.toNat / 2 ^ 13 % 2 ^ 12 * 2 ^ 20)) ∧ Map.find? (t.die d).qctx (qkey p idx) = some e ∧
          e = { c with head := 0, tail := 0, claim := 0, pmap := 0, used := s.now, ctl := e.ctl } ∧ e.ctl.getLsbD 8 = true ∧
          e.ctl.toNat / 2 ^ 9 % 16 = o.part % 16 ∧ e.ctl.toNat / 2 ^ 25 % 4 = d ∧ e.ctl.toNat / 2 ^ 13 % 2 ^ 12 = c.ctl.toNat / 2 ^ 13 % 2 ^ 12 ∧
          e.ctl.toNat % 2 ^ 8 = c.ctl.toNat % 2 ^ 8))) ∧
  (∀ (s : State) id r o c, s.ev = id :: 3 :: r → Map.find? s.qops id = some o → QueueUnheld s o → o.kind = .pop →
    let d := o.handle.toNat / 2 ^ 32 % 4
    let p := o.handle.toNat / 2 ^ 34 % 16
    let idx := o.handle.toNat % 2 ^ 20
    s.queuesOffline d = false → idx < (s.part p).qtlen.toNat → Map.find? (s.die d).qctx (qkey p idx) = some c → (s.die d).qctx.length < 1024 →
    c.ctl.getLsbD 8 = true → c.ctl.toNat / 2 ^ 13 % 2 ^ 12 = o.handle.toNat / 2 ^ 20 % 2 ^ 12 → c.ctl.toNat / 2 ^ 25 % 4 = d → o.handle.getLsbD 48 = false →
    (c.ctl.toNat / 2 ^ 9 % 16 = o.part ∨ c.allow.getLsbD o.part = true) → s.opReady o d c = (0, s) → o.count ≠ 0 → o.count < 2 ^ 32 →
    ∃ t e, exec .queueControllerOp s = .next t ∧ Map.find? t.qops id = none ∧ e.head = c.head + BitVec.ofNat 32 o.count ∧
      e = { c with head := e.head, dbase := ((s.recordsOf d c o.count).1.getLast?).getD c.dbase, used := e.used } ∧ QueueMoved s t d c e ∧
      ∀ w y, o.wave = some w → o.unit = .qu → t.wave? w = some y → o.op ∉ y.quOut) ∧
  ((∀ (s : State) id o w x, s.ev = [id] → Map.find? s.qops id = some o → o.wave = some w → o.unit = .qu ∨ o.unit = .ct → o.launch = none → o.cmd = none → o.door = false →
      o.peer = none → s.wave? w = some x → (∀ l < 32, o.lanes.getLsbD l = true → Map.get 0 x.ctx.last (32 * unitCode o.unit + l) = o.op) → x.inject = [] →
    let status := o.st.toNat
    ∃ t y, exec .queueAnswer s = .next t ∧ t.wave? w = some y ∧ (∀ v, v ≠ w → t.wave? v = s.wave? v) ∧ Map.find? t.qops id = none ∧
      (∀ l < 32, o.lanes.getLsbD l = true →
        y.ctx.reg (portVec o.unit .res) l = (if o.unit = .ct then x.ctx.reg (portVec .ct .res) l else o.res) ∧
        y.ctx.reg (portVec o.unit .st) l = (if o.unit = .ct then (if status = 0 ∨ status = 2 ∨ status = 5 then o.st else 4) else o.st) ∧
        (Map.get 0 y.ctx.busy (portVec o.unit .res)).getLsbD l = false ∧ (Map.get 0 y.ctx.busy (portVec o.unit .st)).getLsbD l = false) ∧
      (o.kind = .bindU ∨ o.kind = .bindS → (∀ k, k ≠ o.arg → y.ctx.head k = x.ctx.head k) ∧
        let g := x.ctx.head o.arg
        let awaits := g.bound = true ∧ g.handle = o.handle ∧ g.wait = o.op
        let h := y.ctx.head o.arg
        (¬awaits → h = g) ∧ (awaits → g.stale = true → h = { g with wait := 0 }) ∧
        (awaits → g.stale = false → o.st = 0 → h = { g with pos := o.pos, recs := o.recs, wait := 0 }) ∧
        (awaits → g.stale = false → o.st ≠ 0 → o.lanes ≠ 0 → h = { g with bound := false, recs := [], wait := 0 }) ∧
        (awaits → g.stale = false → o.st ≠ 0 → o.lanes = 0 → h = { g with stale := decide (o.st = 3), wait := 0 })) ∧
      (o.kind ≠ .bindU → o.kind ≠ .bindS → ∀ k, y.ctx.head k = x.ctx.head k)) ∧
  ∀ (s : State) w k tail p idx head x c, s.ev = [w, k, tail, p, idx, head] → s.wave? w = some x → x.win = none → x.trap = none →
    let h := x.ctx.head k
    let d := h.handle.toNat / 2 ^ 32 % 4
    h.bound = true → Map.find? (s.die d).qctx (qkey p idx) = some c →
    let skip := (h.pos - c.head).toNat
    let n := min 32 (BitVec.ofNat 32 tail - BitVec.ofNat 32 head).toNat - (h.pos - BitVec.ofNat 32 head).toNat
    ((p, idx, w, k) ∉ s.bound ∨ n ≤ h.recs.length ∨ h.wait ≠ 0 ∨ 32 < skip → exec .latchRefill s = .next s) ∧
    ((p, idx, w, k) ∈ s.bound → h.recs.length < n → h.wait = 0 → skip ≤ 32 → ∃ t y, exec .latchRefill s = .next t ∧ t.wave? w = some y ∧
      y = { x with ctx := y.ctx } ∧ y.ctx = { x.ctx with heads := y.ctx.heads } ∧ (∀ j, j ≠ k → y.ctx.head j = x.ctx.head j) ∧
      y.ctx.head k = { h with recs := (s.recordsOf d c (skip + n)).1.drop skip }))

/-- The addresses of row `r` of a command: source and destination (R224). -/
def engineRow (s : State) (team : Nat) (op : Nat) (src dst : Dword) (a : Nat) (c d : Int) (r : Nat) : Int × Int :=
  let x : Int := s.scrRead team (c.toNat + 4 * r) 4
  match op with
  | 1 => (src.toNat + r * c, dst.toNat + r * d)
  | 4 => (src.toNat + x * d, dst.toNat + r * a)
  | 5 => (src.toNat + r * a, dst.toNat + x * d)
  | _ => (src.toNat, dst.toNat)

/-- A submission, as R221 to R224 give it: it raises ENGINE where `bad` holds, where a reserved flag is set, where a peer flag is set without
system scope (or without the host's acknowledgment), or where a source byte is a destination byte; otherwise its command, with the tag ETAG, is
on its way: ETAG and CPC have risen, and res, the tag, and st, 0, are ready after 4 cycles. -/
def EngineSubmits (s : State) (m : MoveIn) (i : Instr) (op : Nat) (flags : Word) (src dst : Dword) (a b : Nat) (c d : Int) (bad : Prop) : Prop :=
  let rows := if op = 1 ∨ op = 4 ∨ op = 5 then b else 1
  let row := engineRow s m.x.team op src dst a c d
  let peers := flags.getLsbD 22
  let peerd := flags.getLsbD 23
  let overlap := op ≠ 2 ∧ op ≠ 6 ∧ peers = peerd ∧ ∃ q < rows, ∃ r < rows, ∃ j < a, ∃ k < a, (row q).1 + (j : Nat) = (row r).2 + (k : Nat)
  let scope := flags.toNat / 4 % 4
  let flaw := flags.getLsbD 7 = true ∨ flags.toNat / 2 ^ 24 ≠ 0 ∨ ((peers || peerd) = true ∧ (scope ≠ 3 ∨ s.featack.getLsbD 5 = false))
  let refused := bad ∨ flaw ∨ overlap
  let tag := m.x.ctx.etag
  (refused → exec i s = s.traps m 0x13 m.real (tag.setWidth 64)) ∧
  (¬refused → ∃ t y k p, exec i s = .next t ∧ (∀ v, v ≠ m.w → t.wave? v = s.wave? v) ∧ s.SameMemory t ∧ t.wave? m.w = some y ∧
    y.ctx = { m.x.ctx with busy := y.ctx.busy, last := y.ctx.last, etag := tag + 1, cpc := m.x.ctx.cpc + 1 } ∧
    y.cmds = (m.x.cmds ++ [(tag, 1, 0)]).drop (m.x.cmds.length - 15) ∧
    t.Due (s.now + 4) .resultReady [m.w, m.x.nextOp] ∧ Map.find? y.pend m.x.nextOp = some p ∧
    (m.x.inject = [] → ∀ l < 32, m.en.getLsbD l = true →
      Map.get 0 p.vals (32 * portVec .en .res + l) = tag ∧ Map.get 0 p.vals (32 * portVec .en .st + l) = 0) ∧
    Map.find? t.cmds s.nextId = some k ∧ t.Due s.now .engineLineTransfer [s.nextId, 0] ∧ k.wave = m.w ∧ k.part = m.x.part ∧ k.clover = cloverOf m.w ∧
    k.op = op ∧ k.tag = tag ∧ k.flags = flags ∧ k.src = src ∧ k.dst = dst ∧ k.a = a ∧ k.b = b ∧ k.c = c ∧ k.d = d ∧
    k.complq = m.x.ctx.baseReg (flags.toNat / 2 ^ 8 % 16))

/-- The en triggers: the descriptor forms raise SCRATCH_BOUNDS or MISALIGNED for a descriptor that is not a whole aligned one of the team's
scratchpad, a gather or scatter SCRATCH_BOUNDS for its index list; each form's fields, limits and lengths are those of R224, R225 and R227;
en.status answers code and detail of one of the wave's last 16 commands, UNKNOWN for any other tag (R221 to R225, R227, R228). Log entry 26: the model's own reading in it. -/
def Obligations.EngineTriggers : Prop :=
  ∀ (s : State) gd src m, s.Issues gd src m → m.real ≠ 0 →
    let a := m.latch .en .o1 m.low
    let b := m.latch .en .o2 m.low
    let c := (m.latchW .en .o3 m.low).toNat
    let t := m.tw m.low
    let size := ((s.team? m.x.team).map (·.scratch)).getD 0
    let off := a.toNat % 2 ^ 32
    let f (o n : Nat) : Nat := s.scrRead m.x.team (off + o) n
    let w (o n : Nat) : Dword := BitVec.ofNat 64 (f o n)
    let sg (n : Nat) : Int := if n < 2 ^ 31 then n else (n : Int) - 2 ^ 32
    let desc (i : Instr) (go : Prop) : Prop :=
      (size < off + 32 → exec i s = s.traps m 0x07 m.real (BitVec.ofNat 64 off)) ∧
      (off + 32 ≤ size → off % 32 ≠ 0 → exec i s = s.traps m 0x06 m.real (BitVec.ofNat 64 off)) ∧ (off + 32 ≤ size → off % 32 = 0 → go)
    let cpt (i : Instr) : Prop :=
      let lt := if c / 2 ^ 16 % 2 = 1 then 1104 else 2128
      EngineSubmits s m i 3 t a b (c % 2 ^ 16 * lt) lt 0 0 (c / 2 ^ 17 ≠ 0 ∨ c % 2 ^ 16 = 0 ∨ a.toNat % 16 ≠ 0 ∨ b.toNat % 16 ≠ 0)
    let cpb (i : Instr) : Prop :=
      let kind := f 16 4
      let n := f 12 4 * (if kind % 2 = 0 then 4096 else match kind / 2 % 4 with | 0 => 4736 | 1 => 5376 | _ => 6656)
      EngineSubmits s m i 2 t (w 0 8) 0 n (f 8 4) 0 0
        (8 ≤ kind ∨ kind / 2 = 3 ∨ f 20 4 ≠ 0 ∨ f 24 8 ≠ 0 ∨ 12 * 2 ^ 20 < f 8 4 + n ∨ (kind % 2 = 1 ∧ s.featack.getLsbD 1 = false))
    let listed (i : Instr) (op : Nat) : Prop :=
      let n := f 20 4
      let esz := f 24 2
      let bad := esz < 4 ∨ 128 < esz ∨ esz % 4 ≠ 0 ∨ n = 0 ∨ 65536 < n ∨ f 0 8 % 4 ≠ 0 ∨ f 8 8 % 4 ≠ 0 ∨ f 28 4 % 4 ≠ 0 ∨ f 16 4 % 4 ≠ 0 ∨ f 26 2 ≠ 0
      let flaw := t.getLsbD 7 = true ∨ t.toNat / 2 ^ 24 ≠ 0 ∨ ((t.getLsbD 22 || t.getLsbD 23) = true ∧ (t.toNat / 4 % 4 ≠ 3 ∨ s.featack.getLsbD 5 = false))
      let long := size < f 16 4 + 4 * n
      (¬bad → ¬flaw → long → exec i s = s.traps m 0x07 m.real (w 16 4)) ∧
      (bad ∨ flaw ∨ ¬long → EngineSubmits s m i op t (w 0 8) (w 8 8) esz n (f 16 4) (f 28 4) bad)
    EngineSubmits s m (.enCp gd src) 0 t a b c 0 0 0 False ∧ cpt (.enCpt gd src) ∧
    desc (.enCp2d gd src) (EngineSubmits s m (.enCp2d gd src) 1 t (w 0 8) (w 8 8) (f 16 4) (f 20 4) (sg (f 24 4)) (sg (f 28 4)) False) ∧
    desc (.enCpb gd src) (cpb (.enCpb gd src)) ∧ desc (.enGa gd src) (listed (.enGa gd src) 4) ∧ desc (.enSc gd src) (listed (.enSc gd src) 5) ∧
    desc (.enFill gd src) (EngineSubmits s m (.enFill gd src) 6 t 0 (w 0 8) (f 8 8) (f 16 4) 0 0
      (f 0 8 % 4 ≠ 0 ∨ f 8 8 % 4 ≠ 0 ∨ f 20 4 ≠ 0 ∨ f 24 8 ≠ 0)) ∧
    exec (.enStatus gd src) s = .next (s.start m.w .en [.res, .st] m.en 4 fun _ =>
      match m.x.cmds.find? fun k => k.1 == t with
      | some (_, k, d) => ⟨BitVec.ofNat 32 k, 0, BitVec.ofNat 32 d⟩
      | none => ⟨4, 0, 0⟩)

/-! The matrix engine (10_matrix_operations.md). -/

/-- The wave of `m` holds its clover's baton (R234). -/
def holds (s : State) (m : MoveIn) : Prop := ∃ p, (s.clover (cloverOf m.w)).baton = some (m.w, p)

/-- An mx operation that answers 0 and 0 in the next cycle, changing its clover to `k`. -/
def mxAnswered (s : State) (m : MoveIn) (k : Clover) : State :=
  (s.start m.w .mx [.res, .st] m.en 1 fun _ => ⟨0, 0, 0⟩).setClover (cloverOf m.w) k

/-- The baton: rel, zero and abft of any other wave raise BATON, as rel does while an accumulator is live; a reserved bit raises ENGINE; rel
releases the baton and zeroes the accumulators, at once where no ret or epi has still to read; zero clears its accumulator with LIVE and ABFT;
abft stops checking, or starts it; req answers REPEAT to the holder and to a wave with a request, and otherwise posts one, which is granted no
earlier than 4 cycles later (R234 to R238, R248, R250, R255). Log entries 24, 35: the model's own readings in it. -/
def Obligations.BatonOperations : Prop :=
  ∀ (s : State) gd src m, s.Issues gd src m → m.real ≠ 0 →
    let cl := cloverOf m.w
    let k := s.clover cl
    let v := (m.tw m.low).toNat
    let held := holds s m
    let baton := s.traps m 0x0B m.real 0
    let engine := s.traps m 0x13 m.real 0
    let live (a : Nat) : List Nat := k.live.filter (· ≠ a)
    (¬held → exec (.mxRel gd src) s = baton ∧ exec (.mxZero gd src) s = baton ∧ exec (.mxAbft gd src) s = baton) ∧
    (held → k.live ≠ [] → exec (.mxRel gd src) s = baton) ∧
    (held → k.live = [] → (∀ i o, (i, o) ∈ k.ops → o.kind ≠ 0 → o.start ≤ s.now) →
      ∃ t c, exec (.mxRel gd src) s = .next t ∧ t.Due (s.now + 1) .resultReady [m.w, m.x.nextOp] ∧ Map.find? t.clovers cl = some c ∧
        c.baton = none ∧ c.acc = [] ∧ c.live = [] ∧ (∀ i o, (i, o) ∈ c.ops → o.kind = 0 → o.vals = []) ∧ c.table = k.table ∧ c.abft = k.abft ∧
        (k.table ≠ [] → t.Due (s.now + 4) .batonGrant [cl])) ∧
    (held → k.live = [] → (∃ i o, (i, o) ∈ k.ops ∧ o.kind ≠ 0 ∧ s.now < o.start) →
      ∃ t c u, exec (.mxRel gd src) s = .next t ∧ t.Due (s.now + 1) .resultReady [m.w, m.x.nextOp] ∧ t.clover cl = c ∧
        c = { k with releasing := true } ∧ t.Due u .batonRelease [cl] ∧ ∀ i o, (i, o) ∈ k.ops → o.kind ≠ 0 → o.start ≤ u) ∧
    (held → 4 ≤ v → exec (.mxZero gd src) s = engine) ∧
    (held → v < 4 → ∃ c, exec (.mxZero gd src) s = .next (mxAnswered s m c) ∧ c = { k with acc := c.acc, ops := c.ops, live := live v, abft := c.abft } ∧
      (∀ i, Map.get 0 c.acc i = if i / 2048 = v then 0 else Map.get 0 k.acc i) ∧ (∀ i < 2048, c.word v i = 0) ∧
      (∀ a i, a ≠ v → i < 2048 → c.word a i = k.word a i) ∧ ∀ a, Map.find? c.abft a = if a = v then none else Map.find? k.abft a) ∧
    (held → 8 ≤ v → exec (.mxAbft gd src) s = engine) ∧
    (held → v < 4 → ∃ c, exec (.mxAbft gd src) s = .next (mxAnswered s m c) ∧ c = { k with abft := c.abft } ∧
      ∀ a, Map.find? c.abft a = if a = v then none else Map.find? k.abft a) ∧
    (held → 4 ≤ v → v < 8 → ∃ c f, exec (.mxAbft gd src) s = .next (mxAnswered s m c) ∧ c = { k with abft := c.abft } ∧
      (∀ a, Map.find? c.abft a = if a = v - 4 then some f else Map.find? k.abft a) ∧ f.on = true ∧ f.kinds = [] ∧ f.tau = []) ∧
    (4 ≤ v → exec (.mxReq gd src) s = engine) ∧
    let again (t : State) : State := t.start m.w .mx [.st] m.en 1 fun _ => ⟨0, 0, 1⟩
    let asked (r : MxReq) : Bool := r.wave == m.w
    (v < 4 → held → exec (.mxReq gd src) s = .next (again s)) ∧
    (v < 4 → ¬held → (k.table ++ k.waiting).any asked = true → ∃ t c, exec (.mxReq gd src) s = .next t ∧
      t.Due (s.now + 1) .resultReady [m.w, m.x.nextOp] ∧ t.clover cl = c ∧ c = { k with table := c.table, waiting := c.waiting } ∧
      c.table.map (fun r => (r.wave, r.prio)) = k.table.map (fun r => (r.wave, if asked r then max r.prio v else r.prio)) ∧
      c.waiting.map (fun r => (r.wave, r.prio)) = k.waiting.map (fun r => (r.wave, if asked r then max r.prio v else r.prio))) ∧
    (v < 4 → ¬held → (k.table ++ k.waiting).any asked = false → k.table.length + k.waiting.length < 16 → ∃ t y c r, exec (.mxReq gd src) s = .next t ∧
      t.wave? m.w = some y ∧ y.ctx = { m.x.ctx with busy := y.ctx.busy, last := y.ctx.last } ∧ Map.find? t.clovers cl = some c ∧ r ∈ c.table ∧
      r = { wave := m.w, op := m.x.nextOp, lanes := m.en, prio := v, entered := s.now, since := s.now } ∧
      (∀ l < 32, m.en.getLsbD l = true → (Map.get 0 y.ctx.busy (portVec .mx .st)).getLsbD l = true) ∧
      (k.baton = none → k.granting = false → t.Due (s.now + 4) .batonGrant [cl]) ∧ (k.baton ≠ none ∨ k.granting = true → c.baton = k.baton))

/-- Element `e` of a packed array of `w`-bit elements (R96). -/
def packed (w v e : Nat) : Nat := v / 2 ^ (w * e) % 2 ^ w

/-- `n` bytes of a B-store as a number, little-endian. -/
def bStore (k : Clover) (a n : Nat) : Nat := ((List.range n).map fun i => (Memory.read k.bstore (a + i)).toNat * 256 ^ i).sum

/-- Whether the sub-blocks of a sparse operand are sound: 16 live groups in each, and i0 < i1 in every nibble (R244). -/
def sparseSound (k : Clover) (c w : Nat) : Prop :=
  ∀ t < 16 / w, let base := c + t * (640 + 256 * w)
    ((List.range 32).countP fun g => decide (packed 1 (bStore k base 4) g = 1)) = 16 ∧
    ∀ g < 16, ∀ j < 64, let n := packed 4 (bStore k (base + 128 + 32 * g + j / 2) 1) (j % 2)
      n % 4 < n / 4

/-- The terms of one word: R243 for a dense operation, R245 for a sparse one. -/
def mxTermList (s : State) (team : Nat) (k : Clover) (sl : FmtSlot) (sparse : Bool) (a b c d r j : Nat) : List Term :=
  let w := sl.afmt.width
  let row := s.scrRead team (a + r * b) (if sparse then 256 else 64)
  let sx (h : Nat) : Nat := if sl.scaled then s.scrRead team (d / 16 % 4096 * 128 + 16 * r + h) 1 else 127
  let sy (h : Nat) : Nat := if sl.scaled then bStore k (d / 65536 * 256 + 16 * j + h) 1 else 127
  if sparse then
    (List.range (16 / w)).flatMap fun t =>
      let base := c + t * (640 + 256 * w)
      ((List.range 32).filter fun g => packed 1 (bStore k base 4) g = 1).zipIdx.flatMap fun (g, g') =>
        let n := packed 4 (bStore k (base + 128 + 32 * g' + j / 2) 1) (j % 2)
        [(n % 4, 0), (n / 4, 1)].map fun (i, v) =>
          let p := 128 * t + 4 * g + i
          ⟨packed w row p, packed w (bStore k (base + 640 + ((64 * g' + j) * 2 + v) * w / 8) 2) (if w = 4 then v else 0), sx (p / 32), sy (p / 32)⟩
  else (List.range (512 / w)).map fun e => ⟨packed w row e, packed w (bStore k (c + 64 * j) 64) e, sx (e / 32), sy (e / 32)⟩

/-- mma and mms check in the order of R246 (BATON, MX_HAZARD, ENGINE, SCRATCH_BOUNDS, MISALIGNED); otherwise each row of the mask gets in each
column the exact dot product of R243, or of R245's terms, rounded once, added to what earlier operations leave there or to zero; the accumulator
is live, it takes the words 16 cycles later, TLC has risen, and res and st are 0 after one cycle (R236, R238 to R248). Log entry 83: the model's own reading in it. -/
def Obligations.MatrixMultiply : Prop :=
  ∀ (s : State) gd (n : Fin 8) src m (sparse : Bool), s.Issues gd src m → m.real ≠ 0 →
    let go := exec (if sparse then .mxMms gd n src else .mxMma gd n src) s
    let cl := cloverOf m.w
    let k := s.clover cl
    let sl := FmtSlot.ofBits (((s.launch? m.x.launch).map fun r => r.lrec.fmt.getD n.val 0).getD 0)
    let d := (m.tw m.low).toNat
    let a := (m.latchW .mx .o1 m.low).toNat
    let b := (m.latchW .mx .o2 m.low).toNat
    let c := (m.latchW .mx .o3 m.low).toNat
    let acc := d % 4
    let w := sl.afmt.width
    let size := ((s.team? m.x.team).map (·.scratch)).getD 0
    let end_ := 12 * 2 ^ 20
    let short := ∃ t, k.lastMx = some t ∧ s.now < t + 4
    let accepted := sl.afmt ≠ .fp32 ∧ sl.bfmt ≠ .fp32 ∧ sl.bfmt.width = w
    let bLen := if sparse then 16 / w * (640 + 256 * w) else 4096
    let bad := d / 8 % 2 = 1 ∨ ¬accepted ∨ c % 128 ≠ 0 ∨ end_ < c + bLen ∨ (sl.scaled = true ∧ end_ < d / 65536 * 256 + 1024) ∨
      (sparse = true ∧ ¬sparseSound k c w)
    let out := realWhere m fun r => decide (size < a + r * b + (if sparse then 256 else 64)) ||
      (sl.scaled && decide (size < d / 16 % 4096 * 128 + 16 * r + (if sparse then 4 * (16 / w) else 16 / w)))
    (¬holds s m → go = s.traps m 0x0B m.real 0) ∧
    (holds s m → short → go = s.traps m 0x0A m.real 0) ∧
    (holds s m → ¬short → bad → go = s.traps m 0x13 m.real 0) ∧
    (holds s m → ¬short → ¬bad → out ≠ 0 → ∃ info, go = s.traps m 0x07 out info) ∧
    (holds s m → ¬short → ¬bad → out = 0 → a % 64 ≠ 0 ∨ b % 64 ≠ 0 → go = s.traps m 0x06 m.real (BitVec.ofNat 64 a)) ∧
    (holds s m → ¬short → ¬bad → out = 0 → a % 64 = 0 → b % 64 = 0 → ∃ t y e o, go = .next t ∧ t.wave? m.w = some y ∧
      y.ctx = { m.x.ctx with busy := y.ctx.busy, last := y.ctx.last, tlc := m.x.ctx.tlc + 1 } ∧
      t.Due (s.now + 1) .resultReady [m.w, m.x.nextOp] ∧ t.Due (s.now + 16) .mmaComplete [cl, k.nextOp] ∧ s.SameMemory t ∧ Map.find? t.clovers cl = some e ∧
      e = { k with ops := e.ops, nextOp := k.nextOp + 1, lastMx := some s.now, accTill := e.accTill, live := e.live, abft := e.abft } ∧
      (∀ q, q ∈ e.live ↔ q ∈ k.live ∨ q = acc) ∧ Map.find? e.accTill acc = some (s.now + 16) ∧ Map.find? e.ops k.nextOp = some o ∧ o.kind = 0 ∧ o.acc = acc ∧
      ∀ r < 32, ∀ j < 64, Map.find? o.vals (64 * r + j) =
        if m.real.getLsbD r = true then
          let old := if d / 4 % 2 = 1 then 0 else k.word acc (64 * r + j)
          let ts := mxTermList s m.x.team k sl sparse a b c d r j
          some (if sl.accInt then dotInt sl.afmt sl.bfmt old ts else (dotSum sl.afmt sl.bfmt old ts).code)
        else none)

/-- ret and epi: BATON from any other wave, ENGINE for a reserved bit, BASE, an activation or a destination alignment; epi also MX_HAZARD and
the checks of its descriptor and vectors in the order of R246; otherwise the operation reads its accumulator at s, the later of its trigger
and the completion of the accumulator's mma and mms; LIVE is cleared, TLC has risen, and its steps begin at s + 4 (ret) or s + 8 (epi); the
descriptor and its vectors are read at the trigger (R236, R246 to R249, R251, R254). Log entry 21: the model's own reading in it. -/
def Obligations.MatrixRetire : Prop :=
  ∀ (s : State) gd (n : Fin 8) src m, s.Issues gd src m → m.real ≠ 0 →
    let cl := cloverOf m.w
    let k := s.clover cl
    let v := (m.tw m.low).toNat
    let size := ((s.team? m.x.team).map (·.scratch)).getD 0
    let begun (i : Instr) (a : Nat) (lat : Nat) (e : Instr) (step : List Nat) (claim : Nat → Wave → MxOp → Clover → State → Prop) : Prop :=
      ∃ t y c o st, exec i s = .next t ∧ t.wave? m.w = some y ∧
        y.ctx = { m.x.ctx with busy := y.ctx.busy, last := y.ctx.last, tlc := m.x.ctx.tlc + 1 } ∧ s.SameMemory t ∧
        Map.find? t.clovers cl = some c ∧ Map.find? c.ops k.nextOp = some o ∧ c.nextOp = k.nextOp + 1 ∧ (∀ q, q ∈ c.live ↔ q ∈ k.live ∧ q ≠ a) ∧ c.acc = k.acc ∧
        st = max s.now (Map.get 0 k.accTill a) ∧ o.start = st ∧ o.acc = a ∧ (∀ i < 2048, Map.get 0 o.vals i = k.word a i) ∧
        t.Due (st + lat) e (cl :: k.nextOp :: step) ∧ claim st y o c t
    (¬holds s m → exec (.mxRet gd src) s = s.traps m 0x0B m.real 0 ∧ exec (.mxEpi gd n src) s = s.traps m 0x0B m.real 0) ∧
    (holds s m →
      let base := v / 256 % 256
      let bad := v / 4 % 64 ≠ 0 ∨ v / 65536 ≠ 0 ∨ 128 < base
      (bad → exec (.mxRet gd src) s = s.traps m 0x13 m.real 0) ∧
      (¬bad → begun (.mxRet gd src) (v % 4) 4 .retComplete [0] fun st _ o _ t =>
        o.kind = 1 ∧ o.base = base ∧ o.lanes = m.real ∧ t.Due (s.now + (st + 20 - s.now)) .resultReady [m.w, m.x.nextOp])) ∧
    (holds s m →
      let go := exec (.mxEpi gd n src) s
      let f (o b : Nat) : Nat := s.scrRead m.x.team (v + o) b
      let bits := ((s.launch? m.x.launch).map fun r => r.lrec.fmt.getD n.val 0).getD 0
      let ctl := f 12 4
      let sco := f 16 4
      let bio := f 20 4
      let scl := ctl / 4 % 2 = 1
      let bias := ctl / 8 % 2 = 1
      let short := ∃ t, k.lastMx = some t ∧ s.now < t + 4
      let flaw := f 24 40 ≠ 0 ∨ ctl / 512 ≠ 0 ∨ ctl / 16 % 4 = 3 ∨
        (if (FmtSlot.ofBits bits).ofmt.width ≤ 8 then f 0 8 % 16 ≠ 0 else f 0 8 % 4 ≠ 0 ∨ f 8 4 % 4 ≠ 0)
      let far := (scl ∧ size < sco + 256) ∨ (bias ∧ size < bio + 256)
      let odd := (scl ∧ sco % 4 ≠ 0) ∨ (bias ∧ bio % 4 ≠ 0)
      let vec (o : Nat) : List Word := (List.range 64).map fun j => BitVec.ofNat 32 (s.scrRead m.x.team (o + 4 * j) 4)
      (short → go = s.traps m 0x0A m.real 0) ∧
      (¬short → size < v + 64 → go = s.traps m 0x07 m.real (BitVec.ofNat 64 v)) ∧
      (¬short → v + 64 ≤ size → v % 64 ≠ 0 → go = s.traps m 0x06 m.real (BitVec.ofNat 64 v)) ∧
      (¬short → v + 64 ≤ size → v % 64 = 0 →
        (flaw → go = s.traps m 0x13 m.real 0) ∧
        (¬flaw → far → ∃ o, go = s.traps m 0x07 m.real o) ∧
        (¬flaw → ¬far → odd → ∃ o, go = s.traps m 0x06 m.real o) ∧
        (¬flaw → ¬far → ¬odd → begun (.mxEpi gd n src) (ctl % 4) 8 .epiChunk [0] fun _ y o c t =>
          o.kind = 2 ∧ o.lanes = m.en ∧ o.slot = bits ∧ o.ctl = BitVec.ofNat 32 ctl ∧ o.dstr = f 8 4 ∧ o.scales = (if scl then vec sco else []) ∧
          o.biases = (if bias then vec bio else []) ∧ o.check = Map.find? k.abft (ctl % 4) ∧ o.status = 0 ∧ o.chunks = 0 ∧ c.lastMx = some s.now ∧
          (∃ e, Map.find? t.cmds o.cmd = some e ∧ e.dst = BitVec.ofNat 64 (f 0 8) ∧ e.scope = ctl / 64 % 4) ∧
          ∀ l < 32, m.en.getLsbD l = true → (Map.get 0 y.ctx.busy (portVec .mx .res)).getLsbD l = true ∧ (Map.get 0 y.ctx.busy (portVec .mx .st)).getLsbD l = true)))

/-! The system unit (11_system_operations.md). -/

/-- The special registers of R263 as the wave of `m` reads them; `none` for a reserved index. -/
def specialRegister (s : State) (m : MoveIn) (i : Nat) : Option Dword :=
  let t := s.team? m.x.team
  let task := (t.map (·.task)).getD false
  let core := s.core (coreOf m.w)
  let lo := (if task then 0 else m.x.index) + coreOf m.w % 4 * 2 ^ 4 + cloverOf m.w % 24 * 2 ^ 6 + dieOf m.w * 2 ^ 11 + m.x.part * 2 ^ 13
  let team : Word := match t with | some k => if k.task then 0xFFFFFFFF#32 else k.number | none => 0
  match i with
  | 0x00 => some (m.x.ctx.wstat.setWidth 64)
  | 0x01 => some (m.x.ctx.vac.setWidth 64)
  | 0x02 => some (team ++ BitVec.ofNat 32 lo)
  | 0x03 => some s.time
  | 0x04 => some (BitVec.ofNat 64 (s.now - (s.die (dieOf m.w)).cycleBase))
  | 0x05 => some 0xFFF#64
  | 0x06 => some s.featack
  | 0x08 => some (m.x.tstate.setWidth 64)
  | 0x09 => some (m.x.tmask.setWidth 64)
  | 0x0A => some m.x.tpc
  | 0x0B => some m.x.tinfo
  | 0x10 => some core.polign
  | 0x11 => some core.rollbk
  | 0x12 => some core.swaps
  | _ => none

/-- Whether bit `k` of special register `i` takes a written value, with SUP or without (R18, R263, R265). -/
def srWritable (i : Nat) (sup : Bool) (k : Nat) : Bool :=
  match i with
  | 0x00 => k == 2 || (sup && k == 3)
  | 0x08 => sup && decide (k < 12)
  | 0x09 => sup
  | 0x0A => sup
  | 0x0B => sup
  | _ => false

/-- rdsr answers the register's two halves after 4 cycles; wrsr answers 0 and is noted in the bundle, whose end gives each writable bit its
written value and changes no other bit of the five registers and nothing else of the wave; a reserved index raises PRIVILEGE (R260, R261, R263 to
R265). -/
def Obligations.SpecialRegisters : Prop :=
  (∀ (s : State) gd src m, s.Issues gd src m → m.real ≠ 0 →
    let i := (m.tw m.low).toNat % 256
    let v : Dword := m.latchW .sy .o2 m.low ++ m.latchW .sy .o1 m.low
    (specialRegister s m i = none → exec (.syRdsr gd src) s = s.traps m 0x02 m.real 0 ∧ exec (.syWrsr gd src) s = s.traps m 0x02 m.real 0) ∧
    ∀ r, specialRegister s m i = some r →
      exec (.syRdsr gd src) s = .next (s.start m.w .sy [.res, .st] m.en 4 fun _ => ⟨r.setWidth 32, 0, (r >>> 32).setWidth 32⟩) ∧
      exec (.syWrsr gd src) s = .next { (s.start m.w .sy [.res, .st] m.en 4 fun _ => ⟨0, 0, 0⟩) with cur := some { m.c with wrsr := some (i, v) } }) ∧
  ∀ (x : Wave) (i : Nat) (v : Dword),
    let y := x.wrsr i v
    let w (i k : Nat) : Bool := srWritable i (x.ctx.wstat.getLsbD 4) k
    y = { x with ctx := { x.ctx with wstat := y.ctx.wstat }, tstate := y.tstate, tmask := y.tmask, tpc := y.tpc, tinfo := y.tinfo } ∧
    (∀ k < 32, y.ctx.wstat.getLsbD k = if i = 0 ∧ w i k then v.getLsbD k else x.ctx.wstat.getLsbD k) ∧
    (∀ k < 32, y.tstate.getLsbD k = if i = 8 ∧ w i k then v.getLsbD k else x.tstate.getLsbD k) ∧
    (∀ k < 32, y.tmask.getLsbD k = if i = 9 ∧ w i k then v.getLsbD k else x.tmask.getLsbD k) ∧
    (∀ k < 64, y.tpc.getLsbD k = if i = 10 ∧ w i k then v.getLsbD k else x.tpc.getLsbD k) ∧
    ∀ k < 64, y.tinfo.getLsbD k = if i = 11 ∧ w i k then v.getLsbD k else x.tinfo.getLsbD k

/-- `t` is `s` after an sy operation that is carried out elsewhere: res and st are not ready in its lanes, its number is the wave's next, and its step
`e` with operands `a` is due `lat` cycles later; nothing else but the agenda changes (R260). -/
def SystemBegun (s t : State) (m : MoveIn) (lat : Nat) (e : Instr) (a : List Nat) : Prop :=
  s.OnlyWaveAndAgenda t m.w ∧ t.Due (s.now + lat) e a ∧ ∃ y p, t.wave? m.w = some y ∧
    y.ctx = { m.x.ctx with busy := y.ctx.busy, last := y.ctx.last } ∧ Map.find? y.pend m.x.nextOp = some p ∧ p.lanes = m.en ∧ p.unit = .sy ∧
    ∀ l < 32, m.en.getLsbD l = true → (Map.get 0 y.ctx.busy (portVec .sy .res)).getLsbD l = true ∧ (Map.get 0 y.ctx.busy (portVec .sy .st)).getLsbD l = true

/-- The greatest ring distance from die `q` to a die that holds clovers of partition `p` (R268). -/
def partReach (s : State) (p q : Nat) : Nat :=
  ((List.range 4).map fun d => if (List.range 24).any fun i => (s.part p).clovers.getLsbD (24 * d + i) then ringDist q d else 0).foldl max 0

/-- `t` is `s` after the address of sy.inj has been translated: the line has its error at once, or the injection is denied; the answer is ready 4 cycles
later (R275). -/
def Injected (s t : State) (w k : Nat) (lanes : Mask) (line : Option Nat) (e : Instr) : Prop :=
  t.Due (s.now + 4) .resultReady [w, k] ∧ (∀ n, line = some n → t.Due s.now e [n]) ∧ ∃ y p, t.wave? w = some y ∧ Map.find? y.pend k = some p ∧
    p.lanes = lanes ∧ ∀ l < 32, lanes.getLsbD l = true →
      Map.get 0 p.vals (32 * portVec .sy .res + l) = 0 ∧ Map.get 0 p.vals (32 * portVec .sy .st + l) = if line.isSome then 0 else 4

/-- The sy operations but rdsr and wrsr raise PRIVILEGE without SUP or, for lnk, dctl, inj and part, without their PCAP right; otherwise each
is carried out, or denied, after its latency: tlbinv, pmap, sret, mbox with its bounds and slots, lnk, dctl, inj with its four targets, part
(R260, R261, R267 to R275, R448, R464). Log entries 6, 45, 46, 48, 49: the model's own readings in it. -/
def Obligations.SystemTriggers : Prop :=
  ∀ (s : State) gd src m, s.Issues gd src m → m.real ≠ 0 →
    let sup := m.x.ctx.wstat.getLsbD 4
    let right (b : Nat) : Prop := (s.part m.x.part).pcap.getLsbD b = true
    let priv := s.traps m 0x02 m.real 0
    let a := (m.latchW .sy .o1 m.low).toNat
    let b := (m.latchW .sy .o2 m.low).toNat
    let v := (m.tw m.low).toNat
    let va := b * 2 ^ 32 + a
    let w := m.w
    let k := m.x.nextOp
    let p := m.x.part
    let q := dieOf w
    let answers (i : Instr) (lat : Nat) (res st : Word) : Prop := exec i s = .next (s.start w .sy [.res, .st] m.en lat fun _ => ⟨res, 0, st⟩)
    let begun (i : Instr) (lat : Nat) (e : Instr) (args : List Nat) : Prop := ∃ t, exec i s = .next t ∧ SystemBegun s t m lat e args
    let inv := 96 + 360 * partReach s p q
    (sup = false → exec (.syTlbinv gd src) s = priv ∧ exec (.syPmap gd src) s = priv ∧ exec (.sySret gd src) s = priv ∧ exec (.syMbox gd src) s = priv) ∧
    (sup = false ∨ ¬right 0 → exec (.syLnk gd src) s = priv) ∧ (sup = false ∨ ¬right 1 → exec (.syDctl gd src) s = priv) ∧
    (sup = false ∨ ¬right 2 → exec (.syInj gd src) s = priv) ∧ (sup = false ∨ ¬right 3 → exec (.syPart gd src) s = priv) ∧
    (sup = true →
      (4 ≤ v → answers (.syTlbinv gd src) inv 0 4) ∧
      (v < 4 → begun (.syTlbinv gd src) inv .resultReady [w, k, 1, p, v % 2, va, v / 2]) ∧
      (let entry := s.pteAddr p va (decide (v / 16 % 2 = 1))
       (32 ≤ v ∨ canonical (BitVec.ofNat 64 va) = false ∨ entry = none → answers (.syPmap gd src) inv 0 4) ∧
       (v < 32 → canonical (BitVec.ofNat 64 va) = true → ∀ pa, entry = some pa → ∃ t y o, exec (.syPmap gd src) s = .next t ∧ t.wave? w = some y ∧
          y.ctx = { m.x.ctx with busy := y.ctx.busy, last := y.ctx.last } ∧ y.quOut = m.x.quOut ++ [m.x.nextOp] ∧ Map.find? y.pend k = some o ∧ o.lanes = m.en ∧
          s.SameMemory t ∧ ∀ c, s.engCost q pa 2 (isHostPa pa) true = some c →
            t.Due (s.now + c) .resultReady [w, k, 2, p, q, va, v / 16, pa, (m.x.ctx.baseReg (v % 16)).toNat])) ∧
      exec (.sySret gd src) s = .next { s with cur := some { m.c with sret := true } } ∧
      (let size := ((s.team? m.x.team).map (·.scratch)).getD 0
       let cl := cloverOf w
       let core := coreOf w % 4
       let byte (i : Nat) : BitVec 8 := s.scrByte m.x.team (v + i)
       let free := ([4 * core, 4 * core + 1, 4 * core + 2, 4 * core + 3] ++ (List.range 16).map (16 + ·)).find? fun n => (Map.find? (s.clover cl).mail n).isNone
       (size < v + 32 → exec (.syMbox gd src) s = s.traps m 0x07 m.real (BitVec.ofNat 64 v)) ∧
       (v + 32 ≤ size → v % 32 ≠ 0 → exec (.syMbox gd src) s = s.traps m 0x06 m.real (BitVec.ofNat 64 v)) ∧
       (v + 32 ≤ size → v % 32 = 0 →
         (free = none → ∃ (t : State) (res : Word), exec (.syMbox gd src) s = .next (t.start w .sy [.res, .st] m.en 40 fun _ => ⟨res, 0, 2⟩) ∧ t = { s with free := t.free }) ∧
         ∀ n, free = some n → ∃ (t : State) (e : Clover) (g : Msg), exec (.syMbox gd src) s =
             .next (t.start w .sy [.res, .st] m.en 40 fun _ => ⟨BitVec.ofNat 32 (if n < 16 then n % 4 else n - 12), 0, 0⟩) ∧
           t = { s with clovers := t.clovers } ∧ Map.find? t.clovers cl = some e ∧ e = { s.clover cl with mail := e.mail } ∧
           (∀ j, j ≠ n → Map.find? e.mail j = Map.find? (s.clover cl).mail j) ∧ Map.find? e.mail n = some g ∧ g.core = core ∧ g.bytes.length = 32 ∧
           g.bytes[0]? = some 0 ∧ (∀ i < 32, (1 ≤ i ∧ i < 4) ∨ 8 ≤ i → g.bytes[i]? = some (byte i)) ∧
           ∀ i < 4, g.bytes[4 + i]? = ((specialRegister s m 2).map fun d => BitVec.ofNat 8 (d.toNat / 256 ^ i)))) ∧
      (right 0 →
        let d := a / 2 ^ 6 % 4
        let peer := a / 2 ^ 12 % 2 = 1
        let ok := a / 2 ^ 13 = 0 ∧ ¬(peer ∧ a / 8 % 8 ≠ 0)
        begun (.syLnk gd src) (60 + 360 * ringDist q d) .resultReady
          [w, k, 3, if ok then 1 else 0, p, 72 * d + (if peer then 64 + a % 8 else a % 64), a / 2 ^ 8 % 16, v]) ∧
      (right 1 →
        let d := a % 4
        let bad := 4 ≤ a ∨ 4 ≤ v
        begun (.syDctl gd src) (60 + 180 * ringDist q d)
          (if bad then .dieStatus else match v with | 0 => .dieStatus | 1 => .dieQuiesce | 2 => .dieReset | _ => .dieReadmit)
          [d, w + 1, k, 180 * ringDist q d, q, if bad then 1 else 0]) ∧
      (right 2 →
        let i : Instr := .syInj gd src
        let also (c : Nat) (e : Instr) (args : List Nat) : Prop :=
          exec i s = .next ((s.start w .sy [.res, .st] m.en 4 fun _ => ⟨0, 0, 0⟩).after c e args)
        let u := a / 2 ^ 5 % 32
        let at_ := (m.x.ctx.baseReg (a / 16 % 16)).toNat
        let e : Instr := if a % 16 = 1 then .injSoft else .injUncorr
        (a % 16 = 0 → (a / 16 ≠ 0 → answers i 4 0 4) ∧ (a / 16 = 0 → also 0 .injAbft [cloverOf w, v % 4, v / 4 % 4])) ∧
        (a % 16 = 3 → (a / 2 ^ 10 ≠ 0 ∨ a / 16 % 2 = 1 ∨ u ∉ [4, 6, 8, 11] → answers i 4 0 4) ∧
          (a / 2 ^ 10 = 0 → a / 16 % 2 = 0 → u ∈ [4, 6, 8, 11] → also 0 .injTwin [w, u, v % 32])) ∧
        (4 ≤ a % 16 → answers i 4 0 4) ∧
        (a % 16 = 1 ∨ a % 16 = 2 → (2 ^ 8 ≤ a → answers i 4 0 4) ∧
          (a < 2 ^ 8 →
            (canonical (BitVec.ofNat 64 at_) = false ∨ (∃ g u, (s.die q).tlbFind p at_ = some (g, u) ∧ ∀ h, s.pageAt g at_ = .page h → h.flip = false) →
              ∃ t, exec i s = .next t ∧ Injected s t w k m.en (s.devLine q p at_) e) ∧
            (canonical (BitVec.ofNat 64 at_) = true → (s.die q).tlbFind p at_ = none → ∃ t n x id j y, exec i s = .next t ∧
              Map.find? t.walks n = some x ∧ x.die = q ∧ x.part = p ∧ x.va = at_ ∧ x.use = .task id (at_ + 1) 0 ∧
              Map.find? t.tasks id = some j ∧ j = { left := 1, first := none, go := .resultReady, args := [w, k, 5, a % 16, at_] } ∧
              t.wave? w = some y ∧ y.ctx = { m.x.ctx with busy := y.ctx.busy, last := y.ctx.last } ∧
              ∀ l < 32, m.en.getLsbD l = true → (Map.get 0 y.ctx.busy (portVec .sy .st)).getLsbD l = true)))) ∧
      (right 3 →
        let n := a % 16
        let ok := a / 16 = 0 ∧ b / 256 = 0 ∧ (n = p ∨ right 4)
        begun (.syPart gd src) (60 + 180 * ringDist q 0) .resultReady [w, k, 4, if ok then 1 else 0, n, b % 256, v, 180 * ringDist q 0]))

/-- The word that a partition register of sy.part reads (R274). -/
def partWord (k : Part) (r : Nat) : Option Word :=
  match r with
  | 0 => some (k.pcap.setWidth 32) | 1 => some (k.qtbase.setWidth 32) | 2 => some ((k.qtbase >>> 32).setWidth 32)
  | 3 => some (k.qtlen.setWidth 32) | 4 => some (k.ttbase.setWidth 32) | 5 => some ((k.ttbase >>> 32).setWidth 32)
  | 6 => some (k.ptbase.setWidth 32) | 7 => some ((k.ptbase >>> 32).setWidth 32) | 8 => some (k.lnkstall.setWidth 32)
  | _ => none

/-- What is carried out elsewhere: after an invalidation no TLB of a core or die, no last-page register and no held bundle, be it one that a rollback or a
return from a trap would bring back, holds a page of the range (R267); the injection whose address has been walked is made or denied (R275); sy.part at
die 0 stores a value within the limits of R274, and answers the previous one with OK or DENIED; the injections arm what R275 says; QTBASE, QTLEN and
PTBASE take their halves, the queue-table ones after the partition's cached contexts have been written back, for which they wait while a line of a
descriptor may not be written (R206, R274, R282). Log entry 46: the model's own reading in it. -/
def Obligations.SystemEffects : Prop :=
  (∀ (s : State) w k p all va l2, s.ev = [w, k, 1, p, all, va, l2] → ∃ t, exec .resultReady s = .next t ∧ s.SameMemory t ∧
    let named (g : Page) : Prop := g.part = p ∧
      (all = 1 ∨ ((l2 = 1 ∨ g.whole = true) ∧ g.vpn / 2 ^ 13 = va / 2 ^ 29 % 2 ^ 35) ∨ (l2 ≠ 1 ∧ g.holds p va = true))
    (∀ c g, g ∈ (t.core c).tlb → ¬named g) ∧ (∀ d i g, g ∈ Map.get [] (t.die d).tlb i → ¬named g) ∧
    (∀ v y l g, t.wave? v = some y → Map.find? y.lastPage l = some g → ¬named g) ∧
    ∀ v y, t.wave? v = some y → y.part = p → ∀ (c : Ctx), (c = y.ctx ∨ (∃ z, y.win = some z ∧ c = z.ckpt) ∨ ∃ z, y.trap = some z ∧ c = z.saved) →
      ∀ q g b vpn o, (q, g) ∈ c.seqs ++ c.spill → g.part = some b → (vpn, o) ∈ b.pages →
        all ≠ 1 ∧ (l2 ≠ 1 → vpn ≠ va / 2 ^ 16 % 2 ^ 48) ∧ (l2 = 1 → vpn / 2 ^ 13 ≠ va / 2 ^ 29 % 2 ^ 35)) ∧
  (∀ (s : State) w k n va r x o, s.ev = w :: k :: 5 :: n :: va :: r → s.wave? w = some x → Map.find? x.pend k = some o →
    ∃ t, exec .resultReady s = .next t ∧
      Injected s t w k o.lanes (s.devLine (dieOf w) x.part va) (if n = 1 then .injSoft else .injUncorr)) ∧
  (∀ (s : State) w k ok p r v back x o, s.ev = [w, k, 4, ok, p, r, v, back] → s.wave? w = some x → Map.find? x.pend k = some o →
    let takes := ok = 1 ∧ r ≠ 0 ∧ (r = 1 → v % 64 = 0) ∧ (r = 3 → v ≤ 2 ^ 20) ∧ (r = 4 → v % 256 = 0) ∧ (r = 6 → v % 65536 = 0)
    (∀ old c u, partWord (s.part p) r = some old → takes → r ≤ 3 → s.flushPartReady p = (c + 1, u) →
      exec .resultReady s = .next (u.after (c + 1) .resultReady s.ev)) ∧
    ∀ old, partWord (s.part p) r = some old → (takes → r ≤ 3 → (s.flushPartReady p).1 = 0) →
      ∃ t, exec .resultReady s = .next t ∧ t.Due (s.now + back) .resultReady [w, k] ∧
      (r = 4 ∨ r = 5 ∨ r = 8 ∨ ¬takes → ∃ y g, t.wave? w = some y ∧ Map.find? y.pend k = some g ∧ ∀ l < 32, o.lanes.getLsbD l = true →
        Map.get 0 g.vals (32 * portVec .sy .res + l) = old ∧ Map.get 0 g.vals (32 * portVec .sy .st + l) = if takes then 0 else 4) ∧
      (takes → v < 2 ^ 32 → partWord (t.part p) r = some (BitVec.ofNat 32 v)) ∧ (¬takes → t.part p = s.part p)) ∧
  (∀ (s : State) c a n, s.ev = [c, a, n] → ∃ t, exec .injAbft s = .next t ∧ (∀ e, e ≠ c → t.clover e = s.clover e) ∧
    ∀ f, Map.find? (s.clover c).abft a = some f → ∃ g, Map.find? (t.clover c).abft a = some g ∧ g = { f with inject := g.inject } ∧
      ∀ j, j ∈ g.inject ↔ j ∈ f.inject ∨ j = n) ∧
  (∀ (s : State) n, s.ev = [n] → ∃ t u, exec .injSoft s = .next t ∧ exec .injUncorr s = .next u ∧ t = { s with lines := t.lines } ∧ u = { s with lines := u.lines } ∧
    t.line n = { s.line n with soft := true } ∧ u.line n = { s.line n with poison := true } ∧ ∀ j, j ≠ n → t.line j = s.line j ∧ u.line j = s.line j) ∧
  (∀ (s : State) w u l x, s.ev = [w, u, l] → s.wave? w = some x → ∃ t y, exec .injTwin s = .next t ∧ s.OnlyWave t w ∧ t.wave? w = some y ∧
    y = { x with inject := y.inject } ∧ (∀ j, j ∈ y.inject ↔ j ∈ x.inject ∨ j = 32 * u + l) ∧ (x.inject.Nodup → y.inject.Nodup)) ∧
  (∀ (s : State) p n, s.ev = [p, n] → (∀ d i c, Map.find? (s.die d).qctx i = some c → i = qkey c.part c.index) →
    (∀ c u, s.flushPartReady p = (c + 1, u) → exec .qtlen s = .next (u.after (c + 1) .qtlen s.ev)) ∧
    ((s.flushPartReady p).1 = 0 → ∃ t, exec .qtlen s = .next t ∧
      (t.part p).qtlen = BitVec.ofNat 64 n ∧ ∀ d < 4, ∀ i c, Map.find? (t.die d).qctx i = some c → c.part ≠ p)) ∧
  ∀ (s : State) p half v, s.ev = [p, half, v] → half < 2 → v < 2 ^ 32 →
    (∀ d i c, Map.find? (s.die d).qctx i = some c → i = qkey c.part c.index) →
    let halves (old new : Dword) : Prop := new.toNat = if half = 0 then old.toNat / 2 ^ 32 * 2 ^ 32 + v else v * 2 ^ 32 + old.toNat % 2 ^ 32
    (∀ c u, s.flushPartReady p = (c + 1, u) → exec .qtbase s = .next (u.after (c + 1) .qtbase s.ev)) ∧
    ((s.flushPartReady p).1 = 0 → ∃ t, exec .qtbase s = .next t ∧ halves (s.part p).qtbase (t.part p).qtbase ∧
      ∀ d < 4, ∀ i c, Map.find? (t.die d).qctx i = some c → c.part ≠ p) ∧
    ∃ t, exec .ptbase s = .next t ∧ halves (s.part p).ptbase (t.part p).ptbase ∧ ∀ c g, g ∈ (t.core c).tlb → g.part ≠ p

/-! Traps and the return from one (15_traps_preemption_reliability.md), reset, and memory. -/

/-- `t` is `s` after the trap of wave `w` could not enter its handler: the wave has stopped, and a TRAPFAIL message with the cause, TMASK and TPC is on
its way to the clover's manager (R361, R364). -/
def TrapFailed (s t : State) (w cause : Nat) (mask : Mask) (pc : Dword) : Prop :=
  (∀ v, v ≠ w → t.wave? v = s.wave? v) ∧ (∃ y, t.wave? w = some y ∧ y.stop = .trapfail) ∧ s.SameMemory t ∧
    t.Due s.now .mailboxPost [cloverOf w] ∧ ∃ g : Msg, (t.clover (cloverOf w)).mailWait = (s.clover (cloverOf w)).mailWait ++ [g] ∧
      g.core = coreOf w % 4 ∧ g.bytes.length = 32 ∧ g.bytes[0]? = some 4 ∧ g.bytes[2]? = some (BitVec.ofNat 8 cause) ∧
      (∀ i < 4, g.bytes[12 + i]? = some (BitVec.ofNat 8 (mask.toNat / 256 ^ i))) ∧
      (∀ i < 8, g.bytes[16 + i]? = some (BitVec.ofNat 8 (pc.toNat / 256 ^ i))) ∧ g.bytes[24]? = some (BitVec.ofNat 8 cause)

/-- The pieces of the trap table that a trap of `cause` reads: its own entry, and that of the supervisor's data (R360). -/
def trapPieces (s : State) (part cause : Nat) : List (Nat × Nat × Nat × Nat) :=
  let at_ (k : Nat) : Nat := (s.part part).ttbase.toNat + 8 * k
  [(part, at_ cause, 8, 1), (part, at_ 31, 8, 1)]

/-- Taking a trap: a mismatch inside a region restarts the region; an open window rolls back first; a trap while VALID is 1 stops the wave; otherwise
TSTATE, TMASK, TPC and TINFO are written, the context is saved, the other fragments, spilled ones among them, are held, and the
trapping fragment waits, with mask TMASK and no loops, for the two entries of the trap table, for which it does not wait where the die TLB holds their pages; then an
entry whose EN is 0 or whose reserved bit is set, or that cannot be read, stops the wave, and otherwise the fragment starts at the handler's address, with
an empty join table and empty FIFOs, SUP set and b15 at its part of the supervisor data area, eight cycles later (R265, R292, R359 to R361, R372, R373, R472).
Log entries 7, 52, 105: the model's own readings in it. -/
def Obligations.TrapEntry : Prop :=
  (∀ (s : State) w q (t : Trap) pc cap x, s.wave? w = some x →
    let c := x.ctx
    let restarts := (t.cause = 8 ∨ t.cause = 9) ∧ c.wstat.getLsbD 6 = true ∧ c.wstat.getLsbD 4 = false ∧ x.region.isSome = true
    let u := s.takeTrap w q t pc cap
    (restarts → u = s.regionRestart w) ∧
    (¬restarts → x.win.isSome = true → u = s.rollback w 2) ∧
    (¬restarts → x.win = none → x.tstate.getLsbD 11 = true → TrapFailed s u w t.cause x.tmask x.tpc) ∧
    (¬restarts → x.win = none → x.tstate.getLsbD 11 = false →
      let reads (y : Wave) : Bool × State := (s.setWave w y).devTask (dieOf w) (trapPieces s x.part t.cause) .bundleFetch [w, q, 2]
      ∃ y k h, (u = if (reads y).1 then (reads y).2.enterHandler w q else (reads y).2) ∧
        ((∀ i ∈ [t.cause, 31], ∀ a ∈ pagesOf ((s.part x.part).ttbase.toNat + 8 * i) 8, ∃ g d, (s.die (dieOf w)).tlbFind x.part a = some (g, d) ∧
          ∀ e, s.pageAt g a = .page e → e.flip = false) → (reads y).1 = true) ∧
        y = { x with ctx := y.ctx, trap := some k, tstate := y.tstate, tmask := t.mask, tpc := pc, tinfo := t.info, noWin := 0 } ∧
        y.tstate.toNat = t.cause % 256 + t.slot % 8 * 256 + 2048 ∧
        k.seq = q ∧ k.cap = cap ∧ k.logged = [] ∧ k.firstOp = x.nextOp ∧ (t.pend = false → k.saved = c) ∧
        Map.find? y.ctx.seqs q = some h ∧ h.mask = t.mask ∧ h.loops = [] ∧ h.parked = none ∧ h.kept = false ∧ h.fetch = .look ∧ h.part = none ∧
        (∀ j f, j ≠ q → Map.find? y.ctx.seqs j = some f → f.kept = true) ∧ (∀ j f, Map.find? y.ctx.spill j = some f → f.kept = true) ∧
        (∀ j f, j ≠ q → Map.find? c.seqs j = some f → Map.find? y.ctx.seqs j = some { f with kept := true }) ∧
        (∀ j f, Map.find? c.spill j = some f → Map.find? y.ctx.spill j = some { f with kept := true }) ∧
        y.ctx = { c with vec := y.ctx.vec, seqs := y.ctx.seqs, spill := y.ctx.spill } ∧
        ∀ v l, l < 32 → y.ctx.reg v l = if t.pend = true ∧ v = portVec .ck .st ∧ t.mask.getLsbD l = true then c.reg v l &&& ~~~1#32 else c.reg v l)) ∧
  ∀ (s : State) w q r x g, s.ev = w :: q :: 2 :: r → s.wave? w = some x → Map.find? x.ctx.seqs q = some g →
    let u := s.enterHandler w q
    let cause := x.tstate.toNat % 256
    exec .bundleFetch s = .next u ∧
    (s.trapEntry w cause = none ∨ s.trapEntry w 31 = none → TrapFailed s u w cause x.tmask x.tpc) ∧
    ∀ e p, s.trapEntry w cause = some e → s.trapEntry w 31 = some p →
      (e % 4 ≠ 1 → TrapFailed s u w cause x.tmask x.tpc) ∧
      (e % 4 = 1 → s.OnlyWave u w ∧ ∃ y h, u.wave? w = some y ∧ y = { x with ctx := y.ctx } ∧ Map.find? y.ctx.seqs q = some h ∧
        (∀ j, j ≠ q → Map.find? y.ctx.seqs j = Map.find? x.ctx.seqs j) ∧
        h.pc = BitVec.ofNat 64 (e / 4 * 4) ∧ h.mask = g.mask ∧ h.loops = [] ∧ h.parked = none ∧ h.kept = false ∧ h.due = s.now + 8 ∧ h.fetch = .need ∧
        y.ctx = { x.ctx with seqs := y.ctx.seqs, join := [], lsFifo := [], spFifo := [], wstat := y.ctx.wstat, base := y.ctx.base } ∧
        y.ctx.baseReg 15 = BitVec.ofNat 64 (p / 4096 * 4096 + 4096 * w) ∧ (∀ i, i ≠ 15 → y.ctx.baseReg i = x.ctx.baseReg i) ∧
        ∀ i < 32, y.ctx.wstat.getLsbD i = if i = 4 then true else x.ctx.wstat.getLsbD i)

/-- sy.sret: VALID and SUP are 0 again; the main file, VAC, SHD and the counters of stores, commands and takes stay as the handler left them; the other
registers, RM, guards, bases, policy word, join table and FIFOs are those saved, a pending STACK stays pending only where a merged fragment of unequal loop stacks is left to deliver it at, and so are the head latches, but for one whose queue another latch is
bound to by now; the handler's other fragments are gone and the held ones go on; the trapped fragment,
less its vacant lanes, is at TPC four cycles later, to re-enter at TSLOT with the capture block, or afresh when TSLOT is 7 (R270, R363). Log entry 55: the model's own reading in it. -/
def Obligations.TrapReturn : Prop :=
  (∀ (s : State) w q x, s.wave? w = some x → x.trap = none → s.trapReturn w q =
    s.setWave w { x with tstate := x.tstate &&& ~~~2048#32, ctx := { x.ctx with wstat := setField x.ctx.wstat 4 4 0 } }) ∧
  ∀ (s : State) w q x t, s.wave? w = some x → x.trap = some t → t.saved.join = [] →
    let u := s.trapReturn w q
    let c := x.ctx
    let f0 := (Map.find? t.saved.seqs t.seq).getD (Seq.start 0 0 0)
    let live := f0.mask &&& ~~~c.vac
    let slot := x.tstate.toNat / 256 % 8
    u = { s with waves := u.waves, bound := u.bound } ∧ (∀ v, v ≠ w → u.wave? v = s.wave? v) ∧
    (∀ p i v k, v ≠ w → ((p, i, v, k) ∈ u.bound ↔ (p, i, v, k) ∈ s.bound)) ∧
    ∃ y, u.wave? w = some y ∧ y = { x with ctx := y.ctx, trap := none, traps := y.traps, tstate := x.tstate &&& ~~~2048#32 } ∧
      (∀ v, v ∈ y.traps ↔ v ∈ x.traps ∧ (v.pc = none ∨ ∃ j f, (j, f) ∈ y.ctx.seqs ++ y.ctx.spill ∧ f.stacked = true)) ∧
      (∀ k < 4, let h := t.saved.head k
        let p := handlePart h.handle
        let i := handleIdx h.handle
        (h.bound = false ∨ h.stale = true → y.ctx.head k = h) ∧
        (h.bound = true → h.stale = false → (y.ctx.head k = h ∧ (h.wait = 0 → (p, i, w, k) ∈ u.bound)) ∨ (y.ctx.head k = { h with bound := false, recs := [] } ∧
          ∃ v j, ((p, i, v, j) ∈ s.bound ∨ (p, i, v, j) ∈ u.bound) ∧ ¬(v = w ∧ j = k)))) ∧
      (∀ i < 32, y.ctx.wstat.getLsbD i = if i = 4 then false else if i = 2 then t.saved.wstat.getLsbD i else c.wstat.getLsbD i) ∧
      (∀ v l, l < 32 → y.ctx.reg v l = if v < 192 then c.reg v l else t.saved.reg v l) ∧
      y.ctx.vac = c.vac ∧ y.ctx.stc = c.stc ∧ y.ctx.cpc = c.cpc ∧ y.ctx.tlc = c.tlc ∧
      y.ctx.guards = t.saved.guards ∧ y.ctx.base = t.saved.base ∧ y.ctx.pol = t.saved.pol ∧ y.ctx.etag = t.saved.etag ∧ y.ctx.busy = t.saved.busy ∧
      y.ctx.lsFifo = t.saved.lsFifo ∧ y.ctx.spFifo = t.saved.spFifo ∧ y.ctx.join = [] ∧
      (∀ j g, j ≠ q → Map.find? y.ctx.seqs j = some g → ∃ h, (j, h) ∈ c.seqs ∧ h.kept = true ∧ g = { h with kept := false }) ∧
      (∀ j h, j ≠ q → Map.find? c.seqs j = some h → h.kept = true → Map.find? y.ctx.seqs j = some { h with kept := false }) ∧
      (live ≠ 0 → ∃ f, Map.find? y.ctx.seqs q = some f ∧ f.pc = x.tpc ∧ f.mask = live ∧ f.loops = f0.loops ∧ f.due = s.now + 4 ∧ f.reenter = true ∧
        (slot = 7 ∨ t.cap = none → f.part = none ∧ f.fetch = .need) ∧
        ∀ k, t.cap = some k → slot ≠ 7 → ∃ p, f.part = some p ∧ p.first = slot ∧ p.due = s.now + 4 ∧
          p.cap = { k with addr := x.tpc, words := [] })

/-- Reset: no wave, team, launch, request or host access exists; every byte of memory, drawer, scratchpad and B-store reads 0 (the model's choice,
log entries 3 and 4); the registers of links, dies and clovers and the memory windows have the reset values of R235, R238, R306, R383, R396, R397, R400 and R414; the registers to
which the spec gives none read 0 or empty (the model's choice, log entry 86); and the cold start of R420 is the one step due. -/
def Obligations.ResetValues : Prop :=
  let s := State.reset
  s.now = 0 ∧ s.agenda = [(0, .coldStart, [])] ∧ s.stopped = false ∧ s.memoriesWf ∧
  (∀ w, s.wave? w = none) ∧ (∀ k, s.team? k = none ∧ s.launch? k = none ∧ s.cmd? k = none ∧ s.qop? k = none ∧ s.req? k = none) ∧
  s.time = 0 ∧ s.bootstat = 0 ∧ s.featack = 0 ∧ s.stretch = 0 ∧ s.flips = [] ∧ s.resizes = [] ∧ s.bound = [] ∧
  (∀ a, s.byte a = 0 ∧ Memory.read s.drawer a = 0) ∧ (∀ k a, s.scrByte k a = 0) ∧ (∀ c a, Memory.read (s.clover c).bstore a = 0) ∧
  (∀ p, let k := s.part p
    k.pcap = 0 ∧ k.qtbase = 0 ∧ k.qtlen = 0 ∧ k.ttbase = 0 ∧ k.ptbase = 0 ∧ k.lnkstall = 0 ∧ k.clovers = 0 ∧ k.ctxbase = 0 ∧ k.ctxlen = 0 ∧
      ∀ n, k.windowBase n = 0x000FFFFFFFFF0000 ∧ k.windowLim n = 0 ∧ ∀ a, k.inWindow a = false) ∧
  (∀ n, let k := s.link n
    k.width = 8 ∧ k.state = .down ∧ k.lctl = 0 ∧ k.berO = 4096 ∧ k.berI = 4096 ∧ (∀ i, k.entryOf i = 0x60) ∧ k.up = false) ∧
  (∀ d pa, s.home d pa = pa / 4096 % 4) ∧ (∀ d, (s.die d).state = .run ∧ (s.die d).items = [] ∧ ∀ i, Map.find? (s.die d).qctx i = none) ∧
  (∀ c, (s.core c).polign = 0 ∧ (s.core c).rollbk = 0 ∧ (s.core c).swaps = 0 ∧ (s.core c).tlb = []) ∧
  ∀ c, (s.clover c).baton = none ∧ (s.clover c).table = [] ∧ (∀ i, Map.get 0 (s.clover c).acc i = 0) ∧ ∀ n, Map.find? (s.clover c).mail n = none

/-- The bytes of a list stored from an address on: each of them reads back, every other byte reads as before, and the canonical form is kept; two memories
in canonical form that read alike are equal; and a store at a physical address that no scratch window covers changes those bytes of memory alone, while one
that a window covers goes to the scratchpad (R5, R316). -/
def Obligations.MemoryLaws : Prop :=
  (∀ (m : Memory) a bs c, Memory.read (m.writeAll a bs) c = if a ≤ c ∧ c < a + bs.length then bs.getD (c - a) 0 else m.read c) ∧
  (∀ (m : Memory) a bs, m.wf = true → (m.writeAll a bs).wf = true) ∧
  (∀ m n : Memory, m.wf = true → n.wf = true → (∀ a, m.read a = n.read a) → m = n) ∧
  (∀ n v, ofBytes (toBytes n v) = v % 256 ^ n) ∧
  (∀ (s : State) a bs, s.memoriesWf → (s.write a bs).memoriesWf) ∧
  (∀ (s : State) a bs, (∀ i < bs.length, s.scratchAt (a + i) = none) → s.write a bs = { s with mem := Memory.writeAll s.mem a bs }) ∧
  ∀ (s : State) a b k o x, s.scratchAt a = some (k, o) → s.team? k = some x → ∃ t y, s.putByte a b = t ∧ t = { s with teams := t.teams } ∧
    t.team? k = some y ∧ y = { x with bytes := y.bytes } ∧ (∀ i, Memory.read y.bytes i = if i = o then b else Memory.read x.bytes i) ∧
    ∀ j, j ≠ k → t.team? j = s.team? j

/-- Every step keeps the memories canonical: main memory, the drawer copy, every B-store, every scratchpad and the attestation bytes list their addresses
strictly rising, and no byte that an unlisted address reads as, so equal memories stay equal data. -/
def Obligations.MemoriesStayCanonical : Prop := ∀ s t : State, s.memoriesWf → step s = .next t → t.memoriesWf


/-! The events of accesses (07_memory_operations.md, 12_memory_model.md, 13_memory_hierarchy_and_translation.md). -/

/-- An atomic's new word, and whether a compare matched (R158, R159). -/
def atomicResult (op : Nat) (old c d : Word) : Word × Bool :=
  match op with
  | 0 => (old + c, false) | 1 => (old &&& c, false) | 2 => (old ||| c, false) | 3 => (old ^^^ c, false)
  | 4 => (if old.toInt ≤ c.toInt then old else c, false) | 5 => (if old.toInt ≤ c.toInt then c else old, false)
  | 6 => (if old.toNat ≤ c.toNat then old else c, false) | 7 => (if old.toNat ≤ c.toNat then c else old, false)
  | 8 => (c, false) | 9 => if old = c then (d, true) else (old, false)
  | _ => ((arithmetic [old, c] .rne (addX (ofFp32 old) (ofFp32 c))).res, false)

/-- Part `i` of access `k` of wave `w`, which is `a`, is the event's; the part's line is `u`; the wave is not about to retire. -/
def AtPart (s : State) (w k i : Nat) (x : Wave) (a : Access) (u : LineUse) : Prop :=
  s.ev = [w, k, i] ∧ s.wave? w = some x ∧ Map.find? x.accs k = some a ∧ a.lines[i]? = some u ∧ u.done = false ∧
    (x.accs.Pairwise fun p q => p.1 < q.1) ∧ x.ctx.vac ≠ BitVec.allOnes 32

/-- Part `i` of access `a` must leave its place, outside a window, to operations of the wave from earlier slots that are yet to be performed, or to the
access's own earlier lines (R42, R278, R298). -/
def WaitsTurn (x : Wave) (a : Access) (i : Nat) : Prop :=
  a.win = false ∧ ((∃ p ∈ x.accs, p.1 < a.id ∧ p.2.open = true ∧ p.2.win = false) ∨ (∃ j ∈ x.quOut, j < a.id) ∨
    ∃ (j : Nat) (r : LineUse), j < i ∧ a.lines[j]? = some r ∧ r.done = false)

/-- An atomic or a discard of the wave that is older than access `k` has yet to be performed on the line (R278, R279). -/
def HeldBack (x : Wave) (k : Nat) (p : Place) : Prop :=
  ∃ q ∈ x.accs, q.1 < k ∧ q.2.done = false ∧ q.2.win = false ∧ ((∃ o, q.2.kind = .atomic o) ∨ q.2.kind = .cinvDis) ∧
    ∃ r ∈ q.2.lines, r.place = p ∧ r.done = false

/-- Where byte `n` of lane `l` of an access lies: in the wave's own scratchpad for sp, in the scratchpad that a live scratch window gives for ls, or else in
main memory (R152, R169, R170, R316). -/
def placeOf (s : State) (x : Wave) (a : Access) (l n : Nat) : Option Nat × Nat :=
  if a.sp then (some x.team, (Map.get 0 a.addr l).toNat + n)
  else match s.scratchAt (Map.get 0 a.pa l + n) with
    | some p => (some p.1, p.2)
    | none => (none, Map.get 0 a.pa l + n)

/-- The byte at such a place. -/
def byteIn (s : State) (p : Option Nat × Nat) : BitVec 8 :=
  match p.1 with
  | some k => s.scrByte k p.2
  | none => Memory.read s.mem p.2

/-- Byte `n` of lane `l` is the last that an access has for place `p` among the lanes `here`, which are written in ascending order (R157). -/
def LastFor (s : State) (x : Wave) (a : Access) (here : Nat → Prop) (p : Option Nat × Nat) (l n : Nat) : Prop :=
  l < 32 ∧ n < a.width ∧ here l ∧ placeOf s x a l n = p ∧
    ∀ l' n', l ≤ l' → l' < 32 → n' < a.width → here l' → (l', n') ≠ (l, n) → placeOf s x a l' n' ≠ p

/-- No byte of the lanes `here` lies at place `p`. -/
def NoneFor (s : State) (x : Wave) (a : Access) (here : Nat → Prop) (p : Option Nat × Nat) : Prop :=
  ∀ l < 32, ∀ n < a.width, here l → placeOf s x a l n ≠ p

/-- The lanes of an access whose lines it has yet to carry out. -/
def OpenAt (a : Access) (l : Nat) : Prop := ∃ r ∈ a.lines, r.done = false ∧ r.lanes.getLsbD l = true

/-- A store that is older than access `k` and has not been performed. -/
def OlderStore (x : Wave) (k : Nat) (j : Nat) (a : Access) : Prop := (j, a) ∈ x.accs ∧ j < k ∧ a.done = false ∧ ∃ n, a.kind = .store n

/-- What access `k` reads at place `p`: the byte that the youngest older store of the wave holds for it, or the one that stands there (R171, R279). -/
def ReadAs (s : State) (x : Wave) (k : Nat) (p : Option Nat × Nat) (b : BitVec 8) : Prop :=
  ((∀ j a, OlderStore x k j a → NoneFor s x a (OpenAt a) p) → b = byteIn s p) ∧
  ∀ j a l n, OlderStore x k j a → LastFor s x a (OpenAt a) p l n → (∀ i c, OlderStore x k i c → j < i → NoneFor s x c (OpenAt c) p) →
    b = BitVec.ofNat 8 ((Map.get 0 a.data l).toNat / 256 ^ n)

/-- A load's word of `n` bytes, extended by its sign or by zeros (R156). -/
def extended (n : Nat) (sg : Bool) (v : Nat) : Word :=
  if sg = true ∧ n ≤ 2 ∧ 2 ^ (8 * n - 1) ≤ v then BitVec.ofNat 32 (v + 2 ^ 32 - 2 ^ (8 * n)) else BitVec.ofNat 32 v

/-- A line that a party of die `q` may write at once: the host has granted it, it is not on its way, no lease of it lives, its set has room, and no other wave
watches it (R282, R286, R289, R308, R309, R332). -/
def Writable (s : State) (q line : Nat) (hb : Bool) (w : Nat) : Prop :=
  let e := s.line line
  (hb = true → e.grant = some true) ∧ e.fetching = none ∧ (e.lease = 0 ∨ e.lease + 8 ≤ s.now) ∧
    ((Map.get [] (s.die q).cache (line % 131072)).filter (· != line)).length < 16 ∧ ∀ v ∈ e.watch, v = w

/-- A memory part of an access may be written at once, and its wave has no window open. -/
def PartFree (s : State) (w : Nat) (x : Wave) (a : Access) (u : LineUse) : Prop :=
  s.memoriesWf ∧ (a.sp = true → (s.team? x.team).isSome = true) ∧ ∀ line, u.place = .mem line → x.win = none ∧ Writable s (dieOf w) line u.hb w

/-- After a write by a party of die `q`, no L1 has the line, and that die is the line's holder and has it dirty, if it is no host memory (R307, R310). -/
def WrittenBy (t : State) (q line : Nat) : Prop :=
  (∀ c, ∀ e ∈ Map.get [] (t.core c).l1 (line % 128), e.line ≠ line) ∧
    (128 * line < 2 ^ 51 → (t.line line).holder = some q ∧ (t.line line).dirty = true)

/-- No cache has a line any more. -/
def NoCopy (t : State) (line : Nat) : Prop :=
  (t.line line).holder = none ∧ (t.line line).dirty = false ∧ (∀ c, ∀ e ∈ Map.get [] (t.core c).l1 (line % 128), e.line ≠ line) ∧
    ∀ d < 4, line ∉ Map.get [] (t.die d).cache (line % 131072)

/-- Accesses of ls and sp, in main memory, in the scratchpad, and through a scratch window: LOAD_BIND takes in each lane of its line the bytes that the wave's
older stores hold, or else those that stand there, extended as its form says, and its last part fills the FIFO entry; STORE_PERFORMED writes exactly the
bytes of its lanes, ascending, makes its die the line's holder, and lowers STC; ATOMIC_PERFORMED answers the old word and writes the new one;
LINE_OPERATION_PERFORMED of ls.cwb writes a dirty line back and keeps it, of ls.cinv.wb writes it back and drops every copy, and of ls.cinv.dis drops every copy
and gives the line its drawer bytes; an access outside a window whose older operations are still to be performed is tried again in the next cycle; a fence is
over when every older write has performed (R42, R155 to R163, R166, R169 to R171, R278, R279, R282, R307, R310, R314, R316). Log entries 13, 37, 38, 98, 101: the
model's own readings in it. -/
def Obligations.AccessEvents : Prop :=
  (∀ (s : State) w k i x a u n sg, AtPart s w k i x a u → a.kind = .load n sg → ¬WaitsTurn x a i → ¬HeldBack x k u.place →
    (a.win = false ∧ x.win = none) ∨ (∃ v, x.win = some v ∧ a.win = true ∧ ((∃ j o, u.place = .scratch j o) ∨
      ∃ line e, u.place = .mem line ∧ (Map.get [] (s.core (coreOf w)).l1 (line % 128)).filter (·.line == line) = [e] ∧ e.valid s.now = true)) →
    ∃ (t : State) (y : Wave) (b : Access) (v : LineUse), exec .loadBind s = .next t ∧ s.SameMemory t ∧ t.wave? w = some y ∧
      y = { x with accs := y.accs, win := y.win } ∧ Map.find? y.accs k = some b ∧ b.lines[i]? = some v ∧ v.done = true ∧ b.lines.length = a.lines.length ∧
      (∀ j, j ≠ k → Map.find? y.accs j = Map.find? x.accs j) ∧
      (∀ l < 32, u.lanes.getLsbD l = false → Map.get 0 b.vals l = Map.get 0 a.vals l) ∧
      (∀ l < 32, u.lanes.getLsbD l = true → ∃ f : Nat → BitVec 8, (∀ j < n, ReadAs s x a.id (placeOf s x a l j) (f j)) ∧
        Map.get 0 b.vals l = extended n sg (ofBytes ((List.range n).map f))) ∧
      b.poison = (match u.place with | .mem line => if (s.line line).poison then a.poison ||| u.lanes else a.poison | _ => a.poison) ∧
      ((∀ (j : Nat) (r : LineUse), b.lines[j]? = some r → r.done = true ∧ r.ready = true) → ∃ c, t.Due c .loadBind [w, k, b.lines.length])) ∧
  (∀ (s : State) w k i x a n sg, s.ev = [w, k, i] → s.wave? w = some x → Map.find? x.accs k = some a → a.lines.length ≤ i → a.kind = .load n sg →
    a.win = false → a.poison = 0 → x.trap = none → x.win = none → x.ctx.vac ≠ BitVec.allOnes 32 →
    let fifo (c : Ctx) : List FifoEntry := if a.sp then c.spFifo else c.lsFifo
    ∃ t y, exec .loadBind s = .next t ∧ s.OnlyWave t w ∧ t.wave? w = some y ∧ Map.find? y.accs k = none ∧
      y.ctx = { x.ctx with vec := y.ctx.vec, busy := y.ctx.busy, lsFifo := y.ctx.lsFifo, spFifo := y.ctx.spFifo, ldc := y.ctx.ldc } ∧
      (fifo y.ctx).length = (fifo x.ctx).length ∧ (a.sp = true → y.ctx.lsFifo = x.ctx.lsFifo ∧ y.ctx.ldc = x.ctx.ldc) ∧
      (a.sp = false → y.ctx.spFifo = x.ctx.spFifo ∧ ((∃ e : FifoEntry, e ∈ x.ctx.lsFifo ∧ e.id = a.id ∧ e.filled = false) → y.ctx.ldc = x.ctx.ldc - 1)) ∧
      ∀ (j : Nat) (e : FifoEntry), (fifo x.ctx)[j]? = some e → ∃ f : FifoEntry, (fifo y.ctx)[j]? = some f ∧ (e.id ≠ a.id → f = e) ∧
        (e.id = a.id → f.filled = true ∧ f.mask = e.mask ∧
          ∀ l < 32, e.mask.getLsbD l = true → a.lanes.getLsbD l = true → Map.get 0 f.vals l = Map.get 0 a.vals l)) ∧
  (∀ (s : State) w k i x a u n, AtPart s w k i x a u → a.kind = .store n → x.nextStore = some (k, i) → ¬WaitsTurn x a i → PartFree s w x a u →
    let here (l : Nat) : Prop := u.lanes.getLsbD l = true
    ∃ t, exec .storePerformed s = .next t ∧ (∀ p, NoneFor s x a here p → byteIn t p = byteIn s p) ∧
      (∀ p l j, LastFor s x a here p l j → byteIn t p = BitVec.ofNat 8 ((Map.get 0 a.data l).toNat / 256 ^ j)) ∧
      (∀ line, u.place = .mem line → WrittenBy t (dieOf w) line) ∧
      ((∀ (j : Nat) (r : LineUse), a.lines[j]? = some r → j ≠ i → r.done = true) → a.wbs = 0 →
        ∃ y, t.wave? w = some y ∧ Map.find? y.accs k = none ∧ y.ctx.stc = x.ctx.stc - 1)) ∧
  (∀ (s : State) w k i x a u op, AtPart s w k i x a u → a.kind = .atomic op → ¬WaitsTurn x a i → PartFree s w x a u →
    let here (l : Nat) : Prop := u.lanes.getLsbD l = true
    (∀ l < 32, ∀ l' < 32, ∀ j < 4, ∀ j' < 4, here l → here l' → (l, j) ≠ (l', j') → placeOf s x a l j ≠ placeOf s x a l' j') →
    ∃ (t : State) (y : Wave) (b : Access), exec .atomicPerformed s = .next t ∧ t.wave? w = some y ∧ Map.find? y.accs k = some b ∧
      (∀ p, NoneFor s x a here p → byteIn t p = byteIn s p) ∧ (∀ line, u.place = .mem line → WrittenBy t (dieOf w) line) ∧
      ∀ l < 32, here l →
        let old : Word := BitVec.ofNat 32 (ofBytes ((List.range 4).map fun j => byteIn s (placeOf s x a l j)))
        let out := atomicResult op old (Map.get 0 a.data l) (Map.get 0 a.data2 l)
        Map.get 0 b.vals l = old ∧ (∀ j < 4, byteIn t (placeOf s x a l j) = BitVec.ofNat 8 (out.1.toNat / 256 ^ j)) ∧
          Map.get 0 b.data2 l = if out.2 then 1 else 0) ∧
  (∀ (s : State) w k i x a u line, AtPart s w k i x a u → u.place = .mem line → x.nextStore = some (k, i) → ¬WaitsTurn x a i → u.hb = false →
    let carried (t : State) : Prop := exec .lineOperationPerformed s = .next t
    let bytes := (List.range 128).map fun j => Memory.read s.mem (128 * line + j)
    let wrote (t : State) : Prop := ∀ d, (s.line line).dirty = true → (s.line line).holder = some d → ∃ r : Req, Map.find? t.reqs s.nextId = some r ∧ r.write = true ∧
      r.line = line ∧ r.bytes = bytes ∧ t.Due (s.now + (80 + 180 * ringDist d (s.home d (128 * line)))) .drawerRequest [s.nextId]
    (a.kind = .cwb → ∃ t, carried t ∧ s.SameMemory t ∧ ((s.line line).dirty = false → t.lines = s.lines ∧ t.reqs = s.reqs) ∧
      ((s.line line).holder.isSome = true → (t.line line).dirty = false ∧ (t.line line).holder = (s.line line).holder) ∧ wrote t) ∧
    (a.kind = .cinvWb → ∃ t, carried t ∧ s.SameMemory t ∧ NoCopy t line ∧ wrote t) ∧
    (a.kind = .cinvDis → Writable s (dieOf w) line false w → ∃ t, carried t ∧ NoCopy t line ∧ (t.line line).poison = false ∧
      (∀ b, Memory.read t.drawer b = Memory.read s.drawer b) ∧ (∀ j b, t.scrByte j b = s.scrByte j b) ∧
      let back := match (s.reqs.filter fun r => r.2.write && r.2.line == line).getLast? with
        | some r => r.2.bytes
        | none => (List.range 128).map fun j => Memory.read s.drawer (128 * line + j)
      ∀ b, Memory.read t.mem b = if 128 * line ≤ b ∧ b < 128 * line + back.length then back.getD (b - 128 * line) 0 else Memory.read s.mem b)) ∧
  (∀ (s : State) w k i x a u, AtPart s w k i x a u → WaitsTurn x a i →
    let again (e : Instr) : Prop := ∃ t, exec e s = .next t ∧ s.OnlyWaveAndAgenda t w ∧ t.Due (s.now + 1) e [w, k, i]
    (a.isLoad = true → again .loadBind) ∧ (a.isAtomic = true → again .atomicPerformed) ∧
    (x.nextStore = some (k, i) → (∀ n, a.kind = .store n → again .storePerformed) ∧ (a.isLineOp = true → again .lineOperationPerformed))) ∧
  (∀ (s : State) w k x a sc, s.ev = [w, k] → s.wave? w = some x → Map.find? x.accs k = some a → a.kind = .fence sc → x.win = none → x.trap = none →
    let ended : Prop := ∀ p ∈ x.accs, p.1 < a.id → p.2.isLoad = true ∨ (∃ c, p.2.kind = .fence c ∧ (sc = 3 → p.2.wbs = 0)) ∨ (p.2.done = true ∧ (sc = 3 → p.2.wbs = 0))
    (¬ended → exec .fenceComplete s = .next s) ∧
    (ended → ∃ t y, exec .fenceComplete s = .next t ∧ s.OnlyWave t w ∧ t.wave? w = some y ∧ Map.find? y.accs k = none ∧
      (∀ j, j ≠ k → Map.find? y.accs j = Map.find? x.accs j) ∧ y.ctx = { x.ctx with vec := y.ctx.vec, busy := y.ctx.busy } ∧
      (a.sp = false → ∀ l < 32, a.en.getLsbD l = true → Map.get 0 x.ctx.last (32 * unitCode .ls + l) = a.id →
        y.ctx.reg (portVec .ls .st) l = 0 ∧ (Map.get 0 y.ctx.busy (portVec .ls .st)).getLsbD l = false)))

/-- No window reads a line, as far as the L1s and the watch tables know (R290). -/
def Untracked (s : State) (line : Nat) : Prop :=
  (s.line line).watch = [] ∧ ∀ p ∈ s.cores, ∀ e ∈ Map.get [] p.2.l1 (line % 128), e.line = line → e.spec = []

/-- Some write of a line waits for its leases or its watches, or has come to its holder (R287, R308). -/
def WriterWaits (s : State) (line : Nat) : Prop :=
  ((s.line line).waits ≠ 0 ∧ s.now ≤ (s.line line).waits) ∨ ∃ p ∈ s.waves, ∃ q ∈ p.2.accs, q.2.done = false ∧ q.2.writes = true ∧
    ∃ u ∈ q.2.lines, u.ready = true ∧ u.done = false ∧ u.place = .mem line

/-- A line of the device and its copies, leases, watches and grants: a held store's scratchpad line is ready at once, and a line of memory that may be written
when its other copies are gone and the wave's die holds it; a copy whose lease has not passed stays, one whose lease has passed and that no window reads goes,
and one that a window reads has its lease renewed, or rolls the window back where a writer waits; a watch notice rolls the watching wave back and no other; the
host's grant makes the asking die the holder, and an atomic is performed eight cycles later; a recall takes the line and its grant away, and rolls a watching
wave back (R286 to R290, R308, R332, R473).
Windows: a rollback restores the checkpoint but for the head latches, what was being looked up or fetched beginning again, discards what the window began, counts itself for a conflict or a full watch table,
raises ESC at four and eight of them, and lets the wave issue ten cycles and one per logged register later; a commit keeps every register, writes its held
store and closes the window; ESC and RBCNT decay; a window-free period ends (R283, R284, R288, R291, R293, R297). Log entry 54: the model's own reading in it. -/
def Obligations.LineAndWindowEvents : Prop :=
  ((∀ (s : State) w k i x a u team o n, AtPart s w k i x a u → u.place = .scratch team o → a.kind = .store n →
    ∃ (t : State) (y : Wave) (b : Access) (v : LineUse), exec .storeBufferEntryReady s = .next t ∧ s.OnlyWave t w ∧ t.wave? w = some y ∧ y = { x with accs := y.accs } ∧
      Map.find? y.accs k = some b ∧ b.lines[i]? = some v ∧ v = { u with ready := true }) ∧
  (∀ (s : State) w k i x a u line n, AtPart s w k i x a u → u.place = .mem line → u.hb = false → u.ready = false → a.kind = .store n →
    Writable s (dieOf w) line false w → Untracked s line → ∃ (t : State) (y : Wave) (b : Access) (v : LineUse), exec .storeBufferEntryReady s = .next t ∧ s.SameMemory t ∧
      t.waves = (s.setWave w y).waves ∧ y = { x with accs := y.accs } ∧ Map.find? y.accs k = some b ∧ b.lines[i]? = some v ∧ v = { u with ready := true } ∧
      (t.line line).holder = some (dieOf w) ∧ ∀ c, ∀ e ∈ Map.get [] (t.core c).l1 (line % 128), e.line ≠ line) ∧
  (∀ (s : State) n, s.ev = [n] →
    ((∀ p ∈ s.cores, ∀ e ∈ Map.get [] p.2.l1 (n % 128), e.line = n → e.valid s.now = true) → exec .leaseExpiry s = .next s) ∧
    ((s.cores.Pairwise fun p q => p.1 < q.1) → (∀ p ∈ s.cores, ∀ e ∈ Map.get [] p.2.l1 (n % 128), e.line = n → e.spec = []) →
      (∀ p ∈ s.cores, ((Map.get [] p.2.l1 (n % 128)).filter fun e => e.line == n).length ≤ 1) →
      ∃ t, exec .leaseExpiry s = .next t ∧ t = { s with cores := t.cores } ∧
        (∀ c e, e ∈ Map.get [] (t.core c).l1 (n % 128) → e.line = n → e.valid s.now = true) ∧
        ∀ c j e, e.line ≠ n → (e ∈ Map.get [] (t.core c).l1 j ↔ e ∈ Map.get [] (s.core c).l1 j))) ∧
  (∀ (s : State) n c e j, s.ev = [n] → (∀ p ∈ s.cores, p.1 ≠ c → ∀ r ∈ Map.get [] p.2.l1 (n % 128), r.line ≠ n) → (s.cores.Pairwise fun p q => p.1 < q.1) →
    (Map.get [] (s.core c).l1 (n % 128)).filter (·.line == n) = [e] → (∃ till, e.lease = some till ∧ till < s.now) → e.spec = [j] →
    (¬WriterWaits s n → ∃ t, exec .leaseExpiry s = .next t ∧ t = { s with cores := t.cores, lines := t.lines, agenda := t.agenda } ∧
      { e with lease := some (s.now + 511) } ∈ Map.get [] (t.core c).l1 (n % 128) ∧ (t.line n).lease = max (s.line n).lease (s.now + 511) ∧
      t.Due (s.now + 512) .leaseExpiry [n]) ∧
    (WriterWaits s n → exec .leaseExpiry s = .next ((s.modCore c (·.l1Drop n)).rollback (16 * c + j) 0))) ∧
  (∀ (s : State) w n, s.ev = [w, n] → (w ∉ (s.line n).watch → exec .watchNotice s = .next s) ∧
    (w ∈ (s.line n).watch → exec .watchNotice s = .next (s.rollback w 0))) ∧
  (∀ (s : State) n ex q w k i, s.ev = [n, ex, q, w, k, i] → (s.line n).holder = none ∨ (s.line n).holder = some q → (s.line n).watch = [] →
    (Map.get [] (s.die q).cache (n % 131072)).length < 16 →
    ∃ t, exec .hostGrant s = .next t ∧ s.SameMemory t ∧
      t.line n = { s.line n with holder := some q, grant := some (decide (ex = 1 ∨ (s.line n).grant = some true)) } ∧ (∀ j, j ≠ n → t.line j = s.line j) ∧
      (∀ x a u, s.wave? w = some x → Map.find? x.accs k = some a → a.lines[i]? = some u → u.place = .mem n → u.done = false →
        t.Due (s.now + if a.isAtomic then 8 else 0) a.event [w, k, i])) ∧
  (∀ (s : State) n w, s.ev = [n] → (s.line n).watch = [w] → exec .hostRecall s = exec .hostRecall (s.rollback w 0)) ∧
  (∀ (s : State) n, s.ev = [n] → (s.line n).watch = [] → ∃ t, exec .hostRecall s = .next t ∧ s.SameMemory t ∧ t = { s with dies := t.dies, lines := t.lines } ∧
    t.line n = { s.line n with grant := none, holder := none, dirty := false } ∧ ∀ j, j ≠ n → t.line j = s.line j)) ∧
  ((∀ (s : State) w cause x v, s.ev = [w, cause] → s.wave? w = some x → x.win = some v →
    let counted := cause ≤ 1
    let rb := if counted then min 255 (x.ctx.wstat.toNat / 2 ^ 16 % 256 + 1) else x.ctx.wstat.toNat / 2 ^ 16 % 256
    let esc := if counted then (if 8 ≤ rb then 2 else if 4 ≤ rb then max 1 (x.ctx.wstat.toNat % 4) else x.ctx.wstat.toNat % 4) else x.ctx.wstat.toNat % 4
    let till := s.now + 10 + v.logged.length
    ∃ t y, exec .rollback s = .next t ∧ s.SameMemory t ∧ (∀ j, j ≠ w → t.wave? j = s.wave? j) ∧ t.wave? w = some y ∧
      y.win = none ∧ y.rollTill = till ∧ t.Due till .rollbackEnd [w] ∧ (t.core (coreOf w)).rollbk = (s.core (coreOf w)).rollbk + 1 ∧
      y.ctx = { v.ckpt.anew with heads := x.ctx.heads, wstat := y.ctx.wstat } ∧
      y.ctx.wstat.toNat / 2 ^ 16 % 256 = rb ∧ y.ctx.wstat.toNat % 4 = esc ∧ y.ctx.wstat.getLsbD 5 = false ∧
      y.ctx.wstat.getLsbD 7 = x.ctx.wstat.getLsbD 7 ∧ (∀ b < 32, b ≠ 5 → b ≠ 7 → 2 ≤ b → (b < 16 ∨ 24 ≤ b) → y.ctx.wstat.getLsbD b = v.ckpt.wstat.getLsbD b) ∧
      (∀ p, p ∈ y.accs ↔ p ∈ x.accs ∧ p.1 < v.firstOp) ∧ (∀ p, p ∈ y.pend ↔ p ∈ x.pend ∧ p.1 < v.firstOp) ∧
      y.escStamp = s.now ∧ y.lastPage = v.lastPage ∧ (∀ i, i ∈ y.inject ↔ i ∈ v.inject ∨ i ∈ x.inject) ∧
      (∀ r, r ∈ y.traps ↔ r ∈ x.traps ∧ (r.pc = none ∨ v.ckpt.stacks = true)) ∧
      (cause = 2 → y.noWin = 256) ∧ (0 < esc → t.Due (s.now + 4096) .escDecay [w, s.now])) ∧
  (∀ (s : State) w x, s.ev = [w] → s.wave? w = some x →
    (x.rollTill ≤ s.now → exec .rollbackEnd s = .next (s.setWave w { x with rollTill := 0 })) ∧
    exec .noWindowPeriodEnd s = .next (s.setWave w { x with noWin := 0 })) ∧
  (∀ (s : State) w x, s.ev = [w, x.escStamp] → s.wave? w = some x → x.win = none → x.ctx.wstat.toNat % 4 ≠ 0 → x.noWin = 0 →
    x.stop ≠ .swapping → x.escStamp + 4096 ≤ s.now → ∃ t y, exec .escDecay s = .next t ∧ s.OnlyWave t w ∧ t.wave? w = some y ∧
    y = { x with ctx := { x.ctx with wstat := y.ctx.wstat } } ∧
    ∀ b < 32, y.ctx.wstat.getLsbD b = if b < 2 ∨ (16 ≤ b ∧ b < 24) then false else x.ctx.wstat.getLsbD b) ∧
  (∀ (s : State) w x v k a u n, s.ev = [w] → s.wave? w = some x → x.win = some v → x.mayCommit = true → x.ctx.vac ≠ BitVec.allOnes 32 → s.memoriesWf →
    (x.accs.Pairwise fun p q => p.1 < q.1) → (k, a) ∈ x.accs → v.firstOp ≤ k → a.kind = .store n → a.lines = [u] → a.wbs = 0 →
    (∀ p ∈ x.accs, p.2.poison = 0 ∧ (p.2.storing = true → p = (k, a))) → (a.sp = true → (s.team? x.team).isSome = true) →
    (∀ line, u.place = .mem line → Writable s (dieOf w) line u.hb w ∧ (s.line line).holder = some (dieOf w) ∧ Untracked s line) →
    let here (l : Nat) : Prop := u.lanes.getLsbD l = true
    ∃ t y, exec .windowCommit s = .next t ∧ (∀ p, NoneFor s x a here p → byteIn t p = byteIn s p) ∧
      (∀ p l j, LastFor s x a here p l j → byteIn t p = BitVec.ofNat 8 ((Map.get 0 a.data l).toNat / 256 ^ j)) ∧
      (∀ line, u.place = .mem line → WrittenBy t (dieOf w) line) ∧ t.wave? w = some y ∧ y.win = none ∧ y.ctx.stc = x.ctx.stc - 1 ∧
      Map.find? y.accs k = none) ∧
  ∀ (s : State) w x v, s.ev = [w] → s.wave? w = some x → x.win = some v → x.mayCommit = true → x.ctx.vac ≠ BitVec.allOnes 32 →
    (∀ p ∈ x.accs, p.2.storing = false ∧ p.2.poison = 0) → ∃ t y, exec .windowCommit s = .next t ∧ s.SameMemory t ∧
      (∀ j, j ≠ w → t.wave? j = s.wave? j) ∧ t.wave? w = some y ∧ y.win = none ∧
      y.ctx = { x.ctx with wstat := y.ctx.wstat } ∧ y.pend = x.pend ∧
      (∀ b < 32, y.ctx.wstat.getLsbD b = if b = 5 ∨ (16 ≤ b ∧ b < 24) then false else x.ctx.wstat.getLsbD b) ∧
      ∀ k a, (k, a) ∈ y.accs → a.win = false ∧ (k < v.firstOp ∨ ∃ c, a.kind = .fence c))

/-! Fragments, their fetch and their translations (01_machine_state.md, 08_control_and_cross_lane.md, 13_memory_hierarchy_and_translation.md). -/

/-- The loop stack after the bundle at `pc`: levels that end there with no iteration left are popped, and the next one, if it ends there too, counts down; its
START; and whether an iteration ended (R181). -/
def loopsAfter (pc : Dword) (ls : List Level) : List Level × Option Dword × Bool :=
  let n := (ls.takeWhile fun v => decide (v.fin = pc) && decide (v.count.toNat ≤ 1)).length
  match ls.drop n with
  | v :: r => if v.fin = pc then ({ v with count := v.count - 1, index := v.index + 1 } :: r, some v.start, true) else (v :: r, none, decide (n ≠ 0))
  | [] => ([], none, decide (n ≠ 0))

/-- A join-table entry that still waits for a lane (R30). -/
def Awaits (c : Ctx) (j : Join) : Prop := j.expect &&& ~~~c.vac &&& ~~~j.arrived ≠ 0

/-- The end of a bundle from which no lane exits: its fragment's lanes are grouped by outcome, the largest group, and of equals the one with the lowest lane,
keeping the sequencer; each other group is a new fragment, which takes the lowest free sequencer, or that of the fragment that parked earliest, or goes to the
spill area; all carry the loop stack as END of a body leaves it, and a split registers its token; a barrier is tested then (R29, R30, R32, R61, R181, R190).
Lanes whose outcome is exit are vacant afterwards (R25). -/
def BundleEnds : Prop :=
  (∀ (s : State) (i : Issue) x g (b : Bundle), s.cur = some i → s.wave? i.wave = some x → Map.find? x.ctx.seqs i.seq = some g → g.parked = none →
    i.sret = false → i.wrsr = none → i.hold = .none → (∀ l < 32, Map.find? i.outs l ≠ some none) → (∀ p ∈ x.ctx.join, Awaits x.ctx p.2) →
    g.mask &&& ~~~x.ctx.vac ≠ 0 → (x.ctx.seqs.Pairwise fun p q => p.1 < q.1) →
    let w := i.wave
    let next := i.cap.addr + BitVec.ofNat 64 i.cap.len
    let lp := loopsAfter i.cap.addr g.loops
    let loops := match i.push with | some v => v :: lp.1 | none => lp.1
    let through := i.skip.getD (lp.2.1.getD next)
    let out (l : Nat) : Dword × Nat := match Map.find? i.outs l with | some (some o) => o | _ => (through, 0)
    let live := (List.range 32).filter fun l => g.mask.getLsbD l && !x.ctx.vac.getLsbD l
    let lanes (o : Dword × Nat) : List Nat := live.filter fun l => out l == o
    let has (f : Seq) (o : Dword × Nat) : Prop := f.pc = o.1 ∧ f.loops = (if o.2 = 0 then loops else g.loops.drop o.2) ∧ f.parked = none ∧ f.part = none ∧
      f.fetch = .need ∧ f.safe = lp.2.2 ∧ ∀ l < 32, f.mask.getLsbD l = true ↔ l ∈ lanes o
    let barrier := ∃ v, some v ∈ b.moves ∧ v.unit? = some .ct ∧ 8 ≤ v.f.op ∧ v.f.op ≤ 10
    ∃ (u : State) (y : Wave) (o : Dword × Nat) (f : Seq), (barrier → s.control b = u.barTests x.team) ∧ (¬barrier → s.control b = u) ∧
      s.OnlyWave u w ∧ u.wave? w = some y ∧ y = { x with ctx := y.ctx } ∧ y.ctx = { x.ctx with seqs := y.ctx.seqs, spill := y.ctx.spill, join := y.ctx.join } ∧
      lanes o ≠ [] ∧ Map.find? y.ctx.seqs i.seq = some f ∧ has f o ∧ f.hold = g.hold ∧
      f.due = s.now + (if o.1 = next ∨ (lp.2.1 = some o.1 ∧ i.skip = none) then 1 else 4) ∧
      (∀ p, p ≠ o → lanes p = [] ∨ (lanes p).length < (lanes o).length ∨
        ((lanes p).length = (lanes o).length ∧ (lanes o).headD 0 < (lanes p).headD 0)) ∧
      let others := ((live.map out).eraseDups).filter (· != o)
      let free := (List.range 8).filter fun k => (Map.find? x.ctx.seqs k).isNone
      (∀ n p, others[n]? = some p → n < free.length → ∃ e, Map.find? y.ctx.seqs (free.getD n 0) = some e ∧ has e p ∧ e.hold = .none ∧ e.due = s.now + 4) ∧
      (∀ p, others = [p] → free = [] →
        (∀ k, (List.range 24).find? (fun n => (Map.find? x.ctx.spill n).isNone) = some k →
          ((∀ e ∈ x.ctx.seqs, e.2.parked = none) → ∃ e, Map.find? y.ctx.spill k = some e ∧ has e p ∧ e.hold = .none ∧ e.due = s.now + 4 ∧ e.stamp = s.now) ∧
          ∀ j r, (j, r) ∈ x.ctx.seqs → r.parked.isSome = true → (∀ q ∈ x.ctx.seqs, q.2.parked.isSome = true → q.1 ≠ j → r.stamp < q.2.stamp) →
            Map.find? y.ctx.spill k = some r ∧ ∃ e, Map.find? y.ctx.seqs j = some e ∧ has e p ∧ e.hold = .none ∧ e.due = s.now + 20)) ∧
      ∀ k, Map.find? y.ctx.join k = (if others ≠ [] ∧ k = b.head.jtok.val then
          some (match Map.find? x.ctx.join k with | some j => { j with expect := j.expect ||| g.mask } | none => { expect := g.mask, arrived := 0 })
        else Map.find? x.ctx.join k).map fun j => { j with expect := j.expect &&& ~~~x.ctx.vac }) ∧
  ∀ (s : State) (i : Issue) x (b : Bundle), s.cur = some i → s.wave? i.wave = some x → i.sret = false → i.wrsr = none →
    let gone := maskWhere fun l => decide (Map.find? i.outs l = some none)
    x.ctx.vac ||| gone ≠ BitVec.allOnes 32 → ∃ y, (s.control b).wave? i.wave = some y ∧ y.ctx.vac = x.ctx.vac ||| gone

/-- A fragment parks at a bundle of its token where the table expects one of its lanes, and nowhere else; once every expected lane that is not vacant has arrived,
the fragments parked there become one, in the lowest of their sequencers, with the loop stack of the one that holds the lowest lane; where their stacks differ, STACK
is pending for it (R30, R31, R358). -/
def FragmentsMeet : Prop :=
  (∀ (s : State) w q x g b, s.wave? w = some x → Map.find? x.ctx.seqs q = some g → s.waveRuns x = true → s.atHand g = true → g.part = none →
    x.ctx.within g.hold = true → s.stoppedAtSafe x w g = false → s.nextBundle w g = .bundle b → ∀ tok,
    (s.parksAt w q = some tok ↔ b.head.rcv = true ∧ tok = b.head.rtok.val ∧ ∃ j, Map.find? x.ctx.join tok = some j ∧ g.mask &&& j.expect ≠ 0)) ∧
  ∀ (s : State) w q x g tok j, s.ev = [w, q, 0] → s.wave? w = some x → Map.find? x.ctx.seqs q = some g → s.parksAt w q = some tok →
    Map.find? x.ctx.join tok = some j → g.mask &&& ~~~x.ctx.vac ≠ 0 → (∀ t ∈ x.traps, t.cause ≠ 0x11) →
    (x.ctx.seqs.Pairwise fun p q => p.1 < q.1) → (x.ctx.spill.Pairwise fun p q => p.1 < q.1) →
    (∀ k e, k ≠ tok → Map.find? x.ctx.join k = some e → Awaits x.ctx e) →
    let i := { j with arrived := j.arrived ||| g.mask }
    (Awaits x.ctx i → ∃ t y, exec .bundleIssue s = .next t ∧ s.OnlyWave t w ∧ t.wave? w = some y ∧ y = { x with ctx := y.ctx } ∧
      y.ctx = { x.ctx with seqs := y.ctx.seqs, join := y.ctx.join } ∧
      Map.find? y.ctx.seqs q = some { g with parked := some tok, stamp := s.now, reenter := false } ∧ (∀ k, k ≠ q → Map.find? y.ctx.seqs k = Map.find? x.ctx.seqs k) ∧
      Map.find? y.ctx.join tok = some i ∧ ∀ k, k ≠ tok → Map.find? y.ctx.join k = Map.find? x.ctx.join k) ∧
    (¬Awaits x.ctx i →
      let here (f : Seq) : Prop := f.parked = some tok ∧ f.kept = false
      let parked (f : Seq) : Prop := (∃ k, k ≠ q ∧ Map.find? x.ctx.seqs k = some f ∧ here f) ∨ ∃ k, Map.find? x.ctx.spill k = some f ∧ here f
      let gone (k : Nat) : Prop := k = q ∨ ∃ f, Map.find? x.ctx.seqs k = some f ∧ here f
      ∃ (t : State) (y : Wave) (m : Seq) (n : Nat), exec .bundleIssue s = .next t ∧ s.OnlyWave t w ∧ t.wave? w = some y ∧ y = { x with ctx := y.ctx, traps := y.traps } ∧
        y.ctx = { x.ctx with seqs := y.ctx.seqs, spill := y.ctx.spill, join := y.ctx.join } ∧
        gone n ∧ (∀ k, gone k → n ≤ k) ∧ Map.find? y.ctx.seqs n = some m ∧ (∀ k, k ≠ n → gone k → Map.find? y.ctx.seqs k = none) ∧
        (∀ k, k ≠ n → ¬gone k → Map.find? y.ctx.seqs k = Map.find? x.ctx.seqs k) ∧
        (∀ k f, Map.find? x.ctx.spill k = some f → (here f → Map.find? y.ctx.spill k = none) ∧ (¬here f → Map.find? y.ctx.spill k = some f)) ∧
        (∀ l < 32, m.mask.getLsbD l = true ↔ x.ctx.vac.getLsbD l = false ∧ (g.mask.getLsbD l = true ∨ ∃ f, parked f ∧ f.mask.getLsbD l = true)) ∧
        m.parked = none ∧ m.part = none ∧ m.hold = .none ∧ m.fetch = .ready ∧ m.due = s.now + 1 ∧
        (∃ f l, (f = g ∨ parked f) ∧ l < 32 ∧ m.mask.getLsbD l = true ∧ (∀ r < l, m.mask.getLsbD r = false) ∧ f.mask.getLsbD l = true ∧ m.pc = f.pc ∧ m.loops = f.loops) ∧
        (let uneven := ∃ e f, (e = g ∨ parked e) ∧ (f = g ∨ parked f) ∧ e.loops ≠ f.loops
         (¬uneven → m.stacked = false ∧ y.traps = x.traps) ∧
         (uneven → m.stacked = true ∧ y.traps = x.traps ++ [{ cause := 0x11, slot := 0, mask := m.mask, info := 0, pc := some m.pc }])) ∧
        Map.find? y.ctx.join tok = none ∧ ∀ k, k ≠ tok → Map.find? y.ctx.join k = Map.find? x.ctx.join k)

/-- A pop of the header at bundle end: a latch that is not bound, is stale, or held no record at the bundle's start stays; another is shifted by the records
that its mode and the fragment's ranked lanes give, and the pop is sent to the queue's controller, where it is a queue operation of the wave (R22, R218, R219). -/
def PopsAtBundleEnd : Prop :=
  (∀ (s : State) w cap h, s.popHeads w cap h = (List.range 4).foldl (fun s k => if h.pop.val / 2 ^ k % 2 = 1 then State.popHead s w k cap else s) s) ∧
  ∀ (s : State) w q cap x, s.wave? w = some x →
    let h := x.ctx.head q
    let held := cap.avail.getD q 0
    let n := if h.spread then min held ((List.range 32).countP fun l => cap.mask.getLsbD l && !x.ctx.vac.getLsbD l) else min held 1
    (h.bound = false ∨ h.stale = true ∨ n = 0 → s.popHead w q cap = s) ∧
    (h.bound = true → h.stale = false → n ≠ 0 → ∃ t y o, s.popHead w q cap = t ∧ s.SameMemory t ∧ (∀ v, v ≠ w → t.wave? v = s.wave? v) ∧ t.wave? w = some y ∧
      y = { x with ctx := y.ctx, nextOp := x.nextOp + 1, quOut := x.quOut ++ [x.nextOp] } ∧ y.ctx = { x.ctx with heads := y.ctx.heads } ∧
      (∀ j, y.ctx.head j = if j = q then { h with recs := h.recs.drop n, pos := h.pos + BitVec.ofNat 32 n } else x.ctx.head j) ∧
      Map.find? t.qops s.nextId = some o ∧ o.kind = .pop ∧ o.handle = h.handle ∧ o.part = x.part ∧ o.count = n ∧ o.wave = some w ∧ o.op = x.nextOp ∧
      t.Due (s.now + (30 + 180 * ringDist (dieOf w) (h.handle.toNat / 2 ^ 32 % 4))) .queueControllerOp [s.nextId, 0])

/-- The fetch of a fragment's next bundle: a page that is not at hand is asked of the die TLB, 24 cycles, from the cycle in which the bundle could issue; a
page that another handler owns, or whose bias is changing, holds the fetch; one that gives no right to run it has the cause noted; otherwise the bundle is ready
where the instruction cache holds its lines, and waits for those that it lacks. The die TLB's page enters the core TLB, or a walk begins; a line that has come
enters the instruction cache, and the fragments that have waited for it alone are ready (R46, R61, R318, R322, R324, R331, R334). -/
def FetchGoesOn : Prop :=
  (∀ (s : State) w q x g, s.ev = [w, q] → s.wave? w = some x → Map.find? x.ctx.seqs q = some g → g.fetch = .need →
    let va := g.pc.toNat
    let left (t : State) (f : Seq) : Prop := exec .bundleFetch s = .next t ∧ s.SameMemory t ∧ (∀ v, v ≠ w → t.wave? v = s.wave? v) ∧
      ∃ y, t.wave? w = some y ∧ Map.find? y.ctx.seqs q = some f
    (s.instLook w [] va = none → ∃ t, left t { g with fetch := .look } ∧ (s.now < g.due → t.Due g.due .bundleFetch [w, q]) ∧
      (g.due ≤ s.now → t.Due (s.now + 24) .bundleFetch [w, q, 1, va / 2 ^ 16])) ∧
    (∀ o, s.instLook w [] va = some o → (∀ p, o = .page p → p.flip = true ∨ p.runs x.ctx.sup = false) →
      let waits := o = .claimed ∨ ∃ p, o = .page p ∧ p.flip = true
      (waits → ∃ t, left t { g with pages := [(va / 2 ^ 16, o)], fetch := .held }) ∧
      (¬waits → ∃ t, left t { g with pages := [(va / 2 ^ 16, o)], fetch := .bad (match o with | .page _ => 5 | .fault => 3 | _ => 4) g.pc })) ∧
    ∀ p, s.instLook w [] va = some (.page p) → p.flip = false → p.runs x.ctx.sup = true →
      let h := s.read (p.addr va) 4
      let n := if headerOk h then headerWords h else 1
      va % 2 ^ 16 + 4 * n ≤ 2 ^ 16 →
      let line (k : Nat) : Nat := p.addr (va + 4 * k) / 128
      let has (k : Nat) : Prop := line k ∈ Map.get [] (s.core (coreOf w)).ic (line k % 128)
      let found (f : Fetch) : Seq := { g with pages := [(va / 2 ^ 16, .page p)], fetch := f }
      ((∀ k < n, has k) → ∃ t, left t (found .ready)) ∧
      ((∃ k < n, ¬has k) → s.now < g.due → ∃ t, left t (found .look) ∧ t.Due g.due .bundleFetch [w, q]) ∧
      ((∃ k < n, ¬has k) → g.due ≤ s.now → ∃ t ls, left t (found (.busy ls)) ∧ (∀ r, r ∈ ls ↔ ∃ k < n, r = line k ∧ ¬has k) ∧
        ∀ r ∈ ls, r ∈ (t.core (coreOf w)).icDue)) ∧
  (∀ (s : State) w q vpn x g, s.ev = [w, q, 1, vpn] → s.wave? w = some x → Map.find? x.ctx.seqs q = some g →
    ((s.die (dieOf w)).tlbFind x.part (vpn * 2 ^ 16) = none → ∃ t k, exec .bundleFetch s = .next t ∧ s.SameMemory t ∧ t.waves = s.waves ∧
      Map.find? t.walks s.nextId = some k ∧ k.die = dieOf w ∧ k.part = x.part ∧ k.va = vpn * 2 ^ 16 ∧ k.use = .fetch w q) ∧
    ∀ p d, (s.die (dieOf w)).tlbFind x.part (vpn * 2 ^ 16) = some (p, d) →
      let o := s.pageAt p (vpn * 2 ^ 16)
      ∃ u y e, exec .bundleFetch s = .next (u.bundleFetch w q) ∧ s.SameMemory u ∧ u.die (dieOf w) = d ∧ u.wave? w = some y ∧ Map.find? y.ctx.seqs q = some e ∧
        e = { g with pages := (vpn, o) :: g.pages.filter (·.1 != vpn) } ∧ ∀ r, o = .page r → r ∈ (u.core (coreOf w)).tlb) ∧
  ∀ (s : State) core line, s.ev = [4, core, line] → ∃ t, exec .walkComplete s = .next t ∧ s.SameMemory t ∧
    line ∈ Map.get [] (t.core core).ic (line % 128) ∧ line ∉ (t.core core).icDue ∧
    ∀ w x q g ls, s.wave? w = some x → coreOf w = core → Map.find? x.ctx.seqs q = some g → g.fetch = .busy ls → ∃ y e, t.wave? w = some y ∧
      Map.find? y.ctx.seqs q = some e ∧ (line ∉ ls → e = g) ∧ (line ∈ ls → (∀ r ∈ ls, r = line) → e = { g with fetch := .ready }) ∧
      (line ∈ ls → (∃ r ∈ ls, r ≠ line) → e = { g with fetch := .busy (ls.filter (· != line)) })

/-- Translation: a page that the die TLB holds is told to the held bundle and enters the core TLB, while another is walked; an entry of a walk that has been
read is followed by the next, and after the last the page enters the die TLB and the core TLB, a POOL entry that none has claimed is claimed for the wave that waits, by
setting its claim bit, or the bundle learns of the fault; a killed wave's claim is taken back. A read that has reached its line's home is served by the
holder, sent to the drawer, or turned away; and a task of the device goes on when the last of its lines has come (R267, R310, R318, R322 to R325, R331, R472). -/
def WalksEnd : Prop :=
  (∀ (s : State) w q vpn x g h, s.ev = [w, q, vpn] → s.wave? w = some x → Map.find? x.ctx.seqs q = some g → g.part = some h →
    let knows (t : State) (o : Xlate) : Prop := ∃ y e p, t.wave? w = some y ∧ Map.find? y.ctx.seqs q = some e ∧ e.part = some p ∧
      p = { h with pages := (vpn, o) :: h.pages.filter (·.1 != vpn), look := h.look.filter (· != vpn), due := max h.due s.now }
    ((s.die (dieOf w)).tlbFind x.part (vpn * 2 ^ 16) = none → ∃ t k, exec .dieTlbLookup s = .next t ∧ s.SameMemory t ∧ t.waves = s.waves ∧
      Map.find? t.walks s.nextId = some k ∧ k.die = dieOf w ∧ k.part = x.part ∧ k.va = vpn * 2 ^ 16 ∧ k.use = .bundle w q) ∧
    ∀ p d, (s.die (dieOf w)).tlbFind x.part (vpn * 2 ^ 16) = some (p, d) → ∃ t, exec .dieTlbLookup s = .next t ∧ s.SameMemory t ∧ t.die (dieOf w) = d ∧
      knows t (s.pageAt p (vpn * 2 ^ 16)) ∧ ∀ r, s.pageAt p (vpn * 2 ^ 16) = .page r → r ∈ (t.core (coreOf w)).tlb) ∧
  (∀ (s : State) id k w q x g h, s.ev = [0, id] → Map.find? s.walks id = some k → k.use = .bundle w q → s.wave? w = some x → Map.find? x.ctx.seqs q = some g →
    g.part = some h →
    let r := s.walk k.part k.va
    let vpn := k.va / 2 ^ 16
    let leaf := r.reads.getLast?.getD 0
    let knows (t : State) (o : Xlate) : Prop := ∃ y e p, t.wave? w = some y ∧ Map.find? y.ctx.seqs q = some e ∧ e.part = some p ∧
      p = { h with pages := (vpn, o) :: h.pages.filter (·.1 != vpn), look := h.look.filter (· != vpn), due := max h.due s.now }
    let ends (t : State) (o : Xlate) : Prop := exec .walkComplete s = .next t ∧ Map.find? t.walks id = none ∧ knows t o
    (∀ a, r.reads[k.step + 1]? = some a → (s.scratchAt a = none → a < 2 ^ 51 → (s.line (a / 128)).holder = some k.die → (s.line (a / 128)).fetching = none →
        ∃ t, exec .walkComplete s = .next t ∧ s.SameMemory t ∧ t.waves = s.waves ∧ Map.find? t.walks id = some { k with step := k.step + 1 } ∧
          t.Due (s.now + 96) .walkComplete [0, id])) ∧
    (r.reads.length ≤ k.step + 1 →
      (∀ p, r.out = .page p → ∃ t, ends t (.page p) ∧ s.SameMemory t ∧ p ∈ (t.core (coreOf w)).tlb ∧
        p ∈ Map.get [] (t.die k.die).tlb (if p.big then p.vpn / 2 ^ 13 % 512 else p.vpn % 512)) ∧
      (r.out = .fault → ∃ t, ends t .fault ∧ s.SameMemory t) ∧
      (r.out = .claimed → vpn ∈ h.look → ∃ t, ends t (if x.claims.any (·.1 == leaf) then .pool else .claimed) ∧ s.SameMemory t) ∧
      (r.out = .pool → vpn ∈ h.look → x.win = none → (s.scratchAt (128 * (leaf / 128))).isNone = true → (∀ j < 8, s.scratchAt (leaf + j) = none) →
        Writable s k.die (leaf / 128) (decide (2 ^ 51 ≤ leaf)) w → ∃ t, ends t .pool ∧ (∃ y, t.wave? w = some y ∧ y.claims = x.claims ++ [(leaf, vpn)]) ∧
          t.read leaf 8 = s.read leaf 8 ||| 4096 ∧ (∀ b, b < leaf ∨ leaf + 8 ≤ b → Memory.read t.mem b = Memory.read s.mem b) ∧
          ∀ j b, t.scrByte j b = s.scrByte j b))) ∧
  (∀ (s : State) q part a vpn, s.ev = [6, q, part, a, vpn] →
    let e := s.read a 8
    let claimed := e % 2 = 1 ∧ e / 2 % 4 = 2 ∧ e / 2 ^ 12 % 2 = 1
    (¬claimed → exec .walkComplete s = .next s) ∧
    (claimed → vpn < 2 ^ 48 → (s.scratchAt (128 * (a / 128))).isNone = true → (∀ j < 8, s.scratchAt (a + j) = none) → (s.line (a / 128)).watch = [] →
      (∀ w, Writable s q (a / 128) (decide (2 ^ 51 ≤ a)) w) → ∃ t, exec .walkComplete s = .next t ∧ t.read a 8 = e - 4096 ∧
        (∀ b, b < a ∨ a + 8 ≤ b → Memory.read t.mem b = Memory.read s.mem b) ∧ (∀ p, p ∈ Map.get [] (t.die q).tlb (vpn % 512) → p.part = part → p.vpn ≠ vpn))) ∧
  (∀ (s : State) q pa coh h more, s.ev = 1 :: q :: pa :: coh :: h :: more → more.head? ≠ some 5 →
    (s.home h pa ≠ h → exec .walkComplete s = .next (s.after (180 * ringDist h q) .homeOffline ([3, h, q, pa, coh] ++ more))) ∧
    (s.home h pa = h → (s.line (pa / 128)).fetching = none →
      (∀ d, (s.line (pa / 128)).holder = some d → ∃ t, exec .walkComplete s = .next t ∧ s.SameMemory t ∧ t.waves = s.waves ∧
        t.Due (s.now + (96 + 180 * (ringDist q h + ringDist h d + ringDist d q) - 180 * ringDist q h)) .walkComplete more) ∧
      ((s.line (pa / 128)).holder = none → ∃ t r, exec .walkComplete s = .next t ∧ s.SameMemory t ∧ t.waves = s.waves ∧ Map.find? t.reqs s.nextId = some r ∧
        r.line = pa / 128 ∧ r.write = false ∧ r.waiters = [.read true q more] ∧ (t.line (pa / 128)).fetching = some s.nextId ∧
        t.Due (s.now + (80 + 360 * ringDist q h - 180 * ringDist q h)) .drawerRequest [s.nextId]))) ∧
  ∀ (s : State) id k, s.ev = [2, id] → Map.find? s.tasks id = some k → ∃ t, exec .walkComplete s = .next t ∧ s.SameMemory t ∧ t.waves = s.waves ∧
    (k.left ≤ 1 → Map.find? t.tasks id = none ∧ t.Due s.now k.go (k.args ++ [k.first.getD s.now])) ∧
    (1 < k.left → Map.find? t.tasks id = some { k with left := k.left - 1, first := some (k.first.getD s.now) })

/-- Translation and fragments: the reads and walks of the device (WALK_COMPLETE, DIE_TLB_LOOKUP), the fetch of a bundle (BUNDLE_FETCH), what happens to
fragments, loops, the join table and head latches at a bundle's end and where a fragment parks (BUNDLE_ISSUE), a pending trap, which is taken at the next
bundle, its sources captured, and a spilled fragment, which enters a free sequencer, or changes places after 1,024 cycles (R29 to R32, R46, R181, R190, R218,
R219, R322, R324, R331, R358). Log entries 10, 11, 15, 16, 53, 56, 57, 92, 93, 105, 113: the model's own readings in it. -/
def Obligations.FragmentEvents : Prop :=
  WalksEnd ∧ FetchGoesOn ∧ BundleEnds ∧ FragmentsMeet ∧ PopsAtBundleEnd ∧
  (∀ (s : State) w q x g b tr rest, s.ev = [w, q] → s.wave? w = some x → Map.find? x.ctx.seqs q = some g → x.traps = tr :: rest →
    s.nextBundle w g = .bundle b →
    let restarts : Prop := tr.cause = 9 ∧ x.ctx.regn = true ∧ x.ctx.sup = false ∧ x.region.isSome = true
    (x.win.isSome = true → ¬restarts → exec .bundleDeliveredTrap s = .next (s.rollback w 2)) ∧
    (x.win = none ∨ restarts → ∃ (u : State) (y : Wave), u = { s with waves := u.waves, cores := u.cores, teams := u.teams, launches := u.launches } ∧
      (∀ j, j ≠ w → u.wave? j = s.wave? j) ∧ u.wave? w = some y ∧ y.traps = rest ∧
      y.tstate = x.tstate ∧ exec .bundleDeliveredTrap s = .next (u.takeTrap w q
        { tr with slot := 0, mask := if tr.mask = 0 then g.mask &&& ~~~x.ctx.vac else tr.mask, pc := none } g.pc
        (some (match g.part with | some p => p.filledCap b | none => s.captureOf w q x g b))))) ∧
  ∀ (s : State) w x k g, s.ev = [w] → s.wave? w = some x → Map.find? x.ctx.spill k = some g → x.ctx.spill = [(k, g)] → g.parked = none →
    let filled : Seq := { g with due := max g.due s.now + 16, stamp := s.now }
    (∀ i, x.ctx.freeSeq = some i → ∃ t y, exec .sequencerFill s = .next t ∧ s.OnlyWave t w ∧ t.wave? w = some y ∧ y.ctx.spill = [] ∧
      Map.find? y.ctx.seqs i = some filled ∧ ∀ j, j ≠ i → Map.find? y.ctx.seqs j = Map.find? x.ctx.seqs j) ∧
    (∀ i f, x.ctx.seqs = [(i, f)] → f.parked = none → f.part = none →
      (s.now < g.stamp + 1024 → ∃ t, exec .spillTimeout s = .next t ∧ t.wave? w = some x) ∧
      (g.stamp + 1024 ≤ s.now → ∃ t y, exec .spillTimeout s = .next t ∧ s.OnlyWave t w ∧ t.wave? w = some y ∧
        Map.find? y.ctx.seqs i = some filled ∧ Map.find? y.ctx.spill k = some { f.anew with stamp := s.now }))

/-! The events of the matrix engine and of the clover's manager (10_matrix_operations.md, 15_traps_preemption_reliability.md). -/

/-- `t` is `s` but that TLC of the operation's wave, if it has one, is one lower, and the operation `id` of clover `c` is gone (R248). -/
def OperationOver (s t : State) (c id : Nat) (o : MxOp) : Prop :=
  Map.find? (t.clover c).ops id = none ∧ (∀ j, j ≠ id → Map.find? (t.clover c).ops j = Map.find? (s.clover c).ops j) ∧
    ∀ w x, o.wave = some w → s.wave? w = some x → ∃ y, t.wave? w = some y ∧ y.ctx.tlc = x.ctx.tlc - 1

/-- The baton goes to the request of the highest priority, then to the earliest, whose mx.st becomes 0 and ready, and the watchdog of MAXPASS starts; a request
rises by one priority when it has aged; a release frees the baton and zeroes the accumulators; mma writes its words into its accumulator when it completes, ret
four registers in each of sixteen cycles, an epilogue chunk its stores. The manager: messages take free slots, CMACK frees one, CMACT holds what was written, RESUME lets a stopped wave go on, KILLWAVE
and KILLTEAM kill, the watchdog revokes the baton and ends the pass of its holder, which it kills or stops, and a barrier's time-out stops the team (R192, R234 to R237, R248, R249, R254, R364, R365, R376, R377). Log entries 6, 21, 34, 71: the model's own readings in it. -/
def Obligations.MatrixAndManagerEvents : Prop :=
  (∀ (s : State) c r x, s.ev = [c] → (s.clover c).baton = none → (s.clover c).waiting = [] → r ∈ (s.clover c).table →
    (∀ q ∈ (s.clover c).table, q ≠ r → q.prio < r.prio ∨ (q.prio = r.prio ∧ r.entered < q.entered)) → s.wave? r.wave = some x →
    let limit := ((s.launch? x.launch).map fun l => l.lrec.maxpass).getD (2 ^ 24)
    ∃ t y, exec .batonGrant s = .next t ∧ (t.clover c).baton = some (r.wave, x.launch, s.now) ∧ (t.clover c).granting = false ∧
      (∀ q, q ∈ (t.clover c).table ↔ q ∈ (s.clover c).table ∧ q ≠ r) ∧ t.Due (s.now + (limit + 1)) .watchdog [c, s.now] ∧ t.wave? r.wave = some y ∧
      ∀ l < 32, r.lanes.getLsbD l = true → Map.get 0 x.ctx.last (32 * unitCode .mx + l) = r.op →
        y.ctx.reg (portVec .mx .st) l = 0 ∧ (Map.get 0 y.ctx.busy (portVec .mx .st)).getLsbD l = false) ∧
  (∀ (s : State) c r, s.ev = [c, r.wave, r.since] → r ∈ (s.clover c).table → r.prio < 3 → (∀ q ∈ (s.clover c).table, q.wave = r.wave → q = r) →
    ∃ t, exec .agingPromotion s = .next t ∧ s.SameMemory t ∧ t.waves = s.waves ∧
      (∀ q, q ∈ (t.clover c).table ↔ q = { r with prio := r.prio + 1, since := s.now } ∨ (q ∈ (s.clover c).table ∧ q ≠ r)) ∧
      (r.prio < 2 → t.Due (s.now + 65536) .agingPromotion [c, r.wave, s.now])) ∧
  (∀ (s : State) c, s.ev = [c] → ((s.clover c).releasing = false → exec .batonRelease s = .next s) ∧
    ((s.clover c).releasing = true → ∃ t, exec .batonRelease s = .next t ∧ t = { s with clovers := t.clovers, agenda := t.agenda } ∧
      (t.clover c).baton = none ∧ (t.clover c).releasing = false ∧ (∀ i, Map.get 0 (t.clover c).acc i = 0) ∧ (t.clover c).live = [] ∧
      (t.clover c).abft = (s.clover c).abft ∧ (t.clover c).bstore = (s.clover c).bstore ∧ (t.clover c).table = (s.clover c).table ∧
      ((s.clover c).table ≠ [] → t.Due (s.now + 4) .batonGrant [c]) ∧ ∀ d, d ≠ c → t.clover d = s.clover d)) ∧
  (∀ (s : State) c id o, s.ev = [c, id] → Map.find? (s.clover c).ops id = some o → (o.vals.Pairwise fun p q => p.1 < q.1) →
    ∃ t, exec .mmaComplete s = .next t ∧ OperationOver s t c id o ∧ s.SameMemory t ∧
      (∀ p ∈ o.vals, Map.get 0 (t.clover c).acc (2048 * o.acc + p.1) = p.2) ∧
      ∀ j, (∀ p ∈ o.vals, j ≠ 2048 * o.acc + p.1) → Map.get 0 (t.clover c).acc j = Map.get 0 (s.clover c).acc j) ∧
  (∀ (s : State) c id q o, s.ev = [c, id, q] → Map.find? (s.clover c).ops id = some o → ∃ t, exec .retComplete s = .next t ∧ s.SameMemory t ∧
    (16 ≤ q → OperationOver s t c id o) ∧
    (q < 16 → t.clover c = s.clover c ∧ t.Due (s.now + 1) .retComplete [c, id, q + 1] ∧
      ∀ w x, o.wave = some w → s.wave? w = some x → s.OnlyWaveAndAgenda t w ∧ ∃ y, t.wave? w = some y ∧ y.ctx = { x.ctx with vec := y.ctx.vec } ∧
        (∀ e < 4, ∀ l < 32, o.lanes.getLsbD l = true → y.ctx.reg (o.base + 4 * q + e) l = Map.get 0 o.vals (64 * l + 4 * q + e)) ∧
        ∀ v l, l < 32 → (o.lanes.getLsbD l = false ∨ v < o.base + 4 * q ∨ o.base + 4 * q + 4 ≤ v) → y.ctx.reg v l = x.ctx.reg v l)) ∧
  (∀ (s : State) c id k o f, s.ev = [c, id, k] → k < 4 → Map.find? (s.clover c).ops id = some o → s.cmd? o.cmd = some f →
    (o.status ≠ 0 → exec .epiChunk s = .next s) ∧
    (o.status = 0 → o.check = none →
      let runs := (o.chunkBytes k).1.flatMap fun (p : Nat × List (BitVec 8)) => cutLines 64 (vaAdd f.dst.toNat p.1) p.2
      let found := ∀ p ∈ runs, (f.page p.1).isSome = true ∧ ∀ g, s.cmdXlate f p.1 = .page g → g.flip = false
      (∀ p ∈ runs, (f.page p.1).isNone = true → canonical (BitVec.ofNat 64 (p.1 / 2 ^ 16 * 2 ^ 16)) = true →
        (s.die f.die).tlbFind f.part (p.1 / 2 ^ 16 * 2 ^ 16) = none → ∃ t j k', exec .epiChunk s = .next t ∧ s.SameMemory t ∧ t.clovers = s.clovers ∧ t.waves = s.waves ∧
          Map.find? t.tasks j = some k' ∧ k'.go = .epiChunk ∧ k'.args = [c, id, k, 1]) ∧
      (∀ cause va, found → s.chunkFault f runs = some (cause, va) → ∃ t g e, exec .epiChunk s = .next t ∧ s.SameMemory t ∧ Map.find? (t.clover c).ops id = some g ∧
        g = { o with status := 1 } ∧ t.cmd? o.cmd = some e ∧ e = { f with detail := cause, fault := BitVec.ofNat 64 va } ∧ t.Due s.now .epiChunk [c, id, 4]) ∧
      (found → s.chunkFault f runs = none → ∃ t g e, exec .epiChunk s = .next t ∧ s.SameMemory t ∧ Map.find? (t.clover c).ops id = some g ∧
        g = { o with ovf := o.ovf + (o.chunkBytes k).2, chunks := k + 1, parts := o.parts ++ [(o.chunkBytes k).2] } ∧ t.cmd? o.cmd = some e ∧ e = { f with out := f.out + runs.length } ∧
        (∀ p ∈ runs, t.Due s.now .engineLineTransfer [o.cmd, 4, k, 0, p.1, p.2.length, ofBytes p.2]) ∧
        (k < 3 → t.Due (s.now + 2) .epiChunk [c, id, k + 1])))) ∧
  (∀ (s : State) c id k o f, s.ev = [c, id, k] → 4 ≤ k → Map.find? (s.clover c).ops id = some o → s.cmd? o.cmd = some f → f.out = 0 →
    (o.chunks < 4 → o.status = 0 → f.code = 0 → exec .epiChunk s = .next s) ∧
    (4 ≤ o.chunks ∨ o.status ≠ 0 ∨ f.code ≠ 0 → ∃ t, exec .epiChunk s = .next t ∧ s.SameMemory t ∧ OperationOver s t c id o ∧ t.cmd? o.cmd = none)) ∧
  (∀ (s : State) c m, s.ev = [c] → (s.clover c).mailWait = [m] → ∃ t, exec .mailboxPost s = .next t ∧ t = { s with clovers := t.clovers } ∧
    (∀ n, (s.clover c).freeSlot m.core = some n → (t.clover c).mailWait = [] ∧ Map.find? (t.clover c).mail n = some m ∧
      ∀ j, j ≠ n → Map.find? (t.clover c).mail j = Map.find? (s.clover c).mail j) ∧
    ((s.clover c).freeSlot m.core = none → t.clover c = s.clover c)) ∧
  (∀ (s : State) c n, s.ev = [c, n] → (s.clover c).mailWait = [] → ∃ t, exec .cmack s = .next t ∧ t = { s with clovers := t.clovers } ∧
    ∀ j, Map.find? (t.clover c).mail j = if j = n then none else Map.find? (s.clover c).mail j) ∧
  (∀ (s : State) c core slot x, s.ev = [c, core, slot] →
    let w := (4 * c + core) * 16 + slot
    let wrote (act : Nat) : State := s.writeCmact c act core slot
    s.wave? w = some x →
    (∀ act, (wrote act).clover c = { s.clover c with cmact := BitVec.ofNat 64 (act + slot % 16 * 4 + core % 4 * 64) } ∧
      wrote act = { s with clovers := (wrote act).clovers } ∧ ∀ j, j ≠ c → (wrote act).clover j = s.clover j) ∧
    (x.stop ≠ .trapfail ∧ x.stop ≠ .timeout ∧ x.stop ≠ .watchdog →
      exec .resume s = .next (wrote 1) ∧ exec .killwave s = .next (wrote 2) ∧ exec .killteam s = .next (wrote 3)) ∧
    (x.stop = .trapfail → ∀ tr, x.trap = some tr → tr.saved.join = [] → ∃ t y, exec .resume s = .next t ∧ s.SameMemory t ∧
      (∀ j, j ≠ w → t.wave? j = s.wave? j) ∧ t.wave? w = some y ∧ y.stop = .running ∧ y.trap = none ∧ y.tstate = x.tstate &&& ~~~2048#32) ∧
    (x.stop = .timeout → ∀ tm i, s.team? x.team = some tm → (i, w) ∈ tm.slots → (∀ p ∈ tm.slots, p.2 = w → p = (i, w)) →
      ∃ t y v, exec .resume s = .next t ∧ t.wave? w = some y ∧ y.stop = .running ∧ t.team? x.team = some v ∧ v.timedOut = none ∧
        ∀ k, Map.find? v.timer k = if k = tm.timedOut.getD 0 then none else Map.find? tm.timer k) ∧
    (x.stop = .watchdog → exec .resume s = .next ((wrote 1).setWave w { x with stop := .running, ctx := { x.ctx with
      seqs := x.ctx.seqs.map fun p => (p.1, { p.2 with since := s.now }) } })) ∧
    (x.stop = .trapfail ∨ x.stop = .timeout ∨ x.stop = .watchdog → exec .killwave s = .next ((wrote 2).kill w) ∧
      ∀ tm, s.team? x.team = some tm → exec .killteam s = .next (tm.slots.foldl (fun u p => u.kill p.2) (wrote 3)))) ∧
  (∀ (s : State) w x, s.wave? w = some x → x.dead = false →
    (∀ a vpn, (a, vpn) ∈ x.claims → (s.kill w).Due s.now .walkComplete [6, dieOf w, x.part, a, vpn]) ∧ ((∃ p ∈ x.accs, p.2.open = true ∧ p.2.storing = true ∧ (x.win = none ∧ p.2.id < x.nextOp)) →
    ∃ y, (s.kill w).wave? w = some y ∧ y.dead = true ∧ y.stop = .killed ∧ y.ctx.vac = BitVec.allOnes 32 ∧ y.ctx.seqs = [] ∧ y.win = none ∧ y.trap = none ∧
      ∀ b g, (s.clover (cloverOf w)).baton = some (w, b, g) → ((s.kill w).clover (cloverOf w)).baton = none)) ∧
  (∀ (s : State) c g w b z, s.ev = [c, z] → (s.clover c).baton = some (w, b, g) → (g ≠ z → exec .watchdog s = .next s) ∧
    (g = z → ∃ m : Msg, (Config.watchdogKills = true → exec .watchdog s = .next ((s.postMsg c m).kill w)) ∧
      (Config.watchdogKills = false → ∃ t, exec .watchdog s = .next t ∧ (t.clover c).baton = none ∧ (∀ i, Map.get 0 (t.clover c).acc i = 0) ∧ (t.clover c).live = [] ∧
        m ∈ (t.clover c).mailWait ∧ ∀ x, s.wave? w = some x → t.wave? w = some { x with stop := .watchdog }) ∧ m.bytes.length = 32 ∧ m.bytes[0]? = some 3 ∧ m.bytes[2]? = some 0x14 ∧
      ∀ i < 8, m.bytes[24 + i]? = some (BitVec.ofNat 8 ((s.now - g) % 2 ^ 64 / 256 ^ i)))) ∧
  ∀ (s : State) id k stamp tm, s.ev = [id, k, stamp] → s.team? id = some tm →
    (tm.state ≠ .resident ∨ Map.find? tm.timing k ≠ some stamp → exec .barrierTimeout s = .next s) ∧
    (tm.state = .resident → Map.find? tm.timing k = some stamp → (s.launch? tm.launch).isSome = true → ∃ t, exec .barrierTimeout s = .next t ∧
      (∃ v, t.team? id = some v ∧ v.timedOut = some k ∧ Map.find? v.timing k = none) ∧
      (∀ p ∈ tm.slots, ∀ x, s.wave? p.2 = some x → x.stop = .running ∨ x.stop = .swapping → ∃ y, t.wave? p.2 = some y ∧ y.stop = .timeout) ∧
      ∀ i w r l, tm.slots = (i, w) :: r → tm.area = none → s.launch? tm.launch = some l → (s.part l.part).ctxlen = 0 →
        ∃ m ∈ (t.clover (cloverOf w)).mailWait, m.bytes[0]? = some 2 ∧ m.bytes[2]? = some 0x0D ∧ m.bytes.drop 24 = List.replicate 8 0)

/-! The events of links, of engines and of peer packages (09_queue_and_engine_operations.md, 13_memory_hierarchy_and_translation.md, 16_lumrax_link_and_drawer.md). -/

/-- The cycle that carries beat `b` of a link (R391), and the first of the frame boundaries from a cycle on (R384). -/
def beatOf (k : Link) (b : Nat) : Nat := k.t0 + (b - k.beat) / max 1 k.width
/-- The first swath that begins in a cycle or later. -/
def swathFrom (k : Link) (t : Nat) : Nat := (max 1 k.width * (t - k.t0) + k.beat + 39) / 40
def frameFrom (k : Link) (t : Nat) : Nat := beatOf k (40 * (256 * ((swathFrom k t + 255) / 256)))

/-- The swath-table entry `e` in force for swath `n`: the link's own, of the committed table from its frame on; where it is idle, that of a die in warm reset whose shares
serve the link (R383, R384, R417). -/
def LiveEntry (k : Link) (n : Nat) (e : Word) : Prop :=
  let own := Map.get 0x60#32 (if k.swstat = 1 ∧ k.commit ≤ n then k.shadow else k.table) (n % 256)
  if own.toNat / 2 ^ 5 % 4 ≠ 3 then e = own
  else (k.lent = [] ∧ e = own) ∨ ∃ d f t, k.lent = [(d, f, t)] ∧
    e = if f ≤ n ∧ (Map.get 0x60#32 t (n % 256)).toNat / 2 ^ 5 % 4 ≠ 3 then Map.get 0x60#32 t (n % 256) else own

/-- Entry `e` gives its swath to a partition's requests of one tier, bank group and direction (R383). -/
def Gives (e : Word) (part : Nat) (far : Bool) (group : Nat) (write : Bool) : Prop :=
  e.toNat % 16 = part ∧ (e.toNat / 2 ^ 4 % 2 = 1 ↔ far = true) ∧ e.toNat / 2 ^ 7 % 16 = group ∧
    (e.toNat / 2 ^ 5 % 4 = 0 ∨ e.toNat / 2 ^ 5 % 4 = if write then 2 else 1)

/-- The oldest request of one direction in a queue that entry `e` allows (R387). -/
def OldestAllowed (s : State) (q : List Nat) (e : Word) (write : Bool) (o : Option Nat) : Prop :=
  let fits (r : Req) : Prop := r.write = write ∧ Gives e r.part r.far r.group write
  (o = none ∧ ∀ id ∈ q, ∀ r, s.req? id = some r → ¬fits r) ∨
    ∃ pre id post r, q = pre ++ id :: post ∧ o = some id ∧ s.req? id = some r ∧ fits r ∧ ∀ j ∈ pre, ∀ x, s.req? j = some x → ¬fits x

/-- Inbound swath `n` of link `l` carries a line: the answer to a read sent, or a line taken from a write-back (R385, R387). -/
def LineComes (s : State) (l n : Nat) : Prop :=
  (∃ p ∈ (s.link l).sent, ∃ i ∈ p.2, ∃ q, s.req? i = some q ∧ q.write = false ∧ p.1 + (if q.far then 448 else 192) = n) ∨
    ∃ p ∈ s.reqs, p.2.link = some l ∧ p.2.back = some n

/-- Codeword `j` of a channel, 514 symbols of 10 bits from beat 0 on, covers one of the beats `a` to `b` of swath `n` (R398, log entry 115). -/
def CodewordMeets (j n a b : Nat) : Prop := 5140 * j / 32 ≤ 40 * n + b ∧ 40 * n + a ≤ (5140 * (j + 1) - 1) / 32

/-- Wavelength `i` of a link, outbound 0 to 7 and inbound 8 to 15, carries beats at its present width (R391, R401). -/
def Carrying (k : Link) (i : Nat) : Prop := i < 16 ∧ if k.width = 7 then i % 8 ≠ k.rtwl else i % 8 < k.width

/-- A wavelength crosses its channel's threshold: recorded with its cycle, once in a window, in the order of the cycles and outbound before inbound; at width 8 with
nothing in progress the drop to width 7 is due in the next cycle (R400). `u` is the link with the count that crosses. -/
def CrossingRecorded (s t : State) (l i : Nat) (u : Link) : Prop :=
  let v := t.link l
  v.crossed = i :: u.crossed ∧
    (u.crossings = [] → v.crossings = [(s.now, i / 8, i % 8)]) ∧
    (∀ c d w, u.crossings = [(c, d, w)] → v.crossings = if c < s.now ∨ d ≤ i / 8 then [(c, d, w), (s.now, i / 8, i % 8)] else [(s.now, i / 8, i % 8), (c, d, w)]) ∧
    (u.state = .run → u.width = 8 → u.retrainTill = none → v.retrainTill = some (s.now + 90001) ∧ t.Due (s.now + 1) .retrainStart [l, 16])

/-- What `SWCOMMIT` refuses: more than 52 far entries, a far entry without FEATACK bit 6, or a partition with a window in a tier for which some bank group has no swath that
may carry a read, or none that may carry a write (R384, R422). -/
def TableRefused (s : State) (l : Nat) : Prop :=
  let e (i : Nat) : Word := Map.get 0x60#32 (s.link l).shadow i
  let far (i : Nat) : Bool := decide ((e i).toNat / 2 ^ 4 % 2 = 1)
  let window (p : Nat) (t : Bool) : Prop := ∃ j < 8, (s.part p).windowBase j ≤ (s.part p).windowLim j ∧
    if t then 2 ^ 41 ≤ (s.part p).windowLim j + 65535 ∧ (s.part p).windowBase j < 2 ^ 41 + 6144 * 10 ^ 9 else (s.part p).windowBase j < 1024 * 10 ^ 9
  52 < ((List.range 256).filter far).length ∨ ((∃ i < 256, far i = true) ∧ s.featack.getLsbD 6 = false) ∨
    ∃ p < 16, ∃ t, window p t ∧ ∃ g < 16, ∃ w, ∀ i < 256, ¬Gives (e i) p t g w

/-- Requests at a link: one joins its bank group's queue, or the entry when 64 stand there; it comes back when its home has moved, and a read of a line with a write-back
pending is answered from it; the swath carries the oldest write and the oldest read that its entry allows, the write's bytes are in the drawer, and the answers come 192 or
448 swaths later; a line that has come is at its home 91 cycles later (R306, R310, R382, R383, R385 to R388, R390). -/
def RequestsAtTheLink : Prop :=
  (∀ (s : State) id r l, s.ev = [id] → s.req? id = some r → r.link = some l →
    let k := s.link l
    let q := Map.get [] k.queues r.group
    (s.home (l / 72) (128 * r.line) ≠ l / 72 → ∃ t, exec .drawerRequest s = .next t ∧ t = { s with agenda := t.agenda } ∧
      t.Due (s.now + 180 * ringDist (l / 72) r.die) .homeOffline [0, id]) ∧
    (s.home (l / 72) (128 * r.line) = l / 72 → r.write = true ∨ (∀ p ∈ s.reqs, p.1 ≠ id → p.2.write = true → p.2.line ≠ r.line) →
      ∃ t, exec .drawerRequest s = .next t ∧ t = { s with links := t.links, agenda := t.agenda, waves := t.waves } ∧ (k.state ≠ .down → t.waves = s.waves) ∧
        (∀ j, j ≠ l → t.link j = s.link j) ∧
        (q.length < 64 → Map.get [] (t.link l).queues r.group = q ++ [id] ∧ (t.link l).entry = k.entry) ∧
        (64 ≤ q.length → Map.get [] (t.link l).queues r.group = q ∧ (t.link l).entry = k.entry ++ [id]) ∧
        (k.up = true → beatOf k (40 * swathFrom k s.now) = s.now → k.next = swathFrom k s.now + 1 → t.Due s.now .outboundSwath [l])) ∧
    (∀ n, s.home (l / 72) (128 * r.line) = l / 72 → r.write = false → (∃ p ∈ s.reqs, p.1 ≠ id ∧ p.2.write = true ∧ p.2.line = r.line) → r.waiters = [] →
      swathFrom k s.now ≤ n → n < swathFrom k s.now + 1024 → ¬LineComes s l n → (∀ m, swathFrom k s.now ≤ m → m < n → LineComes s l m) →
      ∃ t, exec .drawerRequest s = .next t ∧ t = { s with reqs := t.reqs, agenda := t.agenda } ∧ t.req? id = some { r with back := some n } ∧
        t.Due (max s.now (beatOf k (40 * n + 39))) .inboundSwath [l, n, 2, id])) ∧
  (∀ (s : State) l e ow or_, s.ev = [l] →
    let k := s.link l
    let n := swathFrom k s.now
    let g := e.toNat / 2 ^ 7 % 16
    let q := Map.get [] k.queues g
    let ids := ow.toList ++ or_.toList
    let left := q.filter fun i => !ids.contains i
    (k.up = false ∨ n + 1 < k.next ∨ beatOf k (40 * n) ≠ s.now → exec .outboundSwath s = .next s) ∧
    (k.up = true → k.next ≤ n + 1 → beatOf k (40 * n) = s.now → (∀ p ∈ k.sent, p.1 ≠ n) → LiveEntry k n e → OldestAllowed s q e true ow → OldestAllowed s q e false or_ →
      (∀ p ∈ s.reqs, p.2.back = none ∧ ∀ w a i, .own w a i ∉ p.2.waiters) →
      ∃ t, exec .outboundSwath s = .next t ∧ t.mem = s.mem ∧
        (ids = [] → t = { s with agenda := t.agenda }) ∧
        (ids ≠ [] → (t.link l).sent = k.sent ++ [(n, ids)] ∧ (t.link l).next = n + 1) ∧
        (k.entry = [] → Map.get [] (t.link l).queues g = left) ∧
        (∀ i x, ids ≠ [] → k.entry = [i] → s.req? i = some x → x.group = g → left.length < 64 → Map.get [] (t.link l).queues g = left ++ [i] ∧ (t.link l).entry = []) ∧
        (∀ id r, ow = some id → s.req? id = some r → r.line < 2 ^ 45 → t.req? id = some { r with swath := some n, performed := true } ∧
          (∀ a, Memory.read t.drawer a = if r.performed = false ∧ 128 * r.line ≤ a ∧ a < 128 * r.line + r.bytes.length then r.bytes.getD (a - 128 * r.line) 0
            else Memory.read s.drawer a) ∧
          t.Due (max s.now (beatOf k (40 * (n + (if r.far then 448 else 192)) + 7))) .inboundSwath [l, n, 0]) ∧
        (ow = none → t.drawer = s.drawer) ∧
        ∀ id r, or_ = some id → s.req? id = some r → t.req? id = some { r with swath := some n } ∧
          t.Due (max s.now (beatOf k (40 * (n + (if r.far then 448 else 192)) + 39))) .inboundSwath [l, n, 1])) ∧
  (∀ (s : State) l n i r, s.ev = [l, n, 0] → (s.link l).sent = [(n, [i])] → s.req? i = some r → r.write = true → r.swath = some n → r.waiters = [] →
    let c := beatOf (s.link l) (40 * (n + (if r.far then 448 else 192)) + 7)
    (s.now < c → ∃ t, exec .inboundSwath s = .next t ∧ t = { s with agenda := t.agenda } ∧ t.Due c .inboundSwath [l, n, 0]) ∧
    (c ≤ s.now → ∃ t, exec .inboundSwath s = .next t ∧ t = { s with links := t.links, reqs := t.reqs } ∧ t.req? i = none ∧ (t.link l).sent = [])) ∧
  (∀ (s : State) l n i r, s.ev = [l, n, 1] → (s.link l).sent = [(n, [i])] → s.req? i = some r → r.write = false → r.swath = some n →
    let c := beatOf (s.link l) (40 * (n + (if r.far then 448 else 192)) + 39)
    (s.now < c → ∃ t, exec .inboundSwath s = .next t ∧ t = { s with agenda := t.agenda } ∧ t.Due c .inboundSwath [l, n, 1]) ∧
    (c ≤ s.now → ∃ t, exec .inboundSwath s = .next t ∧ t.Due (s.now + 91) .inboundSwath [l, n, 4, i] ∧ t.req? i = some { r with core := none } ∧ (t.link l).sent = [])) ∧
  (∀ (s : State) l n i r, s.ev = [l, n, 2, i] → s.req? i = some r →
    let c := beatOf (s.link l) (40 * n + 39)
    (r.back ≠ some n ∨ (s.link l).up = false → exec .inboundSwath s = .next s) ∧
    (r.back = some n → (s.link l).up = true → s.now < c → ∃ t, exec .inboundSwath s = .next t ∧ t = { s with agenda := t.agenda } ∧ t.Due c .inboundSwath [l, n, 2, i]) ∧
    (r.back = some n → (s.link l).up = true → c ≤ s.now → ∃ t, exec .inboundSwath s = .next t ∧ t.Due (s.now + 91) .inboundSwath [l, n, 4, i] ∧
      t.req? i = some { r with core := none, back := none })) ∧
  (∀ (s : State) l n i r, s.ev = [l, n, 4, i] → s.req? i = some r → r.waiters = [] → r.line < 2 ^ 45 →
    let d := (s.line r.line).holder.getD (s.home r.die (128 * r.line))
    ((s.line r.line).fetching ≠ some i → ∃ t, exec .inboundSwath s = .next t ∧ t = { s with reqs := t.reqs } ∧ t.req? i = none) ∧
    ((s.line r.line).fetching = some i → (Map.get [] (s.die d).cache (r.line % 131072)).length < 16 → ∃ t, exec .inboundSwath s = .next t ∧ t.req? i = none ∧
      (t.line r.line).holder = some d ∧ (t.line r.line).fetching = none ∧ (t.line r.line).poison = ((s.line r.line).poison || r.poison) ∧
      r.line ∈ Map.get [] (t.die d).cache (r.line % 131072))) ∧
  (∀ (s : State) l j dir n i r, s.ev = [l, j, 3, dir] → dir < 2 → (s.link l).up = true → (s.link l).sent = [(n, [i])] → s.req? i = some r → s.packets = [] →
    (∀ p ∈ s.reqs, p.2.back = none) →
    let k := s.link l
    let m := if dir = 0 then n else n + (if r.far then 448 else 192)
    let lost := CodewordMeets j m (if r.write then 2 else 0) (if r.write then 3 else 1) ∨ ((r.write = true ↔ dir = 0) ∧ CodewordMeets j m 8 39)
    ∃ t, exec .inboundSwath s = .next t ∧ (t.link l).unccnt = min (2 ^ 32 - 1) (k.unccnt + 1) ∧
      (lost → t.req? i = some { r with swath := none } ∧ (t.link l).sent = [] ∧ Map.get [] (t.link l).queues r.group = i :: Map.get [] k.queues r.group) ∧
      (Map.get (0, 0) k.badRun dir = (j, 15) → (t.link l).state = .down ∧ t.Due (s.now + 60000) .fullRetrainEnd [l]) ∧
      ((Map.get (0, 0) k.badRun dir).1 ≠ j → (t.link l).state = k.state ∧ (¬lost → (t.link l).sent = k.sent ∧ t.req? i = some r))) ∧
  (∀ (s : State) l n i r, s.ev = [l, n, 5] → (s.link l).sent = [(n, [i])] → s.req? i = some r → ∃ t, exec .inboundSwath s = .next t ∧ t = { s with reqs := t.reqs } ∧
    t.req? i = some (if r.write then r else { r with poison := true })) ∧
  ∀ (s : State) l d b, s.ev = [l, d, 6, b] → (s.link l).up = true → d < 2 →
    let k := s.link l
    let lane := if k.width = 7 then ((List.range 8).filter (· != k.rtwl)).getD ((b - k.beat) % 7) 0 else (b - k.beat) % max 1 k.width
    k.width ∈ [2, 4, 7, 8] → k.rtwl < 8 → ∃ t, exec .inboundSwath s = .next t ∧
      Map.get 0 (t.link l).fecCnt (8 * d + lane) = min (2 ^ 24 - 1) (Map.get 0 k.fecCnt (8 * d + lane) + 1)

/-- Links: what stands in `RequestsAtTheLink`; a frame boundary makes a committed table live and a narrower width current, and moves the shares of a die in warm reset;
counters of an FEC window turn over; a crossing starts a retraining at width 7 for 90,000 cycles; a failure takes the link DOWN for 60,000; a wake lasts 4,608; an access that has
waited on a DOWN link longer than LNKSTALL traps; SWCOMMIT, LCTL, BERTHR and the home table take their values, and `sy.lnk` refuses others (R306, R382 to R388, R390, R391,
R393, R394, R396 to R403, R417, R422). Log entries 31, 32, 33, 115, 116: the model's own readings in it. -/
def Obligations.LinkEvents : Prop :=
  RequestsAtTheLink ∧
  (∀ (s : State) l, s.ev = [l] →
    let k := s.link l
    let live := k.swstat = 1 ∧ k.commit ≤ swathFrom k s.now
    (frameFrom k s.now ≠ s.now → ∃ t, exec .frameBoundary s = .next t ∧ t = { s with agenda := t.agenda } ∧ t.Due (max s.now (frameFrom k s.now)) .frameBoundary [l]) ∧
    (frameFrom k s.now = s.now → ∃ t, exec .frameBoundary s = .next t ∧ (∀ j, j ≠ l → t.link j = s.link j) ∧
      (live → (t.link l).table = k.shadow ∧ (t.link l).swstat = 2) ∧ (¬live → (t.link l).table = k.table ∧ (t.link l).swstat = k.swstat) ∧
      (∀ w, k.want = some w → k.wakeTill = none → k.state = .run → k.retrainTill = none → w < k.width → k.wantAt ≤ s.now → (t.link l).width = w ∧ (t.link l).want = none) ∧
      (∀ w, k.want = some w → k.wakeTill = none → s.now < k.wantAt → (t.link l).width = k.width ∧ (t.link l).want = some w) ∧
      ∀ w c, k.want = some w → k.wakeTill = some c → c ≤ s.now → (t.link l).width = w ∧ (t.link l).state = .run ∧ (t.link l).wakeTill = none ∧
        (t.link l).want = k.heldWant)) ∧
  (∀ (s : State) d n, s.ev = [d, n, 1] → 0 < d → n < 64 → ∃ t, exec .frameBoundary s = .next t ∧ t = { s with links := t.links, agenda := t.agenda } ∧
    t.link (72 * d + n) = { s.link (72 * d + n) with table := [] } ∧
    t.link n = { s.link n with lent := (s.link n).lent ++ [(d, 256 * ((swathFrom (s.link n) s.now + 255) / 256), (s.link (72 * d + n)).table)] }) ∧
  (∀ (s : State) l w, s.ev = [l, w] → ∃ t, exec .fecWindowEnd s = .next t ∧ t = { s with links := t.links } ∧ Map.get 0 (t.link l).fecCnt w = 0 ∧
    Map.get 0 (t.link l).fecPrv w = Map.get 0 (s.link l).fecCnt w ∧ Map.get 0 (t.link l).fecAge w = 0 ∧ (t.link l).crossed = (s.link l).crossed.erase w ∧
    ∀ j, j ≠ w → Map.get 0 (t.link l).fecCnt j = Map.get 0 (s.link l).fecCnt j) ∧
  (∀ (s : State) l, s.ev = [l, 0, 1] →
    let k := s.link l
    let ended (i : Nat) : Prop := k.up = true ∧ Carrying k i ∧ 2 ^ 24 ≤ Map.get 0 k.fecAge i + (s.now - k.fecFrom)
    k.width ∈ [2, 4, 7, 8] →
    ((∀ i, ¬ended i) → exec .fecWindowEnd s = .next s) ∧
    ∀ w, ended w → ∃ t, exec .fecWindowEnd s = .next t ∧ t = { s with links := t.links, agenda := t.agenda } ∧ Map.get 0 (t.link l).fecCnt w = 0 ∧
      Map.get 0 (t.link l).fecPrv w = Map.get 0 k.fecCnt w ∧ Map.get 0 (t.link l).fecAge w = 0) ∧
  (∀ (s : State) l w, s.ev = [l, w] →
    let k := s.link l
    let ber := (if w < 8 then k.berO else k.berI).toNat % 2 ^ 24
    let u := { k with fecCnt := Map.set 0 k.fecCnt w (max ber (Map.get 0 k.fecCnt w)) }
    let crosses := ber ≠ 0 ∧ w ∉ k.crossed ∧ Carrying k w ∧ k.state ≠ .offline
    (w < 16 → k.width ∈ [2, 4, 7, 8] → ∃ t, exec .retrainStart s = .next t ∧ t = { s with links := t.links, agenda := t.agenda } ∧
      Map.get 0 (t.link l).fecCnt w = max ber (Map.get 0 k.fecCnt w) ∧ (crosses → CrossingRecorded s t l w u) ∧ (¬crosses → t.link l = u)) ∧
    (∀ c d i rest, w = 16 → k.crossings = (c, d, i) :: rest →
      (¬(k.retrainTill = some (s.now + 90000) ∧ k.width = 8 ∧ k.state = .run) → exec .retrainStart s = .next s) ∧
      (k.retrainTill = some (s.now + 90000) → k.width = 8 → k.state = .run → ∃ t, exec .retrainStart s = .next t ∧ t.Due (s.now + 90000) .handBack [l] ∧
        (t.link l).width = 7 ∧ (t.link l).state = .retrain ∧ (t.link l).rtwl = i ∧ (t.link l).rtdir = d ∧ (t.link l).crossings = rest ∧
        (t.link l).bgCnt = min 65535 (k.bgCnt + 1) ∧ (t.link l).t0 = s.now ∧ (t.link l).beat = k.beat + 8 * (s.now - k.t0)))) ∧
  (∀ (s : State) l, s.ev = [l] →
    let k := s.link l
    (¬(k.state = .retrain ∧ k.retrainTill = some s.now) → exec .handBack s = .next s) ∧
    (k.state = .retrain → k.retrainTill = some s.now → ∃ t, exec .handBack s = .next t ∧ (t.link l).width = 8 ∧ (t.link l).state = .run ∧
      (t.link l).rtwl = 0 ∧ (t.link l).rtdir = 0 ∧ Map.get 0 (t.link l).fecCnt (8 * k.rtdir + k.rtwl) = 0 ∧
      Map.get 0 (t.link l).fecPrv (8 * k.rtdir + k.rtwl) = Map.get 0 k.fecCnt (8 * k.rtdir + k.rtwl) ∧
      (k.crossings = [] → (t.link l).retrainTill = none) ∧
      (k.crossings ≠ [] → (t.link l).retrainTill = some (s.now + 90001) ∧ t.Due (s.now + 1) .retrainStart [l, 16])) ∧
    (k.state = .down ∨ k.state = .offline → exec .channelFailure s = .next s) ∧
    (k.state ≠ .down → k.state ≠ .offline → ∃ t, exec .channelFailure s = .next t ∧ (t.link l).state = .down ∧ (t.link l).width = 8 ∧
      (t.link l).fullCnt = min 65535 (k.fullCnt + 1) ∧ (t.link l).downSince = some s.now ∧ (t.link l).sent = [] ∧ (t.link l).lctl.toNat % 4 = 0 ∧
      (t.link l).want = none ∧ (t.link l).wakeTill = none ∧ (t.link l).retrainTill = none ∧ t.Due (s.now + 60000) .fullRetrainEnd [l] ∧
      ∀ n i r, k.sent = [(n, [i])] → s.req? i = some r → t.req? i = some { r with swath := none } ∧ Map.get [] (t.link l).queues r.group = i :: Map.get [] k.queues r.group) ∧
    (k.state ≠ .down → exec .fullRetrainEnd s = .next s) ∧
    (k.state = .down → k.crossings = [] → ∃ t, exec .fullRetrainEnd s = .next t ∧ t.link l = ({ k with state := .run, downSince := none } : Link) ∧
      (∀ j, j ≠ l → t.link j = s.link j) ∧
      ∀ i q m, k.sent = [] → s.reqs = [(i, q)] → q.link = some l → q.back = some m → t.req? i = some { q with back := some (swathFrom k s.now) } ∧
        t.Due (max s.now (beatOf k (40 * swathFrom k s.now + 39))) .inboundSwath [l, swathFrom k s.now, 2, i]) ∧
    (k.wakeTill ≠ some s.now → exec .wakeEnd s = .next s) ∧
    (k.wakeTill = some s.now → ∃ t, exec .wakeEnd s = .next t ∧ t = { s with agenda := t.agenda } ∧ t.Due (max s.now (frameFrom k s.now)) .frameBoundary [l])) ∧
  (∀ (s : State) l auto, s.ev = [l, auto] →
    let k := s.link l
    let asked := auto = 1 ∨ ∃ w, k.want = some w ∧ k.width < w
    (k.wakeTill.isSome = true ∨ k.state ≠ .run ∨ k.width = 8 ∨ ¬asked → exec .autoWake s = .next s) ∧
    (k.wakeTill = none → k.state = .run → k.width ≠ 8 → asked → ∃ t, exec .autoWake s = .next t ∧ t.Due (s.now + 4608) .wakeEnd [l] ∧ (t.link l).state = .waking ∧
      (t.link l).wakeTill = some (s.now + 4608) ∧ (t.link l).width = k.width ∧ (auto = 1 → (t.link l).want = some 8 ∧ (t.link l).lctl.toNat % 4 = 0) ∧
      (auto ≠ 1 → (t.link l).want = k.want ∧ (t.link l).lctl = k.lctl))) ∧
  (∀ (s : State) w k x a, s.ev = [w, k] → s.wave? w = some x → Map.find? x.accs k = some a →
    let n := (s.part x.part).lnkstall.toNat
    (a.downFrom = none ∨ a.stalled = true ∨ n = 0 → exec .linkStall s = .next s) ∧
    ∀ c, a.downFrom = some c → a.stalled = false → n ≠ 0 →
      let oldest := ∀ p ∈ x.accs, p.1 < k → p.2.open = false
      (a.downSum + (s.now - c) ≤ n → ∃ t, exec .linkStall s = .next t ∧ t = { s with agenda := t.agenda } ∧ t.Due (max s.now (c + n + 1 - a.downSum)) .linkStall [w, k]) ∧
      (n < a.downSum + (s.now - c) → ¬oldest → ∃ t, exec .linkStall s = .next t ∧ t = { s with agenda := t.agenda } ∧ t.Due (s.now + 1) .linkStall [w, k]) ∧
      (n < a.downSum + (s.now - c) → oldest → x.traps = [] → ∃ t y, exec .linkStall s = .next t ∧ t.wave? w = some y ∧
        y.traps = [⟨0x0E, 0, 0, Map.get 0 a.addr (lowestOf a.lanes), none, false⟩] ∧ Map.find? y.accs k = some { a with stalled := true })) ∧
  (∀ (s : State) l, s.ev = [l] → (64 ≤ l % 72 → exec .swcommit s = .next s) ∧
    (l % 72 < 64 → TableRefused s l → ∃ t, exec .swcommit s = .next t ∧ t = { s with links := t.links } ∧ t.link l = { s.link l with swstat := 3 }) ∧
    (l % 72 < 64 → ¬TableRefused s l → ∃ t, exec .swcommit s = .next t ∧
      t.link l = { s.link l with swstat := 1, commit := 256 * ((swathFrom (s.link l) (s.now + 1) + 255) / 256) } ∧
      t.Due (max s.now (frameFrom (s.link l) (s.now + 1))) .frameBoundary [l])) ∧
  (∀ (s : State) l v, s.ev = [l, v] → v < 1024 → v % 4 ≠ 3 → v = 0 ∨ s.featack.getLsbD 7 = true →
    let k := s.link l
    let w := match v % 4 with | 0 => 8 | 1 => 4 | _ => 2
    let cur := if k.width = 7 then 8 else k.width
    let begins := ∃ p ∈ s.agenda, p.1 = s.now ∧ p.2.1 = .autoWake ∧ p.2.2.headD 0 = l
    (k.wakeTill = none → ¬begins → ∃ t, exec .lctl s = .next t ∧ t = { s with links := t.links, agenda := t.agenda } ∧
      t.link l = { k with lctl := BitVec.ofNat 32 v, wantAt := s.now + 1, want := if w = cur then none else some w } ∧
      (w < cur → t.Due (max s.now (frameFrom k (s.now + 1))) .frameBoundary [l]) ∧ (cur < w → t.Due (s.now + 1) .autoWake [l, 0])) ∧
    (k.wakeTill.isSome = true → ¬begins → ∃ t, exec .lctl s = .next t ∧ t = { s with links := t.links, agenda := t.agenda } ∧
      t.link l = { k with lctl := BitVec.ofNat 32 v, wantAt := s.now + 1, want := some 8, heldWant := if w = 8 then none else some w }) ∧
    (s.agenda = [(s.now, .autoWake, [l, 1])] → k.wakeTill = none → k.state = .run → k.width ≠ 8 → ∃ t, exec .lctl s = .next t ∧ (t.link l).state = .waking ∧
      (t.link l).wakeTill = some (s.now + 4608) ∧ (t.link l).want = some 8 ∧ (t.link l).heldWant = if w = 8 then none else some w)) ∧
  (∀ (s : State) l dir v, s.ev = [l, dir, v] → v < 2 ^ 24 → (s.link l).width ∈ [2, 4, 7, 8] →
    let k := if dir = 1 then { s.link l with berI := BitVec.ofNat 32 v } else { s.link l with berO := BitVec.ofNat 32 v }
    let crosses (i : Nat) : Prop := v ≠ 0 ∧ v ≤ Map.get 0 k.fecCnt i ∧ i ∉ k.crossed ∧ Carrying k i ∧ k.state ≠ .offline ∧ i / 8 = if dir = 1 then 1 else 0
    ∃ t, exec .berthr s = .next t ∧ t = { s with links := t.links, agenda := t.agenda } ∧ (∀ j, j ≠ l → t.link j = s.link j) ∧
      (t.link l).berO = k.berO ∧ (t.link l).berI = k.berI ∧ ((∀ i, ¬crosses i) → t.link l = k) ∧
      ∀ i, crosses i → i ∈ (t.link l).crossed ∧ (s.now, i / 8, i % 8) ∈ (t.link l).crossings) ∧
  (∀ (s : State) d e h, s.ev = [d, e, h] → ∃ t, exec .homeTableUpdate s = .next t ∧ s.SameMemory t ∧
    (∀ pa, t.home d pa = if pa / 4096 % 4 = e then h else s.home d pa) ∧ ∀ j pa, j ≠ d → t.home j pa = s.home j pa) ∧
  ∀ (s : State) l r (v : Word),
    let n := v.toNat
    let bad := (r = 1 ∧ (1024 ≤ n ∨ n % 4 = 3 ∨ (n ≠ 0 ∧ s.featack.getLsbD 7 = false))) ∨ ((r = 2 ∨ r = 3) ∧ 2 ^ 24 ≤ n) ∨ (r = 4 ∧ 16 ≤ n) ∨ 9 < r
    (bad → s.linkWrite l r v = (4, s)) ∧ (¬bad → (s.linkWrite l r v).1 = 0) ∧ (r = 0 ∨ 5 ≤ r → (s.linkWrite l r v).2 = s)

/-- `t` has the queue operation `o` on its way under the number that was next in `s` (R220). -/
def QueuesOp (s t : State) (o : QuOp) : Prop := ∃ k, t.qop? s.nextId = some k ∧ k = { o with dist := k.dist }

/-- Bytes `pa` to `pa + n - 1` lie in one line, outside every scratch window. -/
def PlainBytes (s : State) (pa n : Nat) : Prop := 0 < n ∧ pa % 128 + n ≤ 128 ∧ ∀ i < n, s.scratchAt (pa + i) = none

/-- The first flit of a link that begins in a cycle or later (R381). -/
def flitFrom (k : Link) (t : Nat) : Nat := (max 1 k.width * (t - k.t0) + k.beat + 7) / 8

/-- Peer packages: a packet joins the order of its peer link, where one of a wave's operation waits for its turn; it leaves in the flits that its header and its data take,
and is answered after the round trip of R405 at the earliest, or not within 2^20 cycles; the answer of an enqueue goes to its issuer, a fault cause to the command, and a
piece that went through goes on; a peer's enqueue goes to its controller, a peer's write into memory, a peer's read brings the bytes, and the answers go back (R278, R301, R402
to R405). -/
def PeerPackets : Prop :=
  (∀ (s : State) n p, s.ev = [0, n] → Map.find? s.packets n = some p →
    let k := s.link p.link
    let waits := ∃ q o w, p.op = some q ∧ s.qop? q = some o ∧ o.wave = some w ∧ (s.wave w).mustWait o.op = true
    (waits → ∃ t, exec .peerPacket s = .next t ∧ t = { s with agenda := t.agenda } ∧ t.Due (s.now + 1) .peerPacket [0, n]) ∧
    (¬waits → ∃ t, exec .peerPacket s = .next t ∧ t = { s with links := t.links, agenda := t.agenda } ∧ t.link p.link = { k with entry := k.entry ++ [n] } ∧
      (k.up = true → k.entry = [] → t.Due (max s.now (beatOf k (8 * max k.next (flitFrom k s.now)))) .peerPacket [6, p.link]))) ∧
  (∀ (s : State) l, s.ev = [6, l] →
    let k := s.link l
    let f := max k.next (flitFrom k s.now)
    (k.entry = [] ∨ k.up = false → exec .peerPacket s = .next s) ∧
    ∀ n rest p, k.entry = n :: rest → k.up = true → Map.find? s.packets n = some p →
      let m := max 1 ((p.size + 127) / 128) + (p.size + 31) / 32
      let sent := s.now + (beatOf k (8 * (f + m) - 1) + 1 - s.now - m)
      (beatOf k (8 * f) ≠ s.now → ∃ t, exec .peerPacket s = .next t ∧ t = { s with agenda := t.agenda } ∧ t.Due (max s.now (beatOf k (8 * f))) .peerPacket [6, l]) ∧
      (beatOf k (8 * f) = s.now → ∃ t, exec .peerPacket s = .next t ∧ t.link l = { k with entry := rest, next := f + m } ∧
        (p.reply = true → t.peerSent = (l, p.args) :: s.peerSent ∧ Map.find? t.packets n = none) ∧
        (p.reply = false → Map.find? t.packets n = some { p with flit := some f, earliest := sent + p.due } ∧ t.peerSent = s.peerSent ∧
          t.Due (s.now + 2 ^ 20) .peerTimeout [n, f]))) ∧
  (∀ (s : State) n f (p : Packet), Map.find? s.packets n = some p →
    -- `i` runs, and answers the packet with a status or a fault cause, and a result or the bytes read
    let answered (i : Instr) (code data : Nat) : Prop :=
      (∀ q o, p.op = some q → s.qop? q = some o → ∃ t, exec i s = .next t ∧ Map.find? t.packets n = none ∧
        t.qop? q = some { o with res := BitVec.ofNat 32 data, st := BitVec.ofNat 32 code } ∧ t.Due s.now .queueAnswer [q]) ∧
      ∀ k c, p.op = none → p.cmd = some k → s.cmd? k = some c → c.code = 0 → c.op ≠ 16 →
        (code ≠ 0 → ∃ t d, exec i s = .next t ∧ Map.find? t.packets n = none ∧ t.cmd? k = some d ∧ d.code = 2 ∧ d.detail = code ∧ t.Due s.now .releasePoint [k]) ∧
        (code = 0 → p.args.getD 1 0 = 1 → ∃ t, exec i s = .next t ∧ Map.find? t.packets n = none ∧ t.cmd? k = some { c with out := c.out - 1, wrote := c.wrote + 1 }) ∧
        ∀ q src dst len, code = 0 → p.args = [k, 0, q, src, dst, len] → c.op ≤ 1 → c.peerD = false → q % 4 = 0 → 0 < len →
          ∃ t, exec i s = .next t ∧ Map.find? t.packets n = none ∧ t.Due s.now .engineLineTransfer [k, 4, q, src, dst, len, data]
    (∀ code data, s.ev = [1, n, code, data] → (p.flit = none → exec .peerPacket s = .next s) ∧
      (p.flit.isSome = true → s.now < p.earliest → ∃ t, exec .peerPacket s = .next t ∧ t = { s with agenda := t.agenda } ∧ t.Due p.earliest .peerPacket s.ev) ∧
      (p.flit.isSome = true → p.earliest ≤ s.now → answered .peerPacket code data)) ∧
    (s.ev = [n, f] → (p.flit ≠ some f → exec .peerTimeout s = .next s) ∧ (p.flit = some f → answered .peerTimeout (if p.op.isSome then 5 else 0x21) 0))) ∧
  (∀ (s : State) n f, Map.find? s.packets n = none → (s.ev = [n, f] → exec .peerTimeout s = .next s) ∧ (s.ev = [0, n] → exec .peerPacket s = .next s)) ∧
  (∀ (s : State) d pkg tag p h (w : Word) (ws : List Word), s.ev = [2, d, pkg, tag, p, h] ++ (w :: ws).map (·.toNat) → h < 2 ^ 38 → ws.length = popCount8 (w.toNat % 256) →
    ∃ t, exec .peerPacket s = .next t ∧ QueuesOp s t { QuOp.blank with
        kind := .enq, handle := BitVec.ofNat 64 h, part := p, count := 1, forms := [w :: ws], peer := some (d, pkg, tag) } ∧
      t.Due (s.now + (30 + 180 * ringDist d (handleHome (BitVec.ofNat 64 h)))) .queueControllerOp [s.nextId, 0]) ∧
  (∀ (s : State) d pkg tag p va len g e, (s.die d).tlbFind p va = some (g, e) → canonical (BitVec.ofNat 64 va) = true → va < 2 ^ 64 → va % 2 ^ 16 + len ≤ 2 ^ 16 → 0 < len →
    s.pageAt g va = .page g → g.flip = false →
    let reply (t : State) (code size data : Nat) : Prop := ∃ z, Map.find? t.packets s.nextId = some z ∧ z.reply = true ∧ z.link = 72 * d + 64 + pkg % 8 ∧
      z.args = [tag, code, data] ∧ z.size = size ∧ t.Due s.now .peerPacket [0, s.nextId]
    let home := s.home d (g.addr va)
    (∀ data, s.ev = [3, d, pkg, tag, p, va, len, data] → (g.w = true ∧ g.coh ≠ 3 → ∃ t, exec .peerPacket s = .next t ∧ s.SameMemory t ∧
        t.Due (s.now + 180 * ringDist d home) .peerPacket [7, d, pkg, tag, p, va, len, data]) ∧
      (g.w = false ∨ g.coh = 3 → ∃ t, exec .peerPacket s = .next t ∧ reply t 5 0 0)) ∧
    (∀ data, s.ev = [7, d, pkg, tag, p, va, len, data] → (s.devReady d p va len).1 = 0 → g.w = true → g.coh ≠ 3 →
      (∀ j < len, s.pageAt g (va + j) = .page g ∧ s.scratchAt (g.addr (va + j)) = none) → ∃ t, exec .peerPacket s = .next t ∧
        t.Due (s.now + 180 * ringDist d home) .peerPacket [9, d, pkg, tag] ∧
        ∀ a, Memory.read t.mem a = if g.addr va ≤ a ∧ a < g.addr va + len then BitVec.ofNat 8 (data / 256 ^ (a - g.addr va)) else Memory.read s.mem a) ∧
    (s.ev = [8, d, pkg, tag, p, va, len] → g.r = true → s.scratchAt (g.addr va) = none →
      ∃ t, exec .peerPacket s = .next t ∧ if (s.line (g.addr va / 128)).poison then reply t 0x0C 0 0 else reply t 0 len (s.read (g.addr va) len)) ∧
    (s.ev = [9, d, pkg, tag] → ∃ t, exec .peerPacket s = .next t ∧ reply t 0 0 0))

/-- Engines and peer packages: a fill's next piece is written with its pattern; a read of a line at the engine's own die takes 96 cycles; what a read brings goes into the
B-store, or on to be written, once its page is known; a write lands on exactly its bytes; poison, a page that does not permit it and a peer's silence fault the command; its
release point lowers CPC, keeps its code and detail for en.status, and sends the completion record; what stands in `PeerPackets`; requests that found no home are sent again
(R224 to R230, R301, R318, R334, R404, R405, R417, R472). Log entries 18, 19, 25, 27, 28: the model's own readings in it. -/
def Obligations.EngineEvents : Prop :=
  (∀ (s : State) id, s.ev.headD 0 = id → s.cmd? id = none → exec .engineLineTransfer s = .next s ∧ exec .releasePoint s = .next s) ∧
  (∀ (s : State) id c a b n, s.ev = [id, 0] → s.cmd? id = some c → c.op = 6 → c.done = false → c.code = 0 → c.after = [] → c.started.isSome = true → c.peerD = false →
    s.piece c = some (a, b, n) → Map.get 0 (s.clover c.clover).eng 0 ≤ s.now → (s.clover c.clover).engOut < 1024 →
    ∃ t d, exec .engineLineTransfer s = .next t ∧ s.SameMemory t ∧
      t.Due s.now .engineLineTransfer [id, 4, c.seq, a, b, n, ofBytes ((List.range n).map fun i => BitVec.ofNat 8 (c.b / 256 ^ (i % 4)))] ∧
      t.cmd? id = some d ∧ d.out = c.out + 1 ∧ d.seq = c.seq + 1 ∧ (t.clover c.clover).engOut = (s.clover c.clover).engOut + 1 ∧
      (if c.off + n = c.a then d.row = c.row + 1 ∧ d.off = 0 else d.row = c.row ∧ d.off = c.off + n)) ∧
  (∀ (s : State) id q src dst len pa c, s.ev = [id, 1, q, src, dst, len, pa] → s.cmd? id = some c → c.code = 0 → c.hostSide src pa = false → s.scratchAt pa = none →
    (s.line (pa / 128)).holder = some c.die → (s.line (pa / 128)).fetching = none → ∃ t, exec .engineLineTransfer s = .next t ∧ t = { s with agenda := t.agenda } ∧
      t.Due (s.now + 96) .engineLineTransfer [id, 3, q, src, dst, len, pa]) ∧
  (∀ (s : State) id q src dst len pa c, s.ev = [id, 3, q, src, dst, len, pa] → s.cmd? id = some c → c.code = 0 → s.scratchAt pa = none → c.op ≠ 16 →
    0 < len → (c.op ≤ 1 → q % 4 = 0) →
    ((s.line (pa / 128)).poison = true → ∃ t d, exec .engineLineTransfer s = .next t ∧ t.cmd? id = some d ∧ d.code = 2 ∧ d.detail = 0x0C ∧
      d.fault = BitVec.ofNat 64 src ∧ t.Due s.now .releasePoint [id]) ∧
    ((s.line (pa / 128)).poison = false → c.op = 2 → ∃ t, exec .engineLineTransfer s = .next t ∧
      ∀ i, Memory.read (t.clover c.clover).bstore i =
        if c.b + (src - c.src.toNat) ≤ i ∧ i < c.b + (src - c.src.toNat) + len then s.byte (pa + (i - (c.b + (src - c.src.toNat))))
        else Memory.read (s.clover c.clover).bstore i) ∧
    ((s.line (pa / 128)).poison = false → c.op ≠ 2 → c.peerD = false → ∃ t, exec .engineLineTransfer s = .next t ∧ s.SameMemory t ∧
      t.Due s.now .engineLineTransfer [id, 4, q, src, dst, len, s.read pa len])) ∧
  (∀ (s : State) id q src dst len data pa c, s.ev = [id, 7, q, src, dst, len, data, pa] → s.cmd? id = some c → c.code = 0 → c.op ≠ 5 → c.hostSide dst pa = false →
    PlainBytes s pa len → (∀ w, Writable s c.die (pa / 128) false w) → Untracked s (pa / 128) → ∃ t d, exec .engineLineTransfer s = .next t ∧
      (∀ a, t.byte a = if pa ≤ a ∧ a < pa + len then BitVec.ofNat 8 (data / 256 ^ (a - pa)) else s.byte a) ∧
      t.cmd? id = some d ∧ d = { c with out := c.out - 1, wrote := c.wrote + 1 } ∧ (t.clover c.clover).engOut = (s.clover c.clover).engOut - 1) ∧
  (∀ (s : State) id q src dst len data c p e, s.ev = [id, 4, q, src, dst, len, data] → s.cmd? id = some c → c.code = 0 → c.op = 0 →
    Map.get 0 (s.clover c.clover).eng 2 ≤ s.now → canonical (BitVec.ofNat 64 dst) = true → c.pages = [] → (s.die c.die).tlbFind c.part dst = some (p, e) →
    let faults (cause : Nat) : Prop := ∃ t d, exec .engineLineTransfer s = .next t ∧ s.SameMemory t ∧ t.cmd? id = some d ∧ d.code = 2 ∧ d.detail = cause ∧
      d.fault = BitVec.ofNat 64 dst ∧ t.Due s.now .releasePoint [id]
    (s.pageAt p dst = .fault → faults 3) ∧
    (s.pageAt p dst = .page p → p.flip = true → ∃ t, exec .engineLineTransfer s = .next t ∧ s.SameMemory t ∧ t.Due (s.now + 1) .engineLineTransfer s.ev) ∧
    (s.pageAt p dst = .page p → p.flip = false → p.w = false ∨ p.coh = 3 → faults 5) ∧
    (s.pageAt p dst = .page p → p.flip = false → p.w = true → p.coh ≠ 3 → p.hb = false → p.addr dst < 2 ^ 51 → ∃ t d, exec .engineLineTransfer s = .next t ∧ s.SameMemory t ∧
      t.Due s.now .engineLineTransfer [id, 5, q, src, dst, len, data, p.addr dst] ∧ t.cmd? id = some d ∧ d.pages = [(dst / 2 ^ 16, .page p)] ∧
      Map.get 0 (t.clover c.clover).eng 2 = s.now + 1)) ∧
  (∀ (s : State) id c, s.ev = [id] → s.cmd? id = some c →
    (c.done = true → exec .releasePoint s = .next s) ∧
    (c.done = false → c.op = 16 → ∃ t, exec .releasePoint s = .next t ∧ t = { s with agenda := t.agenda } ∧ t.Due s.now .epiChunk [c.clover, c.tag.toNat, 4]) ∧
    (c.done = false → c.op ≠ 16 → c.code = 0 → c.sums = [] → ∃ t, exec .releasePoint s = .next t ∧ s.SameMemory t ∧ t.cmd? id = none ∧
      (c.alive = true → ∀ x, s.wave? c.wave = some x → ∃ y, t.wave? c.wave = some y ∧ y.ctx.cpc = x.ctx.cpc - 1 ∧
        y.cmds = x.cmds.map fun (p : Word × Nat × Nat) => if p.1 = c.tag then (p.1, 0, 0) else p) ∧
      (c.flags.getLsbD 6 = true → ∃ o, t.qop? s.nextId = some o ∧ o.kind = .device ∧ o.handle = c.complq ∧ o.part = c.part ∧
        ((o.forms.headD []).take 4) = [c.tag, 0, 0, 0])) ∧
    (c.done = false → c.op ≠ 16 → c.code = 2 → c.alive = true → ∀ x, s.wave? c.wave = some x → x.traps = [] → ∃ t y, exec .releasePoint s = .next t ∧
      t.wave? c.wave = some y ∧ y.traps = [⟨0x13, 0, 0, BitVec.ofNat 32 c.detail ++ c.tag, none, false⟩])) ∧
  PeerPackets ∧
  (∀ (s : State) h id st rest c, s.ev = [2, h, id, st] ++ rest → s.cmd? id = some c →
    let pa := s.ev.getD (if st = 1 then 8 else 9) 0
    (s.home c.die pa = h → ∃ t, exec .homeOffline s = .next t ∧ t = { s with agenda := t.agenda } ∧ t.Due (s.now + 1) .homeOffline s.ev) ∧
    (s.home c.die pa ≠ h → ∃ t, exec .homeOffline s = .next t ∧ t = { s with agenda := t.agenda } ∧ t.Due s.now .engineLineTransfer ([id, st] ++ rest))) ∧
  (∀ (s : State) h q pa rest, s.ev = [3, h, q, pa] ++ rest → s.home q pa = h →
    ∃ t, exec .homeOffline s = .next t ∧ t = { s with agenda := t.agenda } ∧ t.Due (s.now + 1) .homeOffline s.ev) ∧
  ∀ (s : State) id r, s.ev = [0, id] → s.req? id = some r →
    let l := s.linkOf r.die (128 * r.line)
    (r.link = some l → ∃ t, exec .homeOffline s = .next t ∧ t = { s with reqs := t.reqs } ∧ t.req? id = some { r with link := none, swath := none, back := none }) ∧
    (r.link ≠ some l → ∃ t, exec .homeOffline s = .next t ∧ t.req? id = some { r with link := some l, swath := none, back := none } ∧
      t.Due (s.now + (80 + (if r.write then 180 else 360) * ringDist r.die (s.home r.die (128 * r.line)))) .drawerRequest [id])

/-! The events of launches, placement and swaps (14_scheduling.md, 15_traps_preemption_reliability.md). -/

/-- `c` is the first of the places, from 0 on, at which `n` units are free below `limit` (R345, R352). -/
def FirstFree (taken : List (Nat × Nat)) (limit n c : Nat) : Prop :=
  let free (e : Nat) : Prop := e + n ≤ limit ∧ ∀ b ∈ taken, b.1 + b.2 ≤ e ∨ e + n ≤ b.1
  free c ∧ ∀ e < c, ¬free e

/-- A core can take a team of `waves` waves and `n` granules of scratchpad, which it allocates at granule `g` (R345). -/
def FitsAt (l : Load) (waves n g : Nat) : Prop := l.used + waves ≤ 16 ∧ if n = 0 then g = 0 else FirstFree l.alloc 4096 n g

/-- Of the cores that can take a team, the one with the fewest occupied slots; of equals the first at or after the round-robin pointer `rr` (R345). -/
def ChosenCore (ls : List Load) (rr waves n : Nat) (l : Load) (g : Nat) : Prop :=
  l ∈ ls ∧ FitsAt l waves n g ∧ ∀ m ∈ ls, ∀ h, FitsAt m waves n h →
    l.used < m.used ∨ (l.used = m.used ∧ (l.core % 96 + 96 - rr) % 96 ≤ (m.core % 96 + 96 - rr) % 96)

/-- The assignment of a cohort's teams, in ascending team number, to the reported, reduced capacity; none where a team finds no core (R346). -/
def CohortAssigned (waves n : Nat) : Map (List Load) → Map Nat → List Nat → Option (List Assign) → Prop
  | _, _, [], o => o = some []
  | ls, rr, t :: r, o =>
    let fits (d : Nat) : Prop := ∃ l ∈ Map.get [] ls (d % 4), ∃ g, FitsAt l waves n g
    ((∀ k < 4, ¬fits (t + k)) ∧ o = none) ∨ ∃ k < 4, ∃ l g q, fits (t + k) ∧ (∀ j < k, ¬fits (t + j)) ∧
      ChosenCore (Map.get [] ls ((t + k) % 4)) (Map.get 0 rr ((t + k) % 4)) waves n l g ∧
      CohortAssigned waves n
        (Map.put ls ((t + k) % 4) ((Map.get [] ls ((t + k) % 4)).map fun m =>
          if m.core = l.core then { m with used := m.used + waves, alloc := if n = 0 then m.alloc else m.alloc ++ [(g, n)] } else m))
        (Map.put rr ((t + k) % 4) ((l.core % 96 + 1) % 96)) r q ∧
      o = q.map fun as => { number := t, die := (t + k) % 4, core := l.core, granule := g, team := none } :: as

/-- The bytes at `a` of a memory, as a number of `n` bytes. -/
def numberIn (m : List Host.Cell) (a n : Nat) : Nat := ofBytes ((List.range n).map fun i => Memory.read m (a + i))

/-- The saved image: a wave context at `off`, and a team's header, have what R366 and R367 place at the offsets they give. -/
def SavedImage : Prop :=
  (∀ (x : Wave) off, let c := x.ctx
    numberIn (x.image off) off 4 = c.wstat.toNat ∧ numberIn (x.image off) (off + 4) 4 = c.vac.toNat ∧
    (∀ v < 285, ∀ l < 32, numberIn (x.image off)
      (off + (if v < 192 then 0x100 + 128 * v else if v < 200 then 0x6100 + 128 * (v - 192) else if v < 246 then 0x6580 + 128 * (v - 200) else 0x7C80 + 128 * (v - 246)) + 4 * l) 4 =
        (c.reg v l).toNat) ∧
    (∀ l < 32, ∀ k < 8, (Memory.read (x.image off) (off + 0x6500 + l)).getLsbD k = (decide (k = 0) || (Map.get 0 c.guards k).getLsbD l)) ∧
    (∀ p < 39, ∀ l < 32, (numberIn (x.image off) (off + 0x9000 + 4 * p) 4).testBit l = !(Map.get 0 c.busy (246 + p)).getLsbD l) ∧
    (c.lsFifo.length ≤ 16 → ∀ k (e : FifoEntry), c.lsFifo[k]? = some e → let a := off + 0x9100 + 416 * k
      numberIn (x.image off) (a + 128) 4 = e.mask.toNat ∧ ∀ l < 32, numberIn (x.image off) (a + 4 * l) 4 = (Map.get 0 e.vals l).toNat)) ∧
  ∀ (t : Team) l,
    let h := t.header l false
    numberIn h 0 4 = 1 ∧ (t.waves < 2 ^ 32 → numberIn h 4 4 = t.waves) ∧ (t.scratch < 2 ^ 32 → numberIn h 8 4 = t.scratch) ∧
      numberIn h 12 4 = (if l.lrec.cohort then 1 else 0) + (if l.lrec.backed then 2 else 0) + (if (l.lrec.backed = false ∨ t.task = true) ∧ t.scratch ≠ 0 then 4 else 0) ∧
      numberIn h 16 8 = l.addr.toNat ∧ numberIn h 24 4 = t.number.toNat ∧
      ∀ k < 4, (∀ w < 16, numberIn h (32 + 16 * w + 4 * k) 4 = (Map.get 0 t.arr (4 * w + k)).toNat) ∧ numberIn h (288 + 4 * k) 4 = (Map.get 0 t.ph k).toNat ∧
        (Map.get 0 t.timer k < 2 ^ 64 → numberIn h (304 + 8 * k) 8 = Map.get 0 t.timer k)

/-- Launches: LQDOOR enqueues the stored form; the accepting distributor looks for an entry, pops it 30 cycles on, and reads its record 30 cycles later; a record is refused
or accepted by its checks; a cohort is assigned as R346 says or refused; teams enter each distributor's list; a complete launch posts its record (R337 to R343, R346). -/
def LaunchSteps : Prop :=
  (∀ (s : State) p a d, s.ev = [p, a, d] → a < 2 ^ 64 →
    (s.featack.getLsbD 0 = false → exec .lqdoor s = .next { s with answers := 4 :: s.answers }) ∧
    (s.featack.getLsbD 0 = true → ∃ t, exec .lqdoor s = .next t ∧ QueuesOp s t { QuOp.blank with
      kind := .enq, handle := (s.part p).lqh, part := p, count := 1, forms := [[7, BitVec.ofNat 32 a, BitVec.ofNat 32 (a / 2 ^ 32), 0]], door := true })) ∧
  (∀ (s : State) p r,
    let h := (s.part p).lqh.toNat
    let d := h / 2 ^ 32 % 4
    let k := s.die d
    (s.ev = [p, 0] ++ r → k.failed = true ∨ (k.state ≠ .run ∧ k.state ≠ .quiescing) ∨ (k.state = .quiescing ∧ 4 ≤ k.phase) →
      ∃ t, exec .launchAccept s = .next t ∧ t = { s with parts := t.parts } ∧ (t.part p).accepting = false) ∧
    ∀ c, Map.find? k.qctx (qkey (h / 2 ^ 34 % 16) (h % 2 ^ 20)) = some c → c.part = h / 2 ^ 34 % 16 → c.index = h % 2 ^ 20 →
      (s.ev = [p, 0] ++ r → k.failed = false → k.state = .run →
        (c.tail = c.head → ∃ t, exec .launchAccept s = .next t ∧ (t.part p).accepting = false ∧ t.agenda = s.agenda) ∧
        (c.tail ≠ c.head → ∃ t, exec .launchAccept s = .next t ∧ t.Due (s.now + 30) .launchAccept [p, 1])) ∧
      (s.ev = [p, 9] ++ r → c.tail ≠ c.head → ∃ t e, exec .launchAccept s = .next t ∧
        let rec_ := ((s.recordsOf d c 1).1.headD [])
        Map.find? (t.die d).qctx (qkey c.part c.index) = some e ∧ e.head = c.head + 1 ∧ e.dbase = rec_ ∧ e.tail = c.tail ∧
          t.Due (s.now + 30) .launchAccept [p, 2, (rec_.getD 0 0).toNat + (rec_.getD 1 0).toNat * 2 ^ 32])) ∧
  (∀ (s : State) p a, s.ev = [p, 2, a] → a % 2 ^ 16 + 256 ≤ 2 ^ 16 → a < 2 ^ 64 → canonical (BitVec.ofNat 64 a) = true →
    (∀ g e, (s.die (s.acceptor p)).tlbFind p a = some (g, e) → s.pageAt g a ≠ .fault) →
    ∃ t n k, exec .launchAccept s = .next t ∧ Map.find? t.tasks n = some k ∧ k.go = .launchAccept ∧ k.args = [p, 3, a] ∧ 0 < k.left) ∧
  (∀ (s : State) p a, s.ev = [p, 3, a] →
    let bytes := s.devRead (s.acceptor p) p a 256
    let made (t : State) (l : Launch) : Prop := t.launch? s.nextId = some l ∧ l.addr = BitVec.ofNat 64 a ∧ l.part = p ∧ l.die = s.acceptor p ∧ l.killed = 0 ∧ l.tasks = 0
    (bytes = none → ∃ t l, exec .launchAccept s = .next t ∧ made t l ∧ l.status = 2 ∧ l.left = 0 ∧ l.started = some s.time ∧ t.Due s.now .launchAccept [p, 0]) ∧
    ∀ b, bytes = some b →
      let r := readRecord b
      (a % 256 ≠ 0 ∨ r.entry.toNat % 4 ≠ 0 ∨ r.teams = 0 ∨ 2 ^ 24 < r.teams ∨ r.waves = 0 ∨ 16 < r.waves ∨ 524288 < r.scratch ∨ r.scratch % 128 ≠ 0 ∨ r.waitswap < 6 ∨ 31 < r.waitswap ∨
        r.barto < 10 ∨ 40 < r.barto → ∃ t l, exec .launchAccept s = .next t ∧ made t l ∧ l.status = 2 ∧ l.left = 0 ∧ t.Due s.now .launchAccept [p, 0]) ∧
      (recordBad s.featack a b r = false → (s.part p).psched.toNat % 4 < r.prio →
        ∃ t l, exec .launchAccept s = .next t ∧ made t l ∧ l.status = 3 ∧ l.left = 0 ∧ t.Due s.now .launchAccept [p, 0]) ∧
      (recordBad s.featack a b r = false → r.prio ≤ (s.part p).psched.toNat % 4 → ∃ t l, exec .launchAccept s = .next t ∧ made t l ∧ l.status = 0 ∧
        l.left = r.teams ∧ l.started = none ∧ l.lrec = r ∧ (∀ c < 384, (s.part p).clovers.getLsbD (c / 4) = true → (t.core c).ic = []) ∧
        (r.cohort = false → (∀ d < 4, t.Due (s.now + 180 * ringDist (s.acceptor p) d) .launchDistribution [d, s.nextId, 0]) ∧ t.Due s.now .launchAccept [p, 0]) ∧
        (r.cohort = true → (∀ d < 4, t.Due (s.now + 180 * ringDist (s.acceptor p) d) .launchAccept [p, 5, s.nextId, d]) ∧
          ∃ h, t.Due (s.now + 360 * h) .launchAccept [p, 6, s.nextId, 0] ∧ (∃ d < 4, h = ringDist (s.acceptor p) d) ∧ ∀ d < 4, ringDist (s.acceptor p) d ≤ h))) ∧
  (∀ (s : State) p l d x, s.ev = [p, 5, l, d] → s.launch? l = some x → ∃ t y, exec .launchAccept s = .next t ∧ (t.die d).frozen = (s.die d).frozen + 1 ∧
    t.launch? l = some y ∧ Map.find? y.reports d = some (s.loads p d)) ∧
  (∀ (s : State) p l x o, s.ev = [p, 6, l, 0] → s.launch? l = some x → x.reports = (List.range 4).map (fun d => (d, s.loads p d)) → (∀ d < 4, (s.die d).rr < 96) →
    0 < x.lrec.teams → CohortAssigned x.lrec.waves (x.lrec.scratch / 128) x.reports ((List.range 4).map fun d => (d, (s.die d).rr)) (List.range x.lrec.teams) o →
    let a := s.acceptor p
    (o = none → ∃ t y, exec .launchAccept s = .next t ∧ t.launch? l = some y ∧ y.status = 1 ∧ y.left = 0 ∧ y.started = some s.time ∧
      (∀ d < 4, t.Due (s.now + 180 * ringDist a d) .launchDistribution [d, l, 1]) ∧ t.Due s.now .launchAccept [p, 0]) ∧
    ∀ plan, o = some plan → ∃ t, exec .launchAccept s = .next t ∧ t.launch? l = some { x with plan := plan, reports := [] } ∧ t.Due s.now .launchAccept [p, 0] ∧
      ∃ c, (∀ b ∈ plan, 180 * (ringDist a (b.number % 4) + ringDist (b.number % 4) b.die) ≤ c) ∧
        ∀ d < 4, ((∃ b ∈ plan, b.die = d) → t.Due (s.now + c) .launchDistribution [d, l, 2]) ∧
          ((∀ b ∈ plan, b.die ≠ d) → t.Due (s.now + 180 * ringDist a d) .launchDistribution [d, l, 1])) ∧
  (∀ (s : State) d l k x, s.ev = [d, l, k] → s.launch? l = some x →
    let n := (x.lrec.teams + 3 - d) / 4
    (k = 0 → n = 0 → exec .launchDistribution s = .next s) ∧
    (k = 0 → n ≠ 0 → (s.die d).state = .run → ∃ t i, exec .launchDistribution s = .next t ∧ (t.die d).items = (s.die d).items ++ [i] ∧ i.launch = l ∧ i.next = d ∧ i.step = 4 ∧
      i.count = n ∧ i.prio = x.lrec.prio ∧ i.since = s.now ∧ i.team = none) ∧
    (k = 1 → ∃ t, exec .launchDistribution s = .next t ∧ (t.die d).frozen = (s.die d).frozen - 1 ∧ (t.die d).items = (s.die d).items) ∧
    (k = 2 → (s.die d).state = .run → (∀ b ∈ x.plan, b.team = none) → ∃ t i, exec .launchDistribution s = .next t ∧ (t.die d).items = (s.die d).items ++ [i] ∧
      i.launch = l ∧ i.step = 0 ∧ i.team = none ∧ i.first = true ∧ i.ready = s.now)) ∧
  (∀ (s : State) id l, s.ev = [id] → s.launch? id = some l →
    let finish := if l.status = 0 then s.time else l.started.getD s.time
    let half (d : Dword) : List Word := [BitVec.ofNat 32 d.toNat, BitVec.ofNat 32 (d.toNat / 2 ^ 32)]
    let rec_ (z : Dword) : List Word := [l.lrec.utag, BitVec.ofNat 32 (l.status + 256 * min l.killed (2 ^ 24 - 1))] ++ half (l.started.getD z) ++ half z ++ [BitVec.ofNat 32 l.moved, 1]
    let op (z : Dword) : QuOp := { QuOp.blank with kind := .device, handle := l.lrec.complq, part := l.part, count := 1, forms := [rec_ z], launch := some id }
    (l.lrec.complq = 0 → ∃ t, exec .launchComplete s = .next t ∧ t.launch? id = none ∧ t.qops = s.qops) ∧
    (l.lrec.complq ≠ 0 → (s.die l.die).failed = false → ∃ t, exec .launchComplete s = .next t ∧ QueuesOp s t (op finish) ∧
      t.launch? id = some { l with finished := some finish, posting := true, done := true }) ∧
    (l.lrec.complq ≠ 0 → (s.die l.die).failed = true → ∃ t, exec .launchComplete s = .next t ∧ t.launch? id = none ∧ (t.part l.part).lostcq = (s.part l.part).lostcq + 1) ∧
    (∃ t, exec .completionRetry s = .next t ∧ QueuesOp s t (op (l.finished.getD 0))))

/-- Stealing, spawn bins and resizes: a thief asks the dies in turn, and the victim hands over the upper half of its first launch that fits; threads fill bins and bins become
task waves; a clover is emptied, cleared and changes hands (R186, R347 to R349, R354). -/
def DistributorSteps : Prop :=
  (∀ (s : State) d, s.ev = [d] → ∃ t, exec .stealRequest s = .next t ∧ (t.die d).stealing = some ((d + 1) % 4) ∧
    t.Due (s.now + 180 * ringDist d ((d + 1) % 4)) .stealRequest ([d, (d + 1) % 4, 0] ++ s.room d)) ∧
  (∀ (s : State) d v n room, s.ev = d :: v :: n :: room → room ≠ [] →
    ((s.die v).frozen ≠ 0 → ∃ t, exec .stealRequest s = .next t ∧ t = { s with agenda := t.agenda } ∧ t.Due (s.now + 16) .stealRequest s.ev) ∧
    ((s.die v).frozen = 0 → (s.die v).items = [] ∨ (s.die v).state ≠ .run → ∃ t, exec .stealRequest s = .next t ∧ t = { s with agenda := t.agenda } ∧
      t.Due (s.now + 180 * ringDist d v) .stealAnswer [d, v, n]) ∧
    ∀ i l, (s.die v).frozen = 0 → (s.die v).state = .run → (s.die v).items = [i] → i.team = none → 0 < i.step → i.first = false → s.launch? i.launch = some l →
      l.lrec.cohort = false → 0 < i.count → i.next + i.step * i.count < 2 ^ 25 →
      let fits := l.lrec.waves ≤ room.getD (2 * l.part) 0 ∧ l.lrec.scratch / 128 ≤ room.getD (2 * l.part + 1) 0
      let stay := i.count / 2
      (¬fits → ∃ t, exec .stealRequest s = .next t ∧ t = { s with agenda := t.agenda } ∧ t.Due (s.now + 180 * ringDist d v) .stealAnswer [d, v, n]) ∧
      (fits → ∃ t, exec .stealRequest s = .next t ∧ (t.die v).items = (if stay = 0 then [] else [{ i with count := stay }]) ∧
        t.Due (s.now + 180 * ringDist d v) .stealAnswer ([d, v, n] ++ { i with next := i.next + i.step * stay, count := i.count - stay }.code))) ∧
  (∀ (s : State) d v n, s.ev = [d, v, n] →
    let rests := (s.die d).items ≠ [] ∨ (s.die d).state ≠ .run
    (rests → ∃ t, exec .stealAnswer s = .next t ∧ t.die d = { s.die d with stealing := none }) ∧
    (¬rests → n < 2 → ∃ t, exec .stealAnswer s = .next t ∧ (t.die d).stealing = some ((d + 1 + (n + 1)) % 4)) ∧
    (¬rests → 2 ≤ n → ∃ t, exec .stealAnswer s = .next t ∧ t.die d = { s.die d with stealing := none, stealAt := s.now + 1024 })) ∧
  (∀ (s : State) d v n (i : Item), s.ev = [d, v, n] ++ i.code → (s.die d).state = .run → ∃ t, exec .stealAnswer s = .next t ∧ (t.die d).stealing = none ∧
    (t.die d).items = (s.die d).items ++ [{ i with since := s.now }]) ∧
  (∀ (s : State) d b, s.ev = [d, b] → (Map.find? (s.die d).bins b = none → exec .binTimeout s = .next s) ∧
    ∀ x l, Map.find? (s.die d).bins b = some x → s.launch? x.launch = some l → ∃ t tm, exec .binTimeout s = .next t ∧ Map.find? (t.die d).bins b = none ∧
      t.team? s.nextId = some tm ∧ tm.task = true ∧ tm.waves = 1 ∧ tm.launch = x.launch ∧ tm.entry = x.entry ∧ tm.threads = x.threads ∧ tm.owner = d ∧
      t.launch? x.launch = some { l with tasks := l.tasks + 1 } ∧ t.Due (s.now + 8) .taskWavePending [d, s.nextId]) ∧
  (∀ (s : State) d k th, s.ev = [d, k] → Map.get [] (s.die d).threads k = [th] → (s.die d).bins = [] →
    (th.flush = false → ∃ t x, exec .spawnBinArrival s = .next t ∧ Map.find? (t.die d).bins (s.die d).nextBin = some x ∧ x.launch = th.launch ∧ x.entry = th.entry ∧
      x.threads = [th.words] ∧ t.Due (s.now + 2048) .binTimeout [d, (s.die d).nextBin]) ∧
    (th.flush = true → ∀ l, s.launch? th.launch = some l → ∃ t tm, exec .spawnBinArrival s = .next t ∧ (t.die d).bins = [] ∧ t.team? s.nextId = some tm ∧ tm.task = true ∧
      tm.threads = [th.words] ∧ tm.entry = th.entry ∧ t.Due (s.now + 8) .taskWavePending [d, s.nextId])) ∧
  (∀ (s : State) d id tm, s.ev = [d, id] → s.team? id = some tm → (s.die d).state = .run → ∃ t i, exec .taskWavePending s = .next t ∧
    (t.die d).items = (s.die d).items ++ [i] ∧ i.team = some id ∧ i.task = true ∧ i.count = 1 ∧ i.launch = tm.launch ∧ i.since = s.now) ∧
  (∀ (s : State) p c g st, s.ev = [p, c, g, st] → (∀ d < 4, (s.die d).frozen = 0) →
    (st = 0 → (s.part p).resize = 1 ∨ (s.part p).clovers.getLsbD c = false → ∃ t, exec .resize s = .next t ∧ t.part p = { s.part p with resize := 2 }) ∧
    (st = 0 → (s.part p).resize ≠ 1 → (s.part p).clovers.getLsbD c = true → ∃ t, exec .resize s = .next t ∧ t.part p = { s.part p with resize := 1 } ∧
      t.Due s.now .resize [p, c, g, 1]) ∧
    (st = 1 → ∃ t, exec .resize s = .next t ∧ t.resizes = s.resizes ++ [{ source := p, target := g, clover := c, stage := 1 }] ∧
      ∀ id tm l, s.team? id = some tm → tm.state = .resident → tm.core / 4 = c → tm.deadline = none → s.launch? tm.launch = some l →
        ∃ y, t.team? id = some y ∧ y.deadline = some (s.now + l.lrec.ydl) ∧ t.Due (s.now + l.lrec.ydl) .yieldDeadline [id, s.now + l.lrec.ydl]) ∧
    (st = 2 → ∃ t z, exec .resize s = .next t ∧ t.Due z .resize [p, c, g, 3] ∧ s.now ≤ z ∧
      (∀ i < 64, (s.link (72 * (c / 24) + i)).up = true → frameFrom (s.link (72 * (c / 24) + i)) (s.now + 1) ≤ z) ∧
      ((∀ i < 64, (s.link (72 * (c / 24) + i)).up = false) → z = s.now)) ∧
    (st = 3 → ∃ t, exec .resize s = .next t ∧ (∀ i, Map.get 0 (t.clover c).acc i = 0) ∧ (t.clover c).table = [] ∧
      (∀ i < 4, (t.core (4 * c + i)).l1 = [] ∧ (t.core (4 * c + i)).ic = []) ∧ t.Due (s.now + 3072) .resize [p, c, g, 4]) ∧
    (st = 4 → p ≠ g → c < 96 → ∃ t, exec .resize s = .next t ∧ (∀ i, Memory.read (t.clover c).bstore i = 0) ∧ (t.part p).resize = 0 ∧
      (∀ i < 96, (t.part p).clovers.getLsbD i = ((s.part p).clovers.getLsbD i && decide (i ≠ c))) ∧
      (t.clover c).owner = some g ∧ (∀ r, r ∈ t.resizes ↔ r ∈ s.resizes ∧ r.clover ≠ c) ∧
      ∀ i < 96, (t.part g).clovers.getLsbD i = ((s.part g).clovers.getLsbD i || decide (i = c))) ∧
    (st = 5 → ∃ t, exec .resize s = .next t ∧ (∀ i, Memory.read (t.clover c).bstore i = 0) ∧ (∀ r, r ∈ t.resizes ↔ r ∈ s.resizes ∧ r.clover ≠ c) ∧
      t = { s with clovers := t.clovers, resizes := t.resizes }))

/-- Placement: the capacity of a die's cores; the first item of the list takes the core that R345 chooses, its waves start with R34's values, and the pointer moves on; an item
that no core takes stays; the teams of a cohort are placed where they were assigned; an item that arrives joins the list, a swapped team once its area is here (R34, R345, R346,
R353). -/
def PlacingSteps : Prop :=
  (∀ (s : State) p d (l : Load), (∀ x ∈ s.launches, x.2.plan = []) → (l ∈ s.loads p d ↔ (s.die d).state = .run ∧ l.core / 96 = d ∧ (s.part p).clovers.getLsbD (l.core / 4) = true ∧
    (∀ r ∈ s.resizes, r.clover = l.core / 4 → r.source ≠ p) ∧ l.used = (s.waves.filter fun x => x.1 / 16 == l.core).length ∧ l.alloc = (s.core l.core).alloc)) ∧
  (∀ (s : State) d, s.ev = [d] → (s.die d).state ≠ .run ∨ (s.die d).items = [] → exec .placement s = .next s) ∧
  (∀ (s : State) d i l, s.ev = [d] → (s.die d).state = .run → (s.die d).frozen = 0 → (s.die d).items = [i] → i.team = none → i.step ≠ 0 → i.task = false → i.ready ≤ s.now →
    s.launch? i.launch = some l → l.lrec.backed = false ∨ l.lrec.scratch = 0 → (s.die d).rr < 96 →
    (∀ ld g, ChosenCore (s.loads l.part d) (s.die d).rr l.lrec.waves (l.lrec.scratch / 128) ld g → ∃ t tm, exec .placement s = .next t ∧
      (t.die d).rr = (ld.core % 96 + 1) % 96 ∧ (t.die d).items = (if i.count ≤ 1 then [] else [{ i with next := i.next + i.step, count := i.count - 1 }]) ∧
      t.team? s.nextId = some tm ∧ tm.state = .resident ∧ tm.core = ld.core ∧ tm.granule = g ∧ tm.number = BitVec.ofNat 32 i.next ∧ tm.launch = i.launch ∧ tm.placed = s.now ∧
      (∀ o, Memory.read tm.bytes o = 0) ∧ (l.lrec.scratch ≠ 0 → (t.core ld.core).alloc = (s.core ld.core).alloc ++ [(g, l.lrec.scratch / 128)]) ∧
      ∀ j w, j < l.lrec.waves → (((List.range 16).map (16 * ld.core + ·)).filter fun v => (s.wave? v).isNone)[j]? = some w →
        ∃ y f, t.wave? w = some y ∧ y.index = j ∧ y.team = s.nextId ∧ y.launch = i.launch ∧ y.part = l.part ∧ y.placed = s.now ∧ y.ctx.seqs = [(0, f)] ∧
          f.pc = l.lrec.entry ∧ f.mask = BitVec.allOnes 32 ∧ f.loops = [] ∧ f.due = s.now + (32 + l.lrec.scratch / 128) ∧ y.ctx.vac = 0 ∧
          (∀ v k, y.ctx.reg v k = 0) ∧ (∀ n, 0 < n → ∀ k, y.ctx.guard n k = false) ∧ (∀ n, y.ctx.baseReg n = if n < 8 then l.lrec.args.getD n 0 else 0) ∧
          y.ctx.ldc = 0 ∧ y.ctx.stc = 0 ∧ y.ctx.cpc = 0 ∧ y.ctx.tlc = 0 ∧ y.win = none ∧ y.tstate = 0) ∧
    ((∀ ld ∈ s.loads l.part d, ∀ g, ¬FitsAt ld l.lrec.waves (l.lrec.scratch / 128) g) → (s.part l.part).psched.getLsbD 2 = false →
      ∃ t, exec .placement s = .next t ∧ t.teams = s.teams ∧ t.waves = s.waves ∧ (t.die d).items = [i])) ∧
  (∀ (s : State) d i l b, s.ev = [d] → (s.die d).state = .run → (s.die d).items = [i] → i.team = none → i.step = 0 → i.ready ≤ s.now → s.launch? i.launch = some l →
    l.lrec.backed = false ∨ l.lrec.scratch = 0 → l.plan.filter (·.die == d) = [b] → b.team = none → ∃ t tm, exec .placement s = .next t ∧ (t.die d).items = [] ∧
      (t.die d).frozen = (s.die d).frozen - 1 ∧ t.team? s.nextId = some tm ∧ tm.state = .resident ∧ tm.core = b.core ∧ tm.granule = b.granule ∧
      tm.number = BitVec.ofNat 32 b.number ∧ tm.owner = b.number % 4 ∧ tm.launch = i.launch) ∧
  (∀ (s : State) d (i : Item), s.ev = d :: i.code → i.team = none → (s.die d).state = .run → ∃ t, exec .teamTransfer s = .next t ∧
    (t.die d).items = (s.die d).items ++ [{ i with since := s.now }]) ∧
  (∀ (s : State) d (i : Item) f id tm l a, s.ev = d :: i.code ++ [f] → i.team = some id → i.task = false → (s.die d).state = .run → s.team? id = some tm → tm.area = some a →
    s.launch? tm.launch = some l → tm.launch = i.launch → s.partCores l.part d ≠ [] → d < 4 → ∃ t, exec .teamTransfer s = .next t ∧
      (t.die d).items = (s.die d).items ++ [{ i with since := s.now, ready := max (f + (72 + 544 * tm.waves) - 1) s.now }])

/-- A context area that a team can take: the first place in its partition's pool that has room for it, where the die may write (R352, R366, log entry 61). -/
def FreeArea (s : State) (tm : Team) (l : Launch) (n c : Nat) : Prop :=
  n = 0x2400 + tm.waves * 0x11000 + (if l.lrec.backed = true ∧ tm.task = false then 0 else tm.scratch) ∧
    FirstFree (s.part l.part).areas (s.part l.part).ctxlen.toNat n c ∧
    s.devOk (tm.core / 96) l.part ((s.part l.part).ctxbase + BitVec.ofNat 64 c).toNat n true = true

/-- Swaps: a team takes a context area, or goes on where none is free; its context is saved, with the bytes of R366 and R367, and it leaves its core; its scratchpad is written
back; deadlines and wait-swaps (R317, R351, R352, R366, R367, R369). -/
def SwapSteps : Prop :=
  SavedImage ∧
  ∀ (s : State) id tm l, s.team? id = some tm → s.launch? tm.launch = some l →
    let d := tm.core / 96
    let size := 0x2400 + tm.waves * 0x11000
    (s.ev = [id, 0] ∨ s.ev = [id] →
      let i := if s.ev = [id] then .waitSwap else .teamSwap
      (∀ n c, FreeArea s tm l n c → ∃ t x, exec i s = .next t ∧ t.team? id = some x ∧ x.state = .swapping ∧ x.deadline = none ∧ x.past = false ∧
        x.area = some ((s.part l.part).ctxbase + BitVec.ofNat 64 c) ∧ (t.part l.part).areas = (s.part l.part).areas ++ [(c, n)] ∧
        ∀ p ∈ tm.slots, ∀ y, s.wave? p.2 = some y → y.stop = .running → ∃ z, t.wave? p.2 = some z ∧ z.stop = .swapping ∧ z.win = none) ∧
      ((∀ n c, ¬FreeArea s tm l n c) → ∃ t, exec i s = .next t ∧ t.team? id = some { tm with tested := s.now + 1 })) ∧
    (s.ev = [id, 1] → ∃ t x, exec .teamSwap s = .next t ∧ t.team? id = some x ∧ x.stage = 1 ∧
      x.saved = tm.slots.map (fun p => (p.1, (s.wave p.2).mapCtx Ctx.dropRecords)) ∧ (∀ p ∈ tm.slots, ∀ y, t.wave? p.2 = some y → y.accs = []) ∧
      (t.Due (s.now + (72 + 544 * tm.waves)) .teamSwap [id, 2] ∨ ∃ n k, Map.find? t.tasks n = some k ∧ k.go = .teamSwap ∧ k.args = [id, 4] ∧ 0 < k.left)) ∧
    (∀ f, s.ev = [id, 4, f] → ∃ t, exec .teamSwap s = .next t ∧ t = { s with agenda := t.agenda } ∧ t.Due (s.now + (72 + 544 * tm.waves)) .teamSwap [id, 2]) ∧
    (s.ev = [id, 2] → ∀ a, tm.area = some a →
      (∀ c u, s.devReady d l.part a.toNat size = (c + 1, u) → exec .teamSwap s = .next (u.after (c + 1) .teamSwap [id, 2])) ∧
      ((s.devReady d l.part a.toNat size).1 = 0 →
        (∀ pa, (∀ k < size, s.devAddr d l.part (a.toNat + k) true = some (pa + k)) → ∃ t, exec .teamSwap s = .next t ∧ ∀ b, Memory.read t.mem b =
          if pa ≤ b ∧ b < pa + size then Memory.read ((tm.stopTimers s.now).header l false ++ tm.saved.flatMap fun p => p.2.image (0x2400 + p.1 * 0x11000)) (b - pa)
          else Memory.read s.mem b) ∧
        (tm.scratch = 0 → ∃ t x, exec .teamSwap s = .next t ∧ t.team? id = some x ∧ x.state = .swapped ∧ x.slots = [] ∧
          (∀ p ∈ tm.slots, t.wave? p.2 = none) ∧ (t.core tm.core).swaps = (s.core tm.core).swaps + 1) ∧
        (tm.scratch ≠ 0 → l.lrec.backed = false → ∃ t x, exec .teamSwap s = .next t ∧ t.team? id = some x ∧ x.stage = 2 ∧ t.Due (s.now + 1) .teamSwap [id, 3, 0]))) ∧
    (∀ k, s.ev = [id, k] → (s.devFlips d l.part (l.lrec.window tm.number.toNat + 128 * k) 128) = false →
      (tm.window = [] → 128 * (k + 1) < tm.scratch → ∃ t, exec .scratchpadWriteBack s = .next t ∧ t = { s with agenda := t.agenda } ∧
        t.Due (s.now + 1) .scratchpadWriteBack [id, k + 1]) ∧
      (tm.window = [] → tm.scratch ≤ 128 * (k + 1) → tm.state ≠ .moving → ∃ t, exec .scratchpadWriteBack s = .next t ∧ s.SameMemory t ∧
        t.team? id = some { tm with stage := 0 } ∧
        (t.core tm.core).alloc = (s.core tm.core).alloc.filter fun b => b != (tm.granule, tm.scratch / 128)) ∧
      (tm.window = [] → tm.scratch ≤ 128 * (k + 1) → tm.state = .moving → ∃ t, exec .scratchpadWriteBack s = .next t ∧ t.team? id = none) ∧
      (∀ pa n, tm.window = [(pa, 0, n)] → 128 * k < n → pa % 128 = 0 → pa + 128 * (k + 1) ≤ 2 ^ 51 → Memory.wf s.mem = true → Memory.wf tm.bytes = true →
        (∀ g, s.devXlate d l.part (l.lrec.window tm.number.toNat + 128 * k) = .page g → g.hb = false) → (∀ w, Writable s d (pa / 128 + k) false w) →
        ∃ t, exec .scratchpadWriteBack s = .next t ∧
          ∀ b, Memory.read t.mem b = if pa + 128 * k ≤ b ∧ b < pa + 128 * (k + 1) then Memory.read tm.bytes (b - pa) else Memory.read s.mem b)) ∧
    ∀ z, s.ev = [id, z] → ∃ t, exec .yieldDeadline s = .next t ∧ t.team? id = some (if tm.deadline = some z then { tm with past := true } else tm)

/-- Launches, distributors, placement and swaps: what stands in `LaunchSteps`, `DistributorSteps`, `PlacingSteps` and `SwapSteps` (R34, R337 to R343, R345 to R349, R351 to R354,
R366, R367, R369). Log entries 58 to 64, 66, 67, 69, 70, 81, 105: the model's own readings in it. -/
def Obligations.TeamEvents : Prop := LaunchSteps ∧ DistributorSteps ∧ PlacingSteps ∧ SwapSteps

/-! The host's side and the package (12_memory_model.md, 13_memory_hierarchy_and_translation.md, 17_package_host_and_power.md). -/

/-- The host: an access of an unmapped line is answered with an error, one of a mapped line goes to its home, from there to its scratch window, its holder or the drawer; a home that
serves no longer answers a read with poisoned zeros and a write with an error; a read answers the bytes that stand there, a write changes
exactly its bytes; a bias flip marks its page's entry, drains, and ends with the new bias, each store of the entry once its line may be written; a correctable error is corrected and
an uncorrectable one poisons; FEATACK is written once; memory windows never overlap another partition's; CLVLO and CLVHI move while the partition is idle, and a clover that another
partition held is cleared first; clearing a mask sends what is pending; BAR0 registers take their values, and an access of another size than 8 bytes reads 0 and writes nothing (R275,
R280, R313, R334, R335, R336, R354, R409 to R415, R417, R421, R422). Log entries 42, 78, 80: the model's own readings in it. -/
def Obligations.HostEvents : Prop :=
  (∀ (s : State) id r off, Map.find? s.host id = some r →
    let pa := r.addr + off
    let at_ (st : Nat) : Prop := s.ev = [id, st, off]
    (at_ 0 → off = 0 → (∃ i < (r.addr + r.len + 127) / 128 - r.addr / 128, s.partOf (128 * (r.addr / 128 + i)) = none) →
      exec .hostAccess s = .next { s with host := Map.put s.host id { r with answer := some ([], false, true) } }) ∧
    (at_ 0 → (off ≠ 0 ∨ ∀ i < (r.addr + r.len + 127) / 128 - r.addr / 128, (s.partOf (128 * (r.addr / 128 + i))).isSome = true) →
      ∃ t, exec .hostAccess s = .next t ∧ t = { s with agenda := t.agenda } ∧ t.Due (s.now + 180 * ringDist r.die (s.home r.die pa)) .hostAccess [id, 1, off, s.home r.die pa]) ∧
    (at_ 2 → off = 0 → r.write = false → r.bytes = [] → PlainBytes s r.addr r.len → ∃ t z, exec .hostAccess s = .next t ∧ s.SameMemory t ∧
      Map.find? t.host id = some z ∧ z.answer = some ((List.range r.len).map (fun i => s.byte (r.addr + i)), r.poison || (s.line (r.addr / 128)).poison, false)) ∧
    (∀ h, s.ev = [id, 1, off, h] →
      (s.home r.die pa ≠ h → exec .hostAccess s = .next { s with host := Map.put s.host id { r with
        answer := if r.write then some ([], false, true) else some (List.replicate r.len 0, true, false) } }) ∧
      (s.home r.die pa = h → ∀ x, s.scratchAt pa = some x → ∃ t, exec .hostAccess s = .next t ∧ t = { s with agenda := t.agenda } ∧
        t.Due (s.now + 60 + 180 * ringDist h (((s.team? x.1).map (·.core / 96)).getD h)) .hostAccess [id, 2, off]) ∧
      (s.home r.die pa = h → s.scratchAt pa = none → (s.line (pa / 128)).grant = none → (s.line (pa / 128)).fetching = none →
        (∀ d, (s.line (pa / 128)).holder = some d → ∃ t, exec .hostAccess s = .next t ∧ t = { s with agenda := t.agenda } ∧
          t.Due (s.now + 180 * ringDist h d) .hostAccess [id, 2, off]) ∧
        ((s.line (pa / 128)).holder = none → ∃ t q, exec .hostAccess s = .next t ∧ t.req? s.nextId = some q ∧ q.line = pa / 128 ∧ q.write = false ∧
          q.waiters = [.host [id, 2, off]] ∧ t.Due (s.now + 80) .drawerRequest [s.nextId])) ∧
      (s.home r.die pa = h → s.scratchAt pa = none → (s.line (pa / 128)).grant = none → ∀ i q, (s.line (pa / 128)).fetching = some i → s.req? i = some q →
        ∃ t, exec .hostAccess s = .next t ∧ t.req? i = some { q with waiters := q.waiters ++ [.host [id, 2, off]] })) ∧
    (at_ 2 → off = 0 → r.write = true → r.bytes.length = r.len → PlainBytes s r.addr r.len → (∀ w, Writable s r.die (r.addr / 128) false w) →
      Untracked s (r.addr / 128) → ∃ t z, exec .hostAccess s = .next t ∧
        (∀ a, t.byte a = if r.addr ≤ a ∧ a < r.addr + r.len then r.bytes.getD (a - r.addr) 0 else s.byte a) ∧
        Map.find? t.host id = some z ∧ z.answer = some ([], r.poison, false))) ∧
  (∀ (s : State) p v h st, s.ev = [p, v, h, st] → h < 2 →
    let w := s.walk p (v * 2 ^ 16)
    let on := ∃ f ∈ s.flips, f.part = p ∧ f.page = v
    let ended (t : State) : Prop := ∀ f, f ∈ t.flips ↔ f ∈ s.flips ∧ ¬(f.part = p ∧ f.page = v)
    ((∀ g, w.out ≠ .page g) → ∃ t, exec .biasFlip s = .next t ∧ t = { s with flips := t.flips } ∧ ended t) ∧
    ∀ g a, w.out = .page g → w.reads.getLast? = some a →
      (st = 0 → g.flip = true ∨ on ∨ (g.hb = true ↔ h = 1) → exec .biasFlip s = .next s) ∧
      (st = 0 → g.flip = false → ¬on → ¬(g.hb = true ↔ h = 1) → ∀ c u, s.pteReady (s.home 0 a) a none = (c + 1, u) →
        exec .biasFlip s = .next (u.after (c + 1) .biasFlip [p, v, h, 0, 0, 0])) ∧
      (st = 3 → on → (∀ q ∈ s.reqs, q.2.write = true → g.hasLine q.2.line = false) → ∀ c u, s.pteReady (s.home 0 a) a none = (c + 1, u) →
        exec .biasFlip s = .next (u.after (c + 1) .biasFlip [p, v, h, 3])) ∧
      (st = 3 → on → (∃ q ∈ s.reqs, q.2.write = true ∧ g.hasLine q.2.line = true) → ∃ t, exec .biasFlip s = .next t ∧ t = { s with agenda := t.agenda } ∧
        t.Due (s.now + 1) .biasFlip [p, v, h, 3]) ∧
      ((∀ i < 8, s.scratchAt (a + i) = none) → (∀ w, Writable s (s.home 0 a) (a / 128) (decide (2 ^ 51 ≤ a)) w) → Untracked s (a / 128) →
        (st = 0 → g.flip = false → ¬on → ¬(g.hb = true ↔ h = 1) → ∃ t f, exec .biasFlip s = .next t ∧ t.flips = s.flips ++ [f] ∧ f.part = p ∧ f.page = v ∧
          t.Due s.now .biasFlip [p, v, h, 1] ∧ ∀ k < 64, (t.read a 8).testBit k = if k = 11 then true else (s.read a 8).testBit k) ∧
        (st = 3 → on → (∀ q ∈ s.reqs, q.2.write = true → g.hasLine q.2.line = false) → ∃ t, exec .biasFlip s = .next t ∧ ended t ∧
          ∀ k < 64, (t.read a 8).testBit k = if k = 11 then false else if k = 10 then decide (h = 1) else (s.read a 8).testBit k)) ∧
      (st = 1 → ∃ t, exec .biasFlip s = .next t ∧ s.SameMemory t ∧ if s.engineIn g then t.Due (s.now + 1) .biasFlip [p, v, h, 1] else t.Due s.now .biasFlip [p, v, h, 2]) ∧
      (st = 2 → ∃ t, exec .biasFlip s = .next t ∧ t.mem = s.mem ∧ t.Due s.now .biasFlip [p, v, h, 3])) ∧
  (∀ (s : State) n, (s.ev = [0, n] → ∃ t, exec .softError s = .next t ∧ t = { s with lines := t.lines } ∧ t.line n = { s.line n with soft := false }) ∧
    (s.ev = [1, n] → ∃ t, exec .softError s = .next t ∧ t = { s with lines := t.lines } ∧ t.line n = { s.line n with poison := true } ∧ ∀ j, j ≠ n → t.line j = s.line j) ∧
    ∀ u l x, s.ev = [2, n, u, l] → s.wave? n = some x → ∃ t y, exec .softError s = .next t ∧ s.OnlyWave t n ∧ t.wave? n = some y ∧ y = { x with inject := y.inject } ∧
      32 * u + l ∈ y.inject) ∧
  (∀ (s : State) v, s.ev = [v] →
    (s.featSet = true → exec .featack s = .next s) ∧
    (s.featSet = false → exec .featack s = .next { s with featack := BitVec.ofNat 64 (v % 2 ^ 12), featSet := true }) ∧
    (v % 2 = 0 → exec .attctl s = .next s) ∧
    (v % 2 = 1 → ∃ t, exec .attctl s = .next t ∧ t = { s with attReady := false, agenda := t.agenda } ∧ t.Due (s.now + Config.attestCycles s.attCount) .attestationReport [])) ∧
  (∀ (s : State) p k v, s.ev = [p, k, v] →
    let b := v / 2 ^ 16 % 2 ^ 36 * 2 ^ 16
    let clash (lo hi : Nat) : Prop := lo ≤ hi ∧ ∃ q < 16, q ≠ p ∧ ∃ j < 8, (s.part q).windowBase j ≤ (s.part q).windowLim j ∧
      lo ≤ (s.part q).windowLim j + 65535 ∧ (s.part q).windowBase j ≤ hi + 65535
    (clash b ((s.part p).windowLim k) → exec .mwbase s = .next s) ∧ (clash ((s.part p).windowBase k) b → exec .mwlim s = .next s) ∧
    (¬clash b ((s.part p).windowLim k) → ∃ t, exec .mwbase s = .next t ∧ (∀ j, (t.part p).windowBase j = if j = k then b else (s.part p).windowBase j) ∧
      (t.part p).mwlim = (s.part p).mwlim ∧ ∀ q, q ≠ p → t.part q = s.part q) ∧
    (¬clash ((s.part p).windowBase k) b → ∃ t, exec .mwlim s = .next t ∧ (∀ j, (t.part p).windowLim j = if j = k then b else (s.part p).windowLim j) ∧
      (t.part p).mwbase = (s.part p).mwbase ∧ ∀ q, q ≠ p → t.part q = s.part q)) ∧
  (∀ (s : State) p v, s.ev = [p, v] →
    let idle := (s.part p).accepting = false ∧ ∀ l ∈ s.launches, l.2.part = p → l.2.done = true
    let good (i : Nat) : Bool := !(s.die (i / 24)).failed
    let given (t : State) : Prop := ∀ i < 96,
      ((t.part p).clovers.getLsbD i = false → t.clover i = s.clover i) ∧
      ((t.part p).clovers.getLsbD i = true → (t.clover i).owner = some p ∧ (t.clover i).bstore = (s.clover i).bstore ∧ ∀ q, q ≠ p → (s.clover i).owner = some q →
        (t.clover i).table = [] ∧ (∀ j, Map.get 0 (t.clover i).acc j = 0) ∧ (∀ j < 4, (t.core (4 * i + j)).l1 = [] ∧ (t.core (4 * i + j)).ic = []) ∧
        (∃ r ∈ t.resizes, r.source = p ∧ r.clover = i) ∧ t.Due (s.now + 3072) .resize [p, i, p, 5])
    (¬idle → exec .clvlo s = .next s ∧ exec .clvhi s = .next s) ∧
    (idle → (∃ t, exec .clvlo s = .next t ∧ (∀ q, q ≠ p → t.part q = s.part q) ∧
        given t ∧ ∀ i < 96, (t.part p).clovers.getLsbD i = ((if i < 64 then v.testBit i else (s.part p).clovers.getLsbD i) && good i)) ∧
      ∃ t, exec .clvhi s = .next t ∧ (∀ q, q ≠ p → t.part q = s.part q) ∧
        given t ∧ ∀ i < 96, (t.part p).clovers.getLsbD i = ((if i < 64 then (s.part p).clovers.getLsbD i else v.testBit (i - 64)) && good i))) ∧
  (∀ (s : State) v, s.ev = [v] → s.msixPend = [v] → v < 512 → (s.msixMasked = false → ∃ t, exec .msixUnmask s = .next t ∧ t.sent = v :: s.sent ∧ t.msixPend = [] ∧
      t.msixMask v = false) ∧ (s.msixMasked = true → ∃ t, exec .msixUnmask s = .next t ∧ t.sent = s.sent ∧ t.msixPend = [v])) ∧
  (∀ (s : State) o v d n, s.ev = [o, v, d, n] → n ≠ 8 → exec .registerWrite s = .next s) ∧
  ∀ (s : State) o v d, s.ev = [o, v, d] ∨ s.ev = [o, v, d, 8] → v < 2 ^ 64 →
    (o % 8 ≠ 0 → exec .registerWrite s = .next s) ∧
    (∀ n, o % 8 ≠ 0 ∨ n ≠ 8 → s.barRead o n = 0) ∧
    (o = 0x008 → s.featSet = false → ∃ t, exec .registerWrite s = .next t ∧ t.barRead o = BitVec.ofNat 64 (v % 2 ^ 12)) ∧
    (s.bootstat ≠ 2 → s.bootstat ≠ 3 → ∀ p < 16,
      let at_ (r : Nat) : Prop := o = 0x10000 * (p + 1) + r
      let reads (r : Nat) (x : Nat) : Prop := at_ r → ∃ t, exec .registerWrite s = .next t ∧ (t.barRead o).toNat = x ∧ ∀ q, q ≠ p → t.part q = s.part q
      reads 0x000 (v % 16) ∧ reads 0x008 v ∧ reads 0x018 v ∧ reads 0x020 (v % 2 ^ 32) ∧ reads 0x040 (v % 32) ∧ reads 0x068 (v % 2 ^ 32) ∧
      reads 0x058 (if v % 256 = 0 then v else (s.part p).ttbase.toNat) ∧
      (at_ 0x010 → ∃ t, exec .registerWrite s = .next t ∧ t = { s with agenda := t.agenda } ∧ t.Due s.now .lqdoor [p, v, d]) ∧
      (at_ 0x200 → ∃ t, exec .registerWrite s = .next t ∧ t = { s with agenda := t.agenda } ∧ t.Due s.now .resize [p, v % 128, v / 2 ^ 8 % 16, 0]))

/-- Die `e` is the first in RUN after die `d` in the order 0, 1, 3, 2, 0 (R417). -/
def NextRunning (s : State) (d e : Nat) : Prop :=
  let after (n : Nat) : Nat := if n = 0 then 1 else if n = 1 then 3 else if n = 3 then 2 else 0
  (s.die e).state = .run ∧ (e = after d ∨ (s.die (after d)).state ≠ .run ∧ (e = after (after d) ∨ (s.die (after (after d))).state ≠ .run ∧ e = after (after (after d))))

/-- Dies and the package: a command of dctl or DIECTL answers the die's state, and moves it as R416 says or is refused; QUIESCE asks the die's teams to leave and empties its bins, its
pending list then moves to the next die in RUN, RESET clears the die, a failed one too, READMIT retrains its links; the steps of a warm reset follow one another, the die's swath shares
going to die 0's links and coming back; a failed die's lines are lost, poisoned where they were dirty, its waves are killed, its completion records lost, and its homes go to the lowest
die that has not failed; the cold start ends with BOOTSTAT and the time base; the supply and the temperature stretch the clock, and 115 degrees stop the package with a fatal error; a
report carries the nonce, one measurement for every report, FEATACK and TIME (R273, R378, R406, R416 to R421, R423, R424, R464, R465). What a self-test answers and the measurement
are open: the statement names the model's free values. Log entries 47, 72, 73, 74, 75, 85: the model's own readings in it. -/
def Obligations.PackageEvents : Prop :=
  (∀ (s : State) d w k back q bad x o, s.ev = [d, w + 1, k, back, q, bad] → s.wave? w = some x → Map.find? x.pend k = some o →
    let answer (t : State) (st : Word) : Prop := t.Due (s.now + back) .resultReady [w, k] ∧ ∃ y p, t.wave? w = some y ∧ Map.find? y.pend k = some p ∧ p.lanes = o.lanes ∧
      ∀ l < 32, o.lanes.getLsbD l = true → Map.get 0 p.vals (32 * portVec .sy .st + l) = st ∧
        (t.die d).state = (match (Map.get 0 p.vals (32 * portVec .sy .res + l)).toNat with | 0 => .run | 1 => .quiescing | 2 => .offline | 3 => .resetting | _ => .selftest)
    (∃ t, exec .dieStatus s = .next t ∧ t.die d = s.die d ∧ answer t (if bad = 1 ∨ d = 0 ∨ d = q then 4 else 0)) ∧
    (bad ≠ 1 → (s.die d).state ≠ .offline → ∃ t, exec .dieReset s = .next t ∧ answer t 4 ∧ t.die d = s.die d) ∧
    (bad ≠ 1 → (s.die d).state ≠ .selftest → ∃ t, exec .dieReadmit s = .next t ∧ answer t 4 ∧ t.die d = s.die d) ∧
    (bad ≠ 1 → (s.die d).state ≠ .run ∨ s.featack.getLsbD 10 = false ∨ (∃ e < 4, e ≠ d ∧ (s.die e).state ≠ .run) →
      ∃ t, exec .dieQuiesce s = .next t ∧ answer t 4 ∧ t.die d = s.die d) ∧
    (bad ≠ 1 → d ≠ 0 → d ≠ q → (s.die d).state = .offline → ∃ t, exec .dieReset s = .next t ∧ answer t 0 ∧ (t.die d).state = .resetting) ∧
    (bad ≠ 1 → d ≠ 0 → d ≠ q → (s.die d).state = .selftest → ∃ t, exec .dieReadmit s = .next t ∧ answer t 0 ∧ (t.die d).state = .selftest) ∧
    (bad ≠ 1 → d = 0 ∨ d = q →
      ∃ t u v, exec .dieQuiesce s = .next t ∧ exec .dieReset s = .next u ∧ exec .dieReadmit s = .next v ∧ answer t 4 ∧ answer u 4 ∧ answer v 4 ∧
        t.die d = s.die d ∧ u.die d = s.die d ∧ v.die d = s.die d)) ∧
  (∀ (s : State) d, s.ev = [d, 0] → 0 < d → d < 4 →
    exec .dieStatus s = .next s ∧
    ((s.die d).state ≠ .run ∨ s.featack.getLsbD 10 = false ∨ (∃ e < 4, e ≠ d ∧ (s.die e).state ≠ .run) → exec .dieQuiesce s = .next s) ∧
    ((s.die d).state = .run → s.featack.getLsbD 10 = true → (∀ e < 4, e ≠ d → (s.die e).state = .run) →
      ∃ t, exec .dieQuiesce s = .next t ∧ (t.die d).state = .quiescing ∧ (t.die d).phase = 1 ∧ (t.die d).items = (s.die d).items ∧ (t.die d).bins = [] ∧
        (∀ b x l, Map.find? (s.die d).bins b = some x → s.launch? x.launch = some l → ∃ id tm, t.team? id = some tm ∧ tm.task = true ∧ tm.entry = x.entry ∧
          tm.threads = x.threads ∧ t.Due (s.now + 8) .taskWavePending [d, id]) ∧
        (∀ i l, s.launch? i = some l → l.die = d → ∃ y, t.launch? i = some y ∧ y.die = 0) ∧
        ∀ id tm l, id < s.nextId → s.team? id = some tm → tm.state = .resident → tm.core / 96 = d → tm.deadline = none → s.launch? tm.launch = some l →
          ∃ y, t.team? id = some y ∧ y.deadline = some (s.now + l.lrec.ydl) ∧ t.Due (s.now + l.lrec.ydl) .yieldDeadline [id, s.now + l.lrec.ydl]) ∧
    ((s.die d).state ≠ .offline → exec .dieReset s = .next s) ∧
    ((s.die d).state = .offline → ∃ t, exec .dieReset s = .next t ∧ (t.die d).state = .resetting ∧ (t.die d).cache = [] ∧ (t.die d).tlb = [] ∧ (t.die d).qctx = [] ∧
      (∀ c, c / 96 = d → t.core c = Core.reset) ∧ (∀ c, c / 24 = d → t.clover c = Clover.reset) ∧ t.Due (s.now + 208096) .selftest [d] ∧
      ((s.lines.Pairwise fun p q => p.1 < q.1) → ∀ l, (s.line l).holder = some d → (t.line l).holder = none ∧ (t.line l).dirty = false ∧
        (t.line l).poison = ((s.line l).poison || (s.line l).dirty))) ∧
    ((s.die d).state ≠ .selftest → exec .dieReadmit s = .next s) ∧
    ((s.die d).state = .selftest → ∃ t, exec .dieReadmit s = .next t ∧ t.Due (s.now + 60001) .copyBack [d, 0] ∧ ∀ i < 72, (t.link (72 * d + i)).state = .down ∧
      (t.link (72 * d + i)).width = 8 ∧ (t.link (72 * d + i)).table = [] ∧ t.Due (s.now + 60000) .fullRetrainEnd [72 * d + i])) ∧
  (∀ (s : State) d st, s.ev = [d, st] → d < 4 →
    ((s.die d).state ≠ .quiescing → exec .writeBack s = .next s ∧ exec .reHome s = .next s) ∧
    ((s.die d).state = .quiescing → st = 0 → ∃ t u, exec .writeBack s = .next t ∧ t.die d = { s.die d with items := [], phase := 2 } ∧
      t.Due (s.now + 1) .writeBack [d, 1] ∧ (∀ i ∈ (s.die d).items, ∀ e, NextRunning s d e → t.Due (s.now + 180 * ringDist d e) .teamTransfer (e :: i.code) ∧
        ∀ id tm, i.team = some id → s.team? id = some tm → ∃ y, t.team? id = some y ∧ y.owner = e) ∧
      exec .reHome s = .next u ∧ u.die d = { s.die d with phase := 3 } ∧ u.Due (s.now + s.homeEntries d (s.entriesOf d)) .reHome [d, 1]) ∧
    ((s.die d).state = .quiescing → st = 1 → ∃ t, exec .writeBack s = .next t ∧ t.mem = s.mem ∧ (t.die d).cache = [] ∧ (∀ l, (t.line l).holder ≠ some d) ∧
      ((∀ p ∈ s.lines, p.2.holder = some d → p.2.dirty = false) → t.Due (s.now + 1) .reHome [d, 0])) ∧
    ((s.die d).state = .quiescing → st = 2 → ∀ c u, s.flushReady d none = (c + 1, u) → exec .writeBack s = .next (u.after (c + 1) .writeBack [d, 2])) ∧
    ((s.die d).state = .quiescing → st = 2 → (s.flushReady d none).1 = 0 → (∀ p ∈ (s.die d).qctx, p.1 = qkey p.2.part p.2.index) →
      ∃ t, exec .writeBack s = .next t ∧ (t.die d).qctx = []) ∧
    ((s.die d).state = .quiescing → st = 1 → ∀ c u, s.flushReady d none = (c + 1, u) → exec .reHome s = .next (u.after (c + 1) .reHome [d, 1])) ∧
    ((s.die d).state = .quiescing → st = 1 → (s.flushReady d none).1 = 0 →
      ∃ u, exec .reHome s = .next u ∧ (u.die d).phase = 4 ∧ (u.die d).state = .quiescing ∧ u.Due (s.now + 360) .dieOffline [d] ∧
      (∀ n < 64, u.Due (max s.now (frameFrom (s.link (72 * d + n)) (s.now + 1))) .frameBoundary [d, n, 1]) ∧
      ∀ k ∈ s.entriesOf d, ∀ j < 4, u.Due (s.now + 180 * ringDist d j) .homeTableUpdate [j, k, 0]) ∧
    ((s.die d).state ≠ .selftest → exec .copyBack s = .next s) ∧
    ((s.die d).state = .selftest → ∃ t, exec .copyBack s = .next t ∧ (st = 0 → t = { s with agenda := t.agenda } ∧ t.Due (s.now + s.homeEntries d [d]) .copyBack [d, 1]) ∧
      (st = 1 → t.Due (max s.now (frameFrom (s.link (72 * d)) (s.now + 1))) .copyBack [d, 2] ∧
        ∀ j < 4, t.Due (s.now + 180 * ringDist d j) .homeTableUpdate [j, d, d]) ∧
      (2 ≤ st → (t.die d).state = .run ∧ (t.die d).phase = 0 ∧ (t.die d).items = (s.die d).items ∧ (0 < d → ∀ n < 64,
        (t.link n).lent = (s.link n).lent.filter (fun x => x.1 != d) ∧
        ∀ x, (s.link n).lent.find? (fun y => y.1 == d) = some x → (s.link (72 * d + n)).table = [] → (t.link (72 * d + n)).table = x.2.2)))) ∧
  (∀ (s : State) d, s.ev = [d] → d < 4 →
    ((s.die d).state ≠ .quiescing → exec .dieOffline s = .next s) ∧
    ((s.die d).state = .quiescing → ∃ t, exec .dieOffline s = .next t ∧ (t.die d).state = .offline ∧ ∀ i < 72,
      let k := t.link (72 * d + i)
      k.state = .offline ∧ k.width = 8 ∧ k.queues = [] ∧ k.sent = [] ∧ k.want = none ∧ k.heldWant = none ∧ k.wakeTill = none ∧ k.retrainTill = none) ∧
    ((s.die d).state ≠ .resetting → exec .selftest s = .next s) ∧
    ((s.die d).state = .resetting → ∃ t, exec .selftest s = .next t ∧
      (Config.selfTestPasses s.free = true → (t.die d).state = .selftest ∧ (t.die d).failed = false) ∧
      (Config.selfTestPasses s.free = false → (t.die d).state = .offline ∧ (t.die d).failed = (s.die d).failed)) ∧
    ((s.die d).failed = true → exec .dieFailure s = .next s) ∧
    ((s.die d).failed = false → (∀ p ∈ s.waves, dieOf p.1 ≠ d) → (∀ i ∈ (s.die d).items, i.team = none ∧ i.step ≠ 0) → (s.lines.Pairwise fun p q => p.1 < q.1) → ∃ t, exec .dieFailure s = .next t ∧ (t.die d).failed = true ∧
      (t.die d).state = .offline ∧ (t.die d).items = [] ∧ t.mem = s.mem ∧ (∀ l, (s.line l).holder = some d → (t.line l).holder = none ∧ (t.line l).dirty = false ∧
        (t.line l).poison = ((s.line l).poison || (s.line l).dirty)) ∧ (∀ l, (s.line l).holder ≠ some d → t.line l = s.line l) ∧
      ∀ i l, s.launches = [(i, l)] → l.die = d → l.posting = true → (∀ o ∈ s.qops, o.2.launch ≠ some i) → (s.die d).items = [] →
        t.launches = [] ∧ (t.part l.part).lostcq = (s.part l.part).lostcq + 1) ∧
    ((s.die d).failed = false → ∃ t, exec .dieFailure s = .next t ∧ (t.die d).failed = true ∧ (t.die d).state = .offline ∧ (t.die d).items = [] ∧
      (t.die d).bins = [] ∧ (t.die d).qctx = [] ∧ (∀ w y, dieOf w = d → t.wave? w = some y → y.dead = true) ∧
      (∀ e < 4, e ≠ d → (s.die e).failed = false → (∀ c < e, c = d ∨ (s.die c).failed = true) →
        ∀ j < 4, ∀ pa, t.home j pa = if s.home j pa = d then e else s.home j pa))) ∧
  (∀ s : State, (s.ev = [] ∨ s.ev = [0] → ∃ t, exec .coldStart s = .next t ∧ t = { s with agenda := t.agenda } ∧ t.Due (s.now + Config.bootCycles) .coldStart [1]) ∧
    (s.ev = [1] → Config.imageVerifies = false → exec .coldStart s = .next { s with bootstat := 2 }) ∧
    (s.ev = [1] → Config.imageVerifies = true → ∃ t, exec .coldStart s = .next t ∧ t = { s with agenda := t.agenda } ∧ t.Due (s.now + 180000) .coldStart [2]) ∧
    (s.ev = [2] → Config.selfTestPasses s.free = false → exec .coldStart s = .next { s with bootstat := 3, free := s.free + 4 }) ∧
    (s.ev = [2] → Config.selfTestPasses s.free = true → ∃ t, exec .coldStart s = .next t ∧ t.Due (s.now + 60000) .coldStart [3] ∧
      ∀ d < 4, 0 < d → Config.selfTestPasses (s.free + d) = false → (t.die d).state = .offline ∧ (t.die d).failed = true) ∧
    (s.ev = [3] → exec .coldStart s = .next { s with bootstat := 1, time := BitVec.ofNat 64 (2 ^ 32 + Config.bootNs) })) ∧
  (∀ (s : State) v, s.ev = [v] →
    let level := if 120 ≤ v then 4 else if 80 ≤ v then 3 else if 50 ≤ v then 2 else if 30 ≤ v then 1 else 0
    let bound (n : Nat) : Nat := match n with | 0 => 0 | 1 => 30 | 2 => 50 | 3 => 80 | _ => 120
    (∃ t, exec .supplySag s = .next t ∧ t.sag = v ∧ t.stretch = max s.stretch level ∧ t.waves = s.waves ∧ s.SameMemory t) ∧
    (s.stretchStamp = v → 0 < s.stretch → s.sag + 10 ≤ bound s.stretch → ∃ t, exec .stretchFall s = .next t ∧ t.stretch = s.stretch - 1) ∧
    (s.stretchStamp ≠ v ∨ s.stretch = 0 ∨ bound s.stretch < s.sag + 10 → exec .stretchFall s = .next s)) ∧
  (∀ (s : State) n c, s.ev = [n, c] → c < 115 → ∃ t, exec .temperatureSensor s = .next t ∧ Map.get 0 t.temps n = c ∧ t.stopped = s.stopped ∧ (105 ≤ c → t.hot = true ∧ 3 ≤ t.level)) ∧
  (∀ (s : State) n c, s.ev = [n, c] → 115 ≤ c → ∃ t, exec .temperatureSensor s = .next t ∧ t.stopped = true ∧ t.fatal = true ∧ ∀ d < 4, (t.die d).failed = true) ∧
  ∀ s : State, ∃ t, exec .attestationReport s = .next t ∧ t = { s with attReady := true, attCount := s.attCount + 1, attRep := t.attRep } ∧
    (∀ k < 32, Memory.read t.attRep (8 + k) = Memory.read s.attNonce k) ∧ (∀ k < 48, Memory.read t.attRep (40 + k) = Config.measureByte k) ∧
    (∀ i < 8, Memory.read t.attRep (96 + i) = BitVec.ofNat 8 (s.featack.toNat / 2 ^ (8 * i))) ∧ ∀ i < 8, Memory.read t.attRep (104 + i) = BitVec.ofNat 8 (s.time.toNat / 2 ^ (8 * i))

/-! Where the events of links, launches and the host complete. -/

/-- Where each event of a link, of a queue, of a launch, of a swap and of the host completes: under conditions on the state and the operands alone `exec` answers the next state in
which the event has had its effect (R34, R186, R192, R207, R208, R210 to R212, R214, R218, R275, R306, R313, R317, R334, R337 to R354, R369, R384 to R387, R391 to R394, R399 to R403,
R409 to R414, R417, R421, R422). Log entries 31, 33, 39, 42, 58, 59, 61, 63, 64, 66, 69, 78, 80, 81, 89: the model's own readings in it. -/
def Obligations.EventsComplete : Prop :=
  -- links
  (∀ (s : State) id r l, s.ev = [id] → s.req? id = some r → r.link = some l → r.write = true → s.home (l / 72) (128 * r.line) = l / 72 →
    (Map.get [] (s.link l).queues r.group).length < 64 →
    ∃ t, exec .drawerRequest s = .next t ∧ Map.get [] (t.link l).queues r.group = Map.get [] (s.link l).queues r.group ++ [id]) ∧
  (∀ (s : State) l id r e, s.ev = [l] →
    let k := s.link l
    let n := swathFrom k s.now
    k.up = true → k.next ≤ n + 1 → beatOf k (40 * n) = s.now → k.sent = [] → LiveEntry k n e → OldestAllowed s (Map.get [] k.queues (e.toNat / 2 ^ 7 % 16)) e true (some id) →
    OldestAllowed s (Map.get [] k.queues (e.toNat / 2 ^ 7 % 16)) e false none → (∀ p ∈ s.reqs, p.2.back = none ∧ ∀ w a i, .own w a i ∉ p.2.waiters) →
    s.req? id = some r → r.line < 2 ^ 45 →
    ∃ t, exec .outboundSwath s = .next t ∧ t.req? id = some { r with swath := some n, performed := true } ∧ (t.link l).sent = [(n, [id])]) ∧
  (∀ (s : State) l n i r, s.ev = [l, n, 0] → (s.link l).sent = [(n, [i])] → s.req? i = some r → r.write = true → r.swath = some n → r.waiters = [] →
    beatOf (s.link l) (40 * (n + (if r.far then 448 else 192)) + 7) ≤ s.now →
    ∃ t, exec .inboundSwath s = .next t ∧ t = { s with links := t.links, reqs := t.reqs } ∧ t.req? i = none ∧ (t.link l).sent = []) ∧
  (∀ (s : State) l, s.ev = [l] →
    let k := s.link l
    (frameFrom k s.now = s.now → k.swstat = 1 → k.commit ≤ swathFrom k s.now →
      ∃ t, exec .frameBoundary s = .next t ∧ (t.link l).table = k.shadow ∧ (t.link l).swstat = 2) ∧
    (k.state = .retrain → k.retrainTill = some s.now → ∃ t, exec .handBack s = .next t ∧ (t.link l).width = 8 ∧ (t.link l).state = .run) ∧
    (k.state = .run ∨ k.state = .retrain ∨ k.state = .waking → ∃ t, exec .channelFailure s = .next t ∧ (t.link l).state = .down ∧ (t.link l).width = 8 ∧
      t.Due (s.now + 60000) .fullRetrainEnd [l]) ∧
    (k.state = .down → k.crossings = [] → ∃ t, exec .fullRetrainEnd s = .next t ∧ t.link l = ({ k with state := .run, downSince := none } : Link)) ∧
    (k.wakeTill = some s.now → ∃ t, exec .wakeEnd s = .next t ∧ t.Due (max s.now (frameFrom k s.now)) .frameBoundary [l]) ∧
    (l % 72 < 64 → ¬TableRefused s l → ∃ t, exec .swcommit s = .next t ∧ (t.link l).swstat = 1 ∧ (t.link l).table = k.table ∧
      t.Due (max s.now (frameFrom k (s.now + 1))) .frameBoundary [l])) ∧
  (∀ (s : State) l w, s.ev = [l, w] → (∃ t, exec .fecWindowEnd s = .next t ∧ Map.get 0 (t.link l).fecPrv w = Map.get 0 (s.link l).fecCnt w ∧ Map.get 0 (t.link l).fecCnt w = 0) ∧
    (∀ c d i rest, w = 16 → (s.link l).crossings = (c, d, i) :: rest → (s.link l).retrainTill = some (s.now + 90000) → (s.link l).width = 8 → (s.link l).state = .run →
      ∃ t, exec .retrainStart s = .next t ∧ (t.link l).width = 7 ∧ (t.link l).state = .retrain ∧ (t.link l).rtwl = i ∧ (t.link l).rtdir = d ∧
        t.Due (s.now + 90000) .handBack [l])) ∧
  (∀ (s : State) l auto, s.ev = [l, auto] → (s.link l).wakeTill = none → (s.link l).state = .run → (s.link l).width ≠ 8 →
    auto = 1 ∨ (∃ w, (s.link l).want = some w ∧ (s.link l).width < w) →
    ∃ t, exec .autoWake s = .next t ∧ (t.link l).state = .waking ∧ t.Due (s.now + 4608) .wakeEnd [l]) ∧
  (∀ (s : State) w k x a c, s.ev = [w, k] → s.wave? w = some x → Map.find? x.accs k = some a → a.stalled = false → (∀ p ∈ x.accs, p.1 < k → p.2.open = false) → x.traps = [] →
    a.downFrom = some c → (s.part x.part).lnkstall.toNat ≠ 0 → (s.part x.part).lnkstall.toNat < a.downSum + (s.now - c) →
    ∃ t y, exec .linkStall s = .next t ∧ t.wave? w = some y ∧ y.traps = [⟨0x0E, 0, 0, Map.get 0 a.addr (lowestOf a.lanes), none, false⟩]) ∧
  (∀ (s : State) l v, s.ev = [l, v] → v < 1024 → v % 4 ≠ 3 → v = 0 ∨ s.featack.getLsbD 7 = true → (s.link l).wakeTill = none →
    (∀ p ∈ s.agenda, p.2.1 ≠ .autoWake) → ∃ t, exec .lctl s = .next t ∧ (t.link l).lctl.toNat = v ∧ (t.link l).width = (s.link l).width) ∧
  (∀ (s : State) l dir v, s.ev = [l, dir, v] → v < 2 ^ 24 → (s.link l).width ∈ [2, 4, 7, 8] → ∃ t, exec .berthr s = .next t ∧
    (t.link l).berI = (if dir = 1 then BitVec.ofNat 32 v else (s.link l).berI) ∧ (t.link l).berO = (if dir = 1 then (s.link l).berO else BitVec.ofNat 32 v)) ∧
  (∀ (s : State) d e h, s.ev = [d, e, h] → ∃ t, exec .homeTableUpdate s = .next t ∧ ∀ pa, t.home d pa = if pa / 4096 % 4 = e then h else s.home d pa) ∧
  -- queues
  (∀ (s : State) id r o c, s.ev = id :: 3 :: r → Map.find? s.qops id = some o → QueueUnheld s o →
    let d := o.handle.toNat / 2 ^ 32 % 4
    let p := o.handle.toNat / 2 ^ 34 % 16
    let idx := o.handle.toNat % 2 ^ 20
    s.queuesOffline d = false → idx < (s.part p).qtlen.toNat → Map.find? (s.die d).qctx (qkey p idx) = some c → (s.die d).qctx.length < 1024 →
    c.ctl.getLsbD 8 = true → c.ctl.toNat / 2 ^ 13 % 2 ^ 12 = o.handle.toNat / 2 ^ 20 % 2 ^ 12 → c.ctl.toNat / 2 ^ 25 % 4 = d → o.handle.getLsbD 48 = false →
    c.ctl.toNat / 2 ^ 9 % 16 = o.part ∨ c.allow.getLsbD o.part = true → s.opReady o d c = (0, s) →
    (o.kind = .avail → ∃ t, exec .queueControllerOp s = .next t ∧ QueueAnswered s t id o (if c.tail = c.head then 1 else 0) (c.tail - c.head)) ∧
    (o.kind = .claim → (c.claim - c.head + BitVec.ofNat 32 o.count).toNat ≤ 2 ^ (c.ctl.toNat % 32) → (c.claim - c.tail + BitVec.ofNat 32 o.count).toNat ≤ 32 →
      ∃ t, exec .queueControllerOp s = .next t ∧ QueueAnswered s t id o 0 c.claim) ∧
    (o.kind = .enq → (∀ f ∈ o.forms, FormValid c ((f.getD 0 0).toNat % 256)) → (c.claim - c.head + BitVec.ofNat 32 o.forms.length).toNat ≤ 2 ^ (c.ctl.toNat % 32) →
      (c.claim - c.tail + BitVec.ofNat 32 o.forms.length).toNat ≤ 32 → ∃ t, exec .queueControllerOp s = .next t ∧ QueueAnswered s t id o 0 c.claim)) ∧
  (∀ (s : State) id o w x, s.ev = [id] → Map.find? s.qops id = some o → o.wave = some w → o.unit = .qu → o.launch = none → o.cmd = none → o.door = false →
    o.peer = none → s.wave? w = some x → (∀ l < 32, o.lanes.getLsbD l = true → Map.get 0 x.ctx.last (32 * unitCode .qu + l) = o.op) → x.inject = [] →
    ∃ t y, exec .queueAnswer s = .next t ∧ t.wave? w = some y ∧ Map.find? t.qops id = none ∧ ∀ l < 32, o.lanes.getLsbD l = true →
      y.ctx.reg (portVec .qu .res) l = o.res ∧ y.ctx.reg (portVec .qu .st) l = o.st) ∧
  (∀ (s : State) w k tail p idx head x c, s.ev = [w, k, tail, p, idx, head] → s.wave? w = some x → x.win = none → x.trap = none →
    let h := x.ctx.head k
    h.bound = true → h.wait = 0 → (p, idx, w, k) ∈ s.bound → Map.find? (s.die (h.handle.toNat / 2 ^ 32 % 4)).qctx (qkey p idx) = some c → h.pos = c.head →
    let n := min 32 (BitVec.ofNat 32 tail - BitVec.ofNat 32 head).toNat - (h.pos - BitVec.ofNat 32 head).toNat
    h.recs.length < n → ∃ t y, exec .latchRefill s = .next t ∧ t.wave? w = some y ∧
      y.ctx.head k = { h with recs := (s.recordsOf (h.handle.toNat / 2 ^ 32 % 4) c n).1 }) ∧
  -- launches, placement and swaps
  (∀ (s : State) p a d, s.ev = [p, a, d] → a < 2 ^ 64 → s.featack.getLsbD 0 = true → ∃ t, exec .lqdoor s = .next t ∧ QueuesOp s t { QuOp.blank with
    kind := .enq, handle := (s.part p).lqh, part := p, count := 1, forms := [[7, BitVec.ofNat 32 a, BitVec.ofNat 32 (a / 2 ^ 32), 0]], door := true }) ∧
  (∀ (s : State) p a b, s.ev = [p, 3, a] → s.devRead (s.acceptor p) p a 256 = some b → recordBad s.featack a b (readRecord b) = false →
    (readRecord b).prio ≤ (s.part p).psched.toNat % 4 → (readRecord b).cohort = false → ∃ t l, exec .launchAccept s = .next t ∧ t.launch? s.nextId = some l ∧
      l.lrec = readRecord b ∧ l.left = (readRecord b).teams ∧ l.status = 0 ∧ ∀ d < 4, t.Due (s.now + 180 * ringDist (s.acceptor p) d) .launchDistribution [d, s.nextId, 0]) ∧
  (∀ (s : State) d l x, s.ev = [d, l, 0] → s.launch? l = some x → (x.lrec.teams + 3 - d) / 4 ≠ 0 → (s.die d).state = .run → ∃ t i, exec .launchDistribution s = .next t ∧
    (t.die d).items = (s.die d).items ++ [i] ∧ i.launch = l ∧ i.count = (x.lrec.teams + 3 - d) / 4 ∧ i.next = d ∧ i.step = 4) ∧
  (∀ (s : State) d, s.ev = [d] → ∃ t, exec .stealRequest s = .next t ∧ (t.die d).stealing = some ((d + 1) % 4)) ∧
  (∀ (s : State) d v n (i : Item), s.ev = [d, v, n] ++ i.code → (s.die d).state = .run → ∃ t, exec .stealAnswer s = .next t ∧ (t.die d).stealing = none ∧
    (t.die d).items = (s.die d).items ++ [{ i with since := s.now }]) ∧
  (∀ (s : State) d b x l, s.ev = [d, b] → Map.find? (s.die d).bins b = some x → s.launch? x.launch = some l → ∃ t tm, exec .binTimeout s = .next t ∧
    Map.find? (t.die d).bins b = none ∧ t.team? s.nextId = some tm ∧ tm.task = true ∧ tm.threads = x.threads ∧ t.Due (s.now + 8) .taskWavePending [d, s.nextId]) ∧
  (∀ (s : State) d k th, s.ev = [d, k] → Map.get [] (s.die d).threads k = [th] → (s.die d).bins = [] → th.flush = false → ∃ t x, exec .spawnBinArrival s = .next t ∧
    Map.find? (t.die d).bins (s.die d).nextBin = some x ∧ x.entry = th.entry ∧ x.threads = [th.words]) ∧
  (∀ (s : State) d id tm, s.ev = [d, id] → s.team? id = some tm → (s.die d).state = .run → ∃ t i, exec .taskWavePending s = .next t ∧
    (t.die d).items = (s.die d).items ++ [i] ∧ i.team = some id ∧ i.task = true) ∧
  (∀ (s : State) id l, s.ev = [id] → s.launch? id = some l → (l.lrec.complq = 0 → ∃ t, exec .launchComplete s = .next t ∧ t.launch? id = none) ∧
    ∃ t k, exec .completionRetry s = .next t ∧ t.qop? s.nextId = some k ∧ k.kind = .device ∧ k.handle = l.lrec.complq ∧ k.launch = some id) ∧
  (∀ (s : State) p c g, s.ev = [p, c, g, 3] → (∀ d < 4, (s.die d).frozen = 0) → ∃ t, exec .resize s = .next t ∧ (t.clover c).table = [] ∧ t.Due (s.now + 3072) .resize [p, c, g, 4]) ∧
  (∀ (s : State) d i l ld g, s.ev = [d] → (s.die d).state = .run → (s.die d).frozen = 0 → (s.die d).items = [i] → i.team = none → i.step ≠ 0 → i.task = false → i.ready ≤ s.now →
    s.launch? i.launch = some l → l.lrec.backed = false ∨ l.lrec.scratch = 0 → (s.die d).rr < 96 →
    ChosenCore (s.loads l.part d) (s.die d).rr l.lrec.waves (l.lrec.scratch / 128) ld g →
    ∃ t tm, exec .placement s = .next t ∧ t.team? s.nextId = some tm ∧ tm.state = .resident ∧ tm.core = ld.core ∧ tm.number = BitVec.ofNat 32 i.next) ∧
  (∀ (s : State) d (i : Item), s.ev = d :: i.code → i.team = none → (s.die d).state = .run → ∃ t, exec .teamTransfer s = .next t ∧
    (t.die d).items = (s.die d).items ++ [{ i with since := s.now }]) ∧
  (∀ (s : State) id tm l, s.team? id = some tm → s.launch? tm.launch = some l →
    (s.ev = [id, 1] → ∃ t x, exec .teamSwap s = .next t ∧ t.team? id = some x ∧ x.stage = 1 ∧ x.saved = tm.slots.map fun p => (p.1, (s.wave p.2).mapCtx Ctx.dropRecords)) ∧
    (∀ f, s.ev = [id, 4, f] → ∃ t, exec .teamSwap s = .next t ∧ t.Due (s.now + (72 + 544 * tm.waves)) .teamSwap [id, 2]) ∧
    (s.ev = [id, 0] → tm.window = [] → tm.scratch ≤ 128 → tm.state = .moving → (s.devFlips (tm.core / 96) l.part (l.lrec.window tm.number.toNat) 128) = false →
      ∃ t, exec .scratchpadWriteBack s = .next t ∧ t.team? id = none) ∧
    (∀ z, s.ev = [id, z] → tm.deadline = some z → ∃ t, exec .yieldDeadline s = .next t ∧ t.team? id = some { tm with past := true }) ∧
    (∀ n c, s.ev = [id] → FreeArea s tm l n c → ∃ t x, exec .waitSwap s = .next t ∧ t.team? id = some x ∧ x.state = .swapping)) ∧
  -- the host
  (∀ (s : State) id r, s.ev = [id, 2, 0] → Map.find? s.host id = some r → r.write = false → r.bytes = [] → PlainBytes s r.addr r.len → ∃ t z, exec .hostAccess s = .next t ∧
    Map.find? t.host id = some z ∧ z.answer = some ((List.range r.len).map (fun i => s.byte (r.addr + i)), r.poison || (s.line (r.addr / 128)).poison, false)) ∧
  (∀ (s : State) p v h g a, s.ev = [p, v, h, 0] → h < 2 → (s.walk p (v * 2 ^ 16)).out = .page g → (s.walk p (v * 2 ^ 16)).reads.getLast? = some a → g.flip = false → s.flips = [] →
    ¬(g.hb = true ↔ h = 1) → (∀ i < 8, s.scratchAt (a + i) = none) → (∀ w, Writable s (s.home 0 a) (a / 128) (decide (2 ^ 51 ≤ a)) w) → Untracked s (a / 128) →
    ∃ t, exec .biasFlip s = .next t ∧ t.read a 8 = s.read a 8 ||| 2048 ∧ t.Due s.now .biasFlip [p, v, h, 1]) ∧
  (∀ (s : State) n, s.ev = [1, n] → ∃ t, exec .softError s = .next t ∧ t.line n = { s.line n with poison := true }) ∧
  (∀ (s : State) v, s.ev = [v] → (s.featSet = false → exec .featack s = .next { s with featack := BitVec.ofNat 64 (v % 2 ^ 12), featSet := true }) ∧
    (v % 2 = 1 → ∃ t, exec .attctl s = .next t ∧ t.attReady = false ∧ t.Due (s.now + Config.attestCycles s.attCount) .attestationReport [])) ∧
  (∀ (s : State) p k v, s.ev = [p, k, v] → (∀ q < 16, q ≠ p → ∀ j < 8, (s.part q).windowLim j < (s.part q).windowBase j) →
    let b := v / 2 ^ 16 % 2 ^ 36 * 2 ^ 16
    (∃ t, exec .mwbase s = .next t ∧ (t.part p).windowBase k = b) ∧ ∃ t, exec .mwlim s = .next t ∧ (t.part p).windowLim k = b) ∧
  (∀ (s : State) p v, s.ev = [p, v] → (s.part p).accepting = false → s.launches = [] → (∀ d < 4, (s.die d).failed = false) →
    (∃ t, exec .clvlo s = .next t ∧ ∀ i < 96, (t.part p).clovers.getLsbD i = if i < 64 then v.testBit i else (s.part p).clovers.getLsbD i) ∧
    ∃ t, exec .clvhi s = .next t ∧ ∀ i < 96, (t.part p).clovers.getLsbD i = if i < 64 then (s.part p).clovers.getLsbD i else v.testBit (i - 64)) ∧
  (∀ (s : State) v, s.ev = [v] → v < 512 → s.msixMasked = false → ∃ t, exec .msixUnmask s = .next t ∧ t.msixMask v = false) ∧
  ∀ (s : State) p v d, s.ev = [0x10000 * (p + 1) + 8, v, d] → p < 16 → v < 2 ^ 64 → s.bootstat = 1 → ∃ t, exec .registerWrite s = .next t ∧ (t.part p).lqh = BitVec.ofNat 64 v
end

