-- ==== Sys2Proof/Laws/Map.lean ====
section
/-! SUPPORT. The laws of the sparse tables: reading after a write, and that every write keeps the canonical form. -/
namespace Sys2Proof.Map

variable {α : Type}

@[simp] theorem get_nil (d : α) (i : Nat) : get d ([] : Map α) i = d := rfl
@[simp] theorem find?_nil (i : Nat) : find? ([] : Map α) i = none := rfl
theorem get_cons (d : α) (p : Nat × α) (m : Map α) (i : Nat) : get d (p :: m) i = if p.1 = i then p.2 else get d m i := rfl
theorem find?_cons (p : Nat × α) (m : Map α) (i : Nat) : find? (p :: m) i = if p.1 = i then some p.2 else find? m i := rfl

/-- Reading is finding, with the default for a key that is not listed. -/
theorem get_eq_find? (d : α) (m : Map α) (i : Nat) : get d m i = (find? m i).getD d := by
  induction m with
  | nil => rfl
  | cons p m ih => rw [get_cons, find?_cons]; split <;> simp [*]

@[simp] theorem find?_erase (m : Map α) (i j : Nat) : find? (erase m i) j = if j = i then none else find? m j := by
  induction m with
  | nil => simp [erase]
  | cons p m ih =>
    unfold erase at ih ⊢
    rw [find?_cons, List.filter_cons]
    by_cases hp : p.1 = i
    · have : (p.1 != i) = false := by simp [hp]
      rw [this, if_neg (by simp), ih]
      by_cases hj : j = i
      · rw [if_pos hj, if_pos hj]
      · have h2 : ¬ p.1 = j := by omega
        rw [if_neg hj, if_neg hj, if_neg h2]
    · have : (p.1 != i) = true := by simp [hp]
      rw [this, if_pos rfl, find?_cons, ih]
      by_cases hj : p.1 = j
      · have : ¬ j = i := by omega
        rw [if_pos hj, if_neg this, if_pos hj]
      · rw [if_neg hj, if_neg hj]

/-- Inserting a key that is not listed. -/
theorem find?_ins (m : Map α) (i : Nat) (v : α) (j : Nat) (h : find? m i = none) :
    find? (ins i v m) j = if j = i then some v else find? m j := by
  induction m with
  | nil =>
    rw [ins, find?_cons, find?_nil]
    exact if_congr eq_comm rfl rfl
  | cons p m ih =>
    obtain ⟨k, x⟩ := p
    rw [find?_cons] at h
    have hk : ¬ k = i := by intro e; simp [e] at h
    have hm : find? m i = none := by simpa [hk] using h
    unfold ins
    by_cases hlt : i < k
    · rw [if_pos hlt, find?_cons]
      exact if_congr eq_comm rfl rfl
    · rw [if_neg hlt, find?_cons, find?_cons, ih hm]
      by_cases hj : k = j
      · have : ¬ j = i := by omega
        rw [if_pos hj, if_neg this, if_pos hj]
      · rw [if_neg hj, if_neg hj]

@[simp] theorem find?_put (m : Map α) (i : Nat) (v : α) (j : Nat) : find? (put m i v) j = if j = i then some v else find? m j := by
  unfold put
  rw [find?_ins _ _ _ _ (by simp), find?_erase]
  split <;> rfl

@[simp] theorem get_put (d : α) (m : Map α) (i : Nat) (v : α) (j : Nat) : get d (put m i v) j = if j = i then v else get d m j := by
  rw [get_eq_find?, find?_put, get_eq_find?]; split <;> rfl

@[simp] theorem get_erase (d : α) (m : Map α) (i j : Nat) : get d (erase m i) j = if j = i then d else get d m j := by
  rw [get_eq_find?, find?_erase, get_eq_find?]; split <;> rfl

@[simp] theorem get_set [DecidableEq α] (d : α) (m : Map α) (i : Nat) (v : α) (j : Nat) :
    get d (set d m i v) j = if j = i then v else get d m j := by
  unfold set
  split
  · rename_i h; simp [h]
  · simp

/-- The keys of a table stand in rising order. -/
def sorted (m : Map α) : Prop := m.Pairwise fun a b => a.1 < b.1

theorem sorted_erase {m : Map α} (h : sorted m) (i : Nat) : sorted (erase m i) := List.Pairwise.filter _ h

theorem mem_ins {m : Map α} {i : Nat} {v : α} {p : Nat × α} : p ∈ ins i v m ↔ p = (i, v) ∨ p ∈ m := by
  induction m with
  | nil => simp [ins]
  | cons q m ih =>
    obtain ⟨k, x⟩ := q
    unfold ins
    split
    · simp
    · simp only [List.mem_cons, ih]; tauto

theorem sorted_ins {m : Map α} (h : sorted m) {i : Nat} (v : α) (hi : ∀ p ∈ m, p.1 ≠ i) : sorted (ins i v m) := by
  induction m with
  | nil => simp [ins, sorted]
  | cons q m ih =>
    obtain ⟨k, x⟩ := q
    have hk : k ≠ i := hi (k, x) (by simp)
    obtain ⟨h1, h2⟩ := List.pairwise_cons.mp h
    unfold ins
    split
    · rename_i hlt
      refine List.pairwise_cons.mpr ⟨?_, h⟩
      intro p hp
      rcases List.mem_cons.mp hp with rfl | hp
      · exact hlt
      · exact Nat.lt_trans hlt (h1 p hp)
    · rename_i hlt
      refine List.pairwise_cons.mpr ⟨?_, ih h2 fun p hp => hi p (by simp [hp])⟩
      intro p hp
      rcases mem_ins.mp hp with rfl | hp
      · simp only; omega
      · exact h1 p hp

theorem sorted_put {m : Map α} (h : sorted m) (i : Nat) (v : α) : sorted (put m i v) := by
  refine sorted_ins (sorted_erase h i) v fun p hp => ?_
  simp only [erase, List.mem_filter, bne_iff_ne] at hp
  exact hp.2

variable [DecidableEq α]

theorem wf_iff {d : α} {m : Map α} : wf d m = true ↔ sorted m ∧ ∀ p ∈ m, p.2 ≠ d := by
  simp [wf, sorted]

@[simp] theorem wf_nil (d : α) : wf d ([] : Map α) = true := by simp [wf_iff, sorted]

theorem wf_erase {d : α} {m : Map α} (h : wf d m = true) (i : Nat) : wf d (erase m i) = true := by
  obtain ⟨h1, h2⟩ := wf_iff.mp h
  refine wf_iff.mpr ⟨sorted_erase h1 i, fun p hp => h2 p ?_⟩
  exact (List.mem_filter.mp hp).1

theorem wf_put {d : α} {m : Map α} (h : wf d m = true) (i : Nat) {v : α} (hv : v ≠ d) : wf d (put m i v) = true := by
  obtain ⟨h1, h2⟩ := wf_iff.mp h
  refine wf_iff.mpr ⟨sorted_put h1 i v, fun p hp => ?_⟩
  rcases mem_ins.mp hp with rfl | hp
  · exact hv
  · exact h2 p (List.mem_filter.mp hp).1

/-- Setting a key keeps the canonical form. -/
theorem wf_set {d : α} {m : Map α} (h : wf d m = true) (i : Nat) (v : α) : wf d (set d m i v) = true := by
  unfold set
  split
  · exact wf_erase h i
  · rename_i hv; exact wf_put h i hv

/-- In canonical form a table is what it reads as. -/
theorem ext_of_get {d : α} {m n : Map α} (hm : wf d m = true) (hn : wf d n = true) (h : ∀ i, get d m i = get d n i) : m = n := by
  have key : ∀ {m : Map α}, wf d m = true → ∀ i v, (i, v) ∈ m ↔ (get d m i = v ∧ v ≠ d) := by
    intro m hm i v
    obtain ⟨hs, hd⟩ := wf_iff.mp hm
    induction m with
    | nil => simp only [List.not_mem_nil, get_nil, false_iff, not_and, not_not]; exact fun e => e.symm
    | cons p m ih =>
      obtain ⟨k, x⟩ := p
      obtain ⟨h1, h2⟩ := List.pairwise_cons.mp hs
      have hd' : ∀ p ∈ m, p.2 ≠ d := fun p hp => hd p (by simp [hp])
      have ih := ih (wf_iff.mpr ⟨h2, hd'⟩) h2 hd'
      rw [List.mem_cons, get_cons]
      by_cases e : k = i
      · subst e
        simp only [if_true, Prod.mk.injEq, true_and]
        constructor
        · rintro (rfl | hmem)
          · exact ⟨rfl, hd (k, v) (by simp)⟩
          · have := h1 _ hmem; simp at this
        · rintro ⟨rfl, -⟩; exact .inl rfl
      · simp only [e, if_false]
        rw [← ih]
        constructor
        · rintro (hh | hh)
          · exact absurd (Prod.mk.inj hh).1.symm e
          · exact hh
        · exact .inr
  have hmem : ∀ p, p ∈ m ↔ p ∈ n := by
    rintro ⟨i, v⟩
    rw [key hm, key hn, h]
  obtain ⟨hsm, -⟩ := wf_iff.mp hm
  obtain ⟨hsn, -⟩ := wf_iff.mp hn
  have nd : ∀ {m : Map α}, sorted m → m.Nodup := fun hs => hs.imp (fun {a b} hab e => by subst e; exact Nat.lt_irrefl _ hab)
  refine List.Perm.eq_of_pairwise ?_ hsm hsn ((List.perm_ext_iff_of_nodup (nd hsm) (nd hsn)).mpr hmem)
  intro a b _ _ h1 h2
  exact absurd (Nat.lt_trans h1 h2) (Nat.lt_irrefl _)

end Sys2Proof.Map
end

