-- ==== Sys2Proof/Laws/Memory.lean ====
section
/-! SUPPORT. The laws of memory: reading after a write, the canonical form, and bytes as numbers. -/
namespace Sys2Proof.Machine

/-- Reading a byte after writing one. -/
@[simp] theorem Memory.read_write (m : Memory) (a : Nat) (b : BitVec 8) (c : Nat) :
    (m.write a b).read c = if c = a then b else m.read c := by simp [Memory.read, Memory.write]

@[simp] theorem Memory.read_nil (a : Nat) : Memory.read [] a = emptyByte := rfl
@[simp] theorem Memory.wf_nil : Memory.wf [] = true := by simp [Memory.wf]

/-- A write keeps the canonical form. -/
theorem Memory.wf_write {m : Memory} (h : m.wf = true) (a : Nat) (b : BitVec 8) : (m.write a b).wf = true := Map.wf_set h a b

/-- Writing consecutive bytes keeps the canonical form. -/
theorem Memory.wf_writeAll {m : Memory} (h : m.wf = true) (a : Nat) (bs : List (BitVec 8)) : (m.writeAll a bs).wf = true := by
  induction bs generalizing m a with
  | nil => exact h
  | cons b t ih => exact ih (Memory.wf_write h a b) (a + 1)

/-- Reading after consecutive bytes were written. -/
theorem Memory.read_writeAll (m : Memory) (a : Nat) (bs : List (BitVec 8)) (c : Nat) :
    (m.writeAll a bs).read c = if a ≤ c ∧ c < a + bs.length then bs.getD (c - a) 0 else m.read c := by
  induction bs generalizing m a with
  | nil => simp only [Memory.writeAll, List.length_nil, Nat.add_zero]; rw [if_neg (by omega)]
  | cons b t ih =>
    simp only [Memory.writeAll, List.length_cons, ih, Memory.read_write]
    by_cases h1 : c = a
    · subst h1
      rw [if_neg (by omega), if_pos rfl, if_pos (by omega)]
      simp
    · rw [if_neg h1]
      by_cases h2 : a + 1 ≤ c ∧ c < a + 1 + t.length
      · rw [if_pos h2, if_pos (by omega)]
        have : c - a = (c - (a + 1)) + 1 := by omega
        rw [this, List.getD_cons_succ]
      · rw [if_neg h2, if_neg (by omega)]

/-- In canonical form a memory is what it reads as. -/
theorem Memory.ext_of_read {m n : Memory} (hm : m.wf = true) (hn : n.wf = true) (h : ∀ a, m.read a = n.read a) : m = n :=
  Map.ext_of_get hm hn h

/-- Replacing a stretch by canonical cells of the same stretch keeps the canonical form. -/
theorem Memory.wf_splice {m : Memory} (h : m.wf = true) {pa n : Nat} {cells : List Host.Cell} (hc : Memory.wf cells = true)
    (hin : ∀ c ∈ cells, pa ≤ c.1 ∧ c.1 < pa + n) : (Memory.splice m pa n cells).wf = true := by
  obtain ⟨hs, hd⟩ := Map.wf_iff.mp h
  obtain ⟨cs, cd⟩ := Map.wf_iff.mp hc
  refine Map.wf_iff.mpr ⟨?_, ?_⟩
  · unfold Memory.splice Map.sorted
    rw [List.append_assoc]
    refine List.pairwise_append.mpr ⟨List.Pairwise.filter _ hs, List.pairwise_append.mpr ⟨cs, List.Pairwise.filter _ hs, ?_⟩, ?_⟩
    · intro a ha b hb
      have h1 := hin a ha
      have h2 := (List.mem_filter.mp hb).2
      simp only [decide_eq_true_eq] at h2
      omega
    · intro a ha b hb
      have h1 := (List.mem_filter.mp ha).2
      simp only [decide_eq_true_eq] at h1
      rcases List.mem_append.mp hb with hb | hb
      · have := hin b hb; omega
      · have h2 := (List.mem_filter.mp hb).2
        simp only [decide_eq_true_eq] at h2
        omega
  · intro p hp
    simp only [Memory.splice, List.append_assoc, List.mem_append] at hp
    rcases hp with hp | hp | hp
    · exact hd p (List.mem_filter.mp hp).1
    · exact cd p hp
    · exact hd p (List.mem_filter.mp hp).1

/-- The number of a list of bytes is below the power of 256 of its length. -/
theorem ofBytes_lt (bs : List (BitVec 8)) : ofBytes bs < 256 ^ bs.length := by
  induction bs with
  | nil => simp [ofBytes]
  | cons b t ih =>
    simp only [ofBytes, List.length_cons, pow_succ]
    have := b.isLt
    omega

end Sys2Proof.Machine
end

