-- ==== Sys2Proof/Laws/State.lean ====
section
/-! SUPPORT. What each update of the state leaves alone, field by field, and what is read after it. -/
namespace Sys2Proof.Machine

@[simp] theorem State.setWave_now (s : State) (w : Nat) (x : Wave) : (s.setWave w x).now = s.now := rfl
@[simp] theorem State.setWave_agenda (s : State) (w : Nat) (x : Wave) : (s.setWave w x).agenda = s.agenda := rfl
@[simp] theorem State.setWave_ev (s : State) (w : Nat) (x : Wave) : (s.setWave w x).ev = s.ev := rfl
@[simp] theorem State.setWave_cur (s : State) (w : Nat) (x : Wave) : (s.setWave w x).cur = s.cur := rfl
@[simp] theorem State.setWave_teams (s : State) (w : Nat) (x : Wave) : (s.setWave w x).teams = s.teams := rfl
@[simp] theorem State.setWave_launches (s : State) (w : Nat) (x : Wave) : (s.setWave w x).launches = s.launches := rfl
@[simp] theorem State.setWave_nextId (s : State) (w : Nat) (x : Wave) : (s.setWave w x).nextId = s.nextId := rfl
@[simp] theorem State.setWave_cores (s : State) (w : Nat) (x : Wave) : (s.setWave w x).cores = s.cores := rfl
@[simp] theorem State.setWave_clovers (s : State) (w : Nat) (x : Wave) : (s.setWave w x).clovers = s.clovers := rfl
@[simp] theorem State.setWave_dies (s : State) (w : Nat) (x : Wave) : (s.setWave w x).dies = s.dies := rfl
@[simp] theorem State.setWave_links (s : State) (w : Nat) (x : Wave) : (s.setWave w x).links = s.links := rfl
@[simp] theorem State.setWave_parts (s : State) (w : Nat) (x : Wave) : (s.setWave w x).parts = s.parts := rfl
@[simp] theorem State.setWave_mem (s : State) (w : Nat) (x : Wave) : (s.setWave w x).mem = s.mem := rfl
@[simp] theorem State.setWave_drawer (s : State) (w : Nat) (x : Wave) : (s.setWave w x).drawer = s.drawer := rfl
@[simp] theorem State.setWave_lines (s : State) (w : Nat) (x : Wave) : (s.setWave w x).lines = s.lines := rfl
@[simp] theorem State.setWave_qops (s : State) (w : Nat) (x : Wave) : (s.setWave w x).qops = s.qops := rfl
@[simp] theorem State.setWave_cmds (s : State) (w : Nat) (x : Wave) : (s.setWave w x).cmds = s.cmds := rfl
@[simp] theorem State.setWave_reqs (s : State) (w : Nat) (x : Wave) : (s.setWave w x).reqs = s.reqs := rfl
@[simp] theorem State.setWave_host (s : State) (w : Nat) (x : Wave) : (s.setWave w x).host = s.host := rfl
@[simp] theorem State.setWave_packets (s : State) (w : Nat) (x : Wave) : (s.setWave w x).packets = s.packets := rfl
@[simp] theorem State.setWave_peerSent (s : State) (w : Nat) (x : Wave) : (s.setWave w x).peerSent = s.peerSent := rfl
@[simp] theorem State.setWave_walks (s : State) (w : Nat) (x : Wave) : (s.setWave w x).walks = s.walks := rfl
@[simp] theorem State.setWave_tasks (s : State) (w : Nat) (x : Wave) : (s.setWave w x).tasks = s.tasks := rfl
@[simp] theorem State.setWave_flips (s : State) (w : Nat) (x : Wave) : (s.setWave w x).flips = s.flips := rfl
@[simp] theorem State.setWave_resizes (s : State) (w : Nat) (x : Wave) : (s.setWave w x).resizes = s.resizes := rfl
@[simp] theorem State.setWave_bound (s : State) (w : Nat) (x : Wave) : (s.setWave w x).bound = s.bound := rfl
@[simp] theorem State.setWave_free (s : State) (w : Nat) (x : Wave) : (s.setWave w x).free = s.free := rfl
@[simp] theorem State.setWave_time (s : State) (w : Nat) (x : Wave) : (s.setWave w x).time = s.time := rfl
@[simp] theorem State.setWave_bootstat (s : State) (w : Nat) (x : Wave) : (s.setWave w x).bootstat = s.bootstat := rfl
@[simp] theorem State.setWave_featack (s : State) (w : Nat) (x : Wave) : (s.setWave w x).featack = s.featack := rfl
@[simp] theorem State.setWave_featSet (s : State) (w : Nat) (x : Wave) : (s.setWave w x).featSet = s.featSet := rfl
@[simp] theorem State.setWave_attNonce (s : State) (w : Nat) (x : Wave) : (s.setWave w x).attNonce = s.attNonce := rfl
@[simp] theorem State.setWave_attReady (s : State) (w : Nat) (x : Wave) : (s.setWave w x).attReady = s.attReady := rfl
@[simp] theorem State.setWave_attRep (s : State) (w : Nat) (x : Wave) : (s.setWave w x).attRep = s.attRep := rfl
@[simp] theorem State.setWave_attCount (s : State) (w : Nat) (x : Wave) : (s.setWave w x).attCount = s.attCount := rfl
@[simp] theorem State.setWave_stretch (s : State) (w : Nat) (x : Wave) : (s.setWave w x).stretch = s.stretch := rfl
@[simp] theorem State.setWave_sag (s : State) (w : Nat) (x : Wave) : (s.setWave w x).sag = s.sag := rfl
@[simp] theorem State.setWave_stretchStamp (s : State) (w : Nat) (x : Wave) : (s.setWave w x).stretchStamp = s.stretchStamp := rfl
@[simp] theorem State.setWave_stretchCount (s : State) (w : Nat) (x : Wave) : (s.setWave w x).stretchCount = s.stretchCount := rfl
@[simp] theorem State.setWave_temps (s : State) (w : Nat) (x : Wave) : (s.setWave w x).temps = s.temps := rfl
@[simp] theorem State.setWave_hot (s : State) (w : Nat) (x : Wave) : (s.setWave w x).hot = s.hot := rfl
@[simp] theorem State.setWave_stopped (s : State) (w : Nat) (x : Wave) : (s.setWave w x).stopped = s.stopped := rfl
@[simp] theorem State.setWave_fatal (s : State) (w : Nat) (x : Wave) : (s.setWave w x).fatal = s.fatal := rfl
@[simp] theorem State.setWave_msix (s : State) (w : Nat) (x : Wave) : (s.setWave w x).msix = s.msix := rfl
@[simp] theorem State.setWave_msixPend (s : State) (w : Nat) (x : Wave) : (s.setWave w x).msixPend = s.msixPend := rfl
@[simp] theorem State.setWave_msixMasked (s : State) (w : Nat) (x : Wave) : (s.setWave w x).msixMasked = s.msixMasked := rfl
@[simp] theorem State.setWave_sent (s : State) (w : Nat) (x : Wave) : (s.setWave w x).sent = s.sent := rfl
@[simp] theorem State.setWave_answers (s : State) (w : Nat) (x : Wave) : (s.setWave w x).answers = s.answers := rfl

@[simp] theorem State.dropWave_now (s : State) (w : Nat) : (s.dropWave w).now = s.now := rfl
@[simp] theorem State.dropWave_agenda (s : State) (w : Nat) : (s.dropWave w).agenda = s.agenda := rfl
@[simp] theorem State.dropWave_ev (s : State) (w : Nat) : (s.dropWave w).ev = s.ev := rfl
@[simp] theorem State.dropWave_cur (s : State) (w : Nat) : (s.dropWave w).cur = s.cur := rfl
@[simp] theorem State.dropWave_teams (s : State) (w : Nat) : (s.dropWave w).teams = s.teams := rfl
@[simp] theorem State.dropWave_launches (s : State) (w : Nat) : (s.dropWave w).launches = s.launches := rfl
@[simp] theorem State.dropWave_nextId (s : State) (w : Nat) : (s.dropWave w).nextId = s.nextId := rfl
@[simp] theorem State.dropWave_cores (s : State) (w : Nat) :
    (s.dropWave w).cores = (s.modCore (w / 16) fun k => { k with prev := k.prev.filter fun (v, _) => v != w }).cores := rfl
@[simp] theorem State.dropWave_clovers (s : State) (w : Nat) : (s.dropWave w).clovers = s.clovers := rfl
@[simp] theorem State.dropWave_dies (s : State) (w : Nat) : (s.dropWave w).dies = s.dies := rfl
@[simp] theorem State.dropWave_links (s : State) (w : Nat) : (s.dropWave w).links = s.links := rfl
@[simp] theorem State.dropWave_parts (s : State) (w : Nat) : (s.dropWave w).parts = s.parts := rfl
@[simp] theorem State.dropWave_mem (s : State) (w : Nat) : (s.dropWave w).mem = s.mem := rfl
@[simp] theorem State.dropWave_drawer (s : State) (w : Nat) : (s.dropWave w).drawer = s.drawer := rfl
@[simp] theorem State.dropWave_lines (s : State) (w : Nat) : (s.dropWave w).lines = s.lines := rfl
@[simp] theorem State.dropWave_qops (s : State) (w : Nat) : (s.dropWave w).qops = s.qops := rfl
@[simp] theorem State.dropWave_cmds (s : State) (w : Nat) : (s.dropWave w).cmds = s.cmds := rfl
@[simp] theorem State.dropWave_reqs (s : State) (w : Nat) : (s.dropWave w).reqs = s.reqs := rfl
@[simp] theorem State.dropWave_host (s : State) (w : Nat) : (s.dropWave w).host = s.host := rfl
@[simp] theorem State.dropWave_packets (s : State) (w : Nat) : (s.dropWave w).packets = s.packets := rfl
@[simp] theorem State.dropWave_peerSent (s : State) (w : Nat) : (s.dropWave w).peerSent = s.peerSent := rfl
@[simp] theorem State.dropWave_walks (s : State) (w : Nat) : (s.dropWave w).walks = s.walks := rfl
@[simp] theorem State.dropWave_tasks (s : State) (w : Nat) : (s.dropWave w).tasks = s.tasks := rfl
@[simp] theorem State.dropWave_flips (s : State) (w : Nat) : (s.dropWave w).flips = s.flips := rfl
@[simp] theorem State.dropWave_resizes (s : State) (w : Nat) : (s.dropWave w).resizes = s.resizes := rfl
@[simp] theorem State.dropWave_bound (s : State) (w : Nat) : (s.dropWave w).bound = s.bound := rfl
@[simp] theorem State.dropWave_free (s : State) (w : Nat) : (s.dropWave w).free = s.free := rfl
@[simp] theorem State.dropWave_time (s : State) (w : Nat) : (s.dropWave w).time = s.time := rfl
@[simp] theorem State.dropWave_bootstat (s : State) (w : Nat) : (s.dropWave w).bootstat = s.bootstat := rfl
@[simp] theorem State.dropWave_featack (s : State) (w : Nat) : (s.dropWave w).featack = s.featack := rfl
@[simp] theorem State.dropWave_featSet (s : State) (w : Nat) : (s.dropWave w).featSet = s.featSet := rfl
@[simp] theorem State.dropWave_attNonce (s : State) (w : Nat) : (s.dropWave w).attNonce = s.attNonce := rfl
@[simp] theorem State.dropWave_attReady (s : State) (w : Nat) : (s.dropWave w).attReady = s.attReady := rfl
@[simp] theorem State.dropWave_attRep (s : State) (w : Nat) : (s.dropWave w).attRep = s.attRep := rfl
@[simp] theorem State.dropWave_attCount (s : State) (w : Nat) : (s.dropWave w).attCount = s.attCount := rfl
@[simp] theorem State.dropWave_stretch (s : State) (w : Nat) : (s.dropWave w).stretch = s.stretch := rfl
@[simp] theorem State.dropWave_sag (s : State) (w : Nat) : (s.dropWave w).sag = s.sag := rfl
@[simp] theorem State.dropWave_stretchStamp (s : State) (w : Nat) : (s.dropWave w).stretchStamp = s.stretchStamp := rfl
@[simp] theorem State.dropWave_stretchCount (s : State) (w : Nat) : (s.dropWave w).stretchCount = s.stretchCount := rfl
@[simp] theorem State.dropWave_temps (s : State) (w : Nat) : (s.dropWave w).temps = s.temps := rfl
@[simp] theorem State.dropWave_hot (s : State) (w : Nat) : (s.dropWave w).hot = s.hot := rfl
@[simp] theorem State.dropWave_stopped (s : State) (w : Nat) : (s.dropWave w).stopped = s.stopped := rfl
@[simp] theorem State.dropWave_fatal (s : State) (w : Nat) : (s.dropWave w).fatal = s.fatal := rfl
@[simp] theorem State.dropWave_msix (s : State) (w : Nat) : (s.dropWave w).msix = s.msix := rfl
@[simp] theorem State.dropWave_msixPend (s : State) (w : Nat) : (s.dropWave w).msixPend = s.msixPend := rfl
@[simp] theorem State.dropWave_msixMasked (s : State) (w : Nat) : (s.dropWave w).msixMasked = s.msixMasked := rfl
@[simp] theorem State.dropWave_sent (s : State) (w : Nat) : (s.dropWave w).sent = s.sent := rfl
@[simp] theorem State.dropWave_answers (s : State) (w : Nat) : (s.dropWave w).answers = s.answers := rfl

@[simp] theorem State.setCore_now (s : State) (k : Nat) (x : Core) : (s.setCore k x).now = s.now := rfl
@[simp] theorem State.setCore_agenda (s : State) (k : Nat) (x : Core) : (s.setCore k x).agenda = s.agenda := rfl
@[simp] theorem State.setCore_ev (s : State) (k : Nat) (x : Core) : (s.setCore k x).ev = s.ev := rfl
@[simp] theorem State.setCore_cur (s : State) (k : Nat) (x : Core) : (s.setCore k x).cur = s.cur := rfl
@[simp] theorem State.setCore_waves (s : State) (k : Nat) (x : Core) : (s.setCore k x).waves = s.waves := rfl
@[simp] theorem State.setCore_teams (s : State) (k : Nat) (x : Core) : (s.setCore k x).teams = s.teams := rfl
@[simp] theorem State.setCore_launches (s : State) (k : Nat) (x : Core) : (s.setCore k x).launches = s.launches := rfl
@[simp] theorem State.setCore_nextId (s : State) (k : Nat) (x : Core) : (s.setCore k x).nextId = s.nextId := rfl
@[simp] theorem State.setCore_clovers (s : State) (k : Nat) (x : Core) : (s.setCore k x).clovers = s.clovers := rfl
@[simp] theorem State.setCore_dies (s : State) (k : Nat) (x : Core) : (s.setCore k x).dies = s.dies := rfl
@[simp] theorem State.setCore_links (s : State) (k : Nat) (x : Core) : (s.setCore k x).links = s.links := rfl
@[simp] theorem State.setCore_parts (s : State) (k : Nat) (x : Core) : (s.setCore k x).parts = s.parts := rfl
@[simp] theorem State.setCore_mem (s : State) (k : Nat) (x : Core) : (s.setCore k x).mem = s.mem := rfl
@[simp] theorem State.setCore_drawer (s : State) (k : Nat) (x : Core) : (s.setCore k x).drawer = s.drawer := rfl
@[simp] theorem State.setCore_lines (s : State) (k : Nat) (x : Core) : (s.setCore k x).lines = s.lines := rfl
@[simp] theorem State.setCore_qops (s : State) (k : Nat) (x : Core) : (s.setCore k x).qops = s.qops := rfl
@[simp] theorem State.setCore_cmds (s : State) (k : Nat) (x : Core) : (s.setCore k x).cmds = s.cmds := rfl
@[simp] theorem State.setCore_reqs (s : State) (k : Nat) (x : Core) : (s.setCore k x).reqs = s.reqs := rfl
@[simp] theorem State.setCore_host (s : State) (k : Nat) (x : Core) : (s.setCore k x).host = s.host := rfl
@[simp] theorem State.setCore_packets (s : State) (k : Nat) (x : Core) : (s.setCore k x).packets = s.packets := rfl
@[simp] theorem State.setCore_peerSent (s : State) (k : Nat) (x : Core) : (s.setCore k x).peerSent = s.peerSent := rfl
@[simp] theorem State.setCore_walks (s : State) (k : Nat) (x : Core) : (s.setCore k x).walks = s.walks := rfl
@[simp] theorem State.setCore_tasks (s : State) (k : Nat) (x : Core) : (s.setCore k x).tasks = s.tasks := rfl
@[simp] theorem State.setCore_flips (s : State) (k : Nat) (x : Core) : (s.setCore k x).flips = s.flips := rfl
@[simp] theorem State.setCore_resizes (s : State) (k : Nat) (x : Core) : (s.setCore k x).resizes = s.resizes := rfl
@[simp] theorem State.setCore_bound (s : State) (k : Nat) (x : Core) : (s.setCore k x).bound = s.bound := rfl
@[simp] theorem State.setCore_free (s : State) (k : Nat) (x : Core) : (s.setCore k x).free = s.free := rfl
@[simp] theorem State.setCore_time (s : State) (k : Nat) (x : Core) : (s.setCore k x).time = s.time := rfl
@[simp] theorem State.setCore_bootstat (s : State) (k : Nat) (x : Core) : (s.setCore k x).bootstat = s.bootstat := rfl
@[simp] theorem State.setCore_featack (s : State) (k : Nat) (x : Core) : (s.setCore k x).featack = s.featack := rfl
@[simp] theorem State.setCore_featSet (s : State) (k : Nat) (x : Core) : (s.setCore k x).featSet = s.featSet := rfl
@[simp] theorem State.setCore_attNonce (s : State) (k : Nat) (x : Core) : (s.setCore k x).attNonce = s.attNonce := rfl
@[simp] theorem State.setCore_attReady (s : State) (k : Nat) (x : Core) : (s.setCore k x).attReady = s.attReady := rfl
@[simp] theorem State.setCore_attRep (s : State) (k : Nat) (x : Core) : (s.setCore k x).attRep = s.attRep := rfl
@[simp] theorem State.setCore_attCount (s : State) (k : Nat) (x : Core) : (s.setCore k x).attCount = s.attCount := rfl
@[simp] theorem State.setCore_stretch (s : State) (k : Nat) (x : Core) : (s.setCore k x).stretch = s.stretch := rfl
@[simp] theorem State.setCore_sag (s : State) (k : Nat) (x : Core) : (s.setCore k x).sag = s.sag := rfl
@[simp] theorem State.setCore_stretchStamp (s : State) (k : Nat) (x : Core) : (s.setCore k x).stretchStamp = s.stretchStamp := rfl
@[simp] theorem State.setCore_stretchCount (s : State) (k : Nat) (x : Core) : (s.setCore k x).stretchCount = s.stretchCount := rfl
@[simp] theorem State.setCore_temps (s : State) (k : Nat) (x : Core) : (s.setCore k x).temps = s.temps := rfl
@[simp] theorem State.setCore_hot (s : State) (k : Nat) (x : Core) : (s.setCore k x).hot = s.hot := rfl
@[simp] theorem State.setCore_stopped (s : State) (k : Nat) (x : Core) : (s.setCore k x).stopped = s.stopped := rfl
@[simp] theorem State.setCore_fatal (s : State) (k : Nat) (x : Core) : (s.setCore k x).fatal = s.fatal := rfl
@[simp] theorem State.setCore_msix (s : State) (k : Nat) (x : Core) : (s.setCore k x).msix = s.msix := rfl
@[simp] theorem State.setCore_msixPend (s : State) (k : Nat) (x : Core) : (s.setCore k x).msixPend = s.msixPend := rfl
@[simp] theorem State.setCore_msixMasked (s : State) (k : Nat) (x : Core) : (s.setCore k x).msixMasked = s.msixMasked := rfl
@[simp] theorem State.setCore_sent (s : State) (k : Nat) (x : Core) : (s.setCore k x).sent = s.sent := rfl
@[simp] theorem State.setCore_answers (s : State) (k : Nat) (x : Core) : (s.setCore k x).answers = s.answers := rfl

@[simp] theorem State.setClover_now (s : State) (k : Nat) (x : Clover) : (s.setClover k x).now = s.now := rfl
@[simp] theorem State.setClover_agenda (s : State) (k : Nat) (x : Clover) : (s.setClover k x).agenda = s.agenda := rfl
@[simp] theorem State.setClover_ev (s : State) (k : Nat) (x : Clover) : (s.setClover k x).ev = s.ev := rfl
@[simp] theorem State.setClover_cur (s : State) (k : Nat) (x : Clover) : (s.setClover k x).cur = s.cur := rfl
@[simp] theorem State.setClover_waves (s : State) (k : Nat) (x : Clover) : (s.setClover k x).waves = s.waves := rfl
@[simp] theorem State.setClover_teams (s : State) (k : Nat) (x : Clover) : (s.setClover k x).teams = s.teams := rfl
@[simp] theorem State.setClover_launches (s : State) (k : Nat) (x : Clover) : (s.setClover k x).launches = s.launches := rfl
@[simp] theorem State.setClover_nextId (s : State) (k : Nat) (x : Clover) : (s.setClover k x).nextId = s.nextId := rfl
@[simp] theorem State.setClover_cores (s : State) (k : Nat) (x : Clover) : (s.setClover k x).cores = s.cores := rfl
@[simp] theorem State.setClover_dies (s : State) (k : Nat) (x : Clover) : (s.setClover k x).dies = s.dies := rfl
@[simp] theorem State.setClover_links (s : State) (k : Nat) (x : Clover) : (s.setClover k x).links = s.links := rfl
@[simp] theorem State.setClover_parts (s : State) (k : Nat) (x : Clover) : (s.setClover k x).parts = s.parts := rfl
@[simp] theorem State.setClover_mem (s : State) (k : Nat) (x : Clover) : (s.setClover k x).mem = s.mem := rfl
@[simp] theorem State.setClover_drawer (s : State) (k : Nat) (x : Clover) : (s.setClover k x).drawer = s.drawer := rfl
@[simp] theorem State.setClover_lines (s : State) (k : Nat) (x : Clover) : (s.setClover k x).lines = s.lines := rfl
@[simp] theorem State.setClover_qops (s : State) (k : Nat) (x : Clover) : (s.setClover k x).qops = s.qops := rfl
@[simp] theorem State.setClover_cmds (s : State) (k : Nat) (x : Clover) : (s.setClover k x).cmds = s.cmds := rfl
@[simp] theorem State.setClover_reqs (s : State) (k : Nat) (x : Clover) : (s.setClover k x).reqs = s.reqs := rfl
@[simp] theorem State.setClover_host (s : State) (k : Nat) (x : Clover) : (s.setClover k x).host = s.host := rfl
@[simp] theorem State.setClover_packets (s : State) (k : Nat) (x : Clover) : (s.setClover k x).packets = s.packets := rfl
@[simp] theorem State.setClover_peerSent (s : State) (k : Nat) (x : Clover) : (s.setClover k x).peerSent = s.peerSent := rfl
@[simp] theorem State.setClover_walks (s : State) (k : Nat) (x : Clover) : (s.setClover k x).walks = s.walks := rfl
@[simp] theorem State.setClover_tasks (s : State) (k : Nat) (x : Clover) : (s.setClover k x).tasks = s.tasks := rfl
@[simp] theorem State.setClover_flips (s : State) (k : Nat) (x : Clover) : (s.setClover k x).flips = s.flips := rfl
@[simp] theorem State.setClover_resizes (s : State) (k : Nat) (x : Clover) : (s.setClover k x).resizes = s.resizes := rfl
@[simp] theorem State.setClover_bound (s : State) (k : Nat) (x : Clover) : (s.setClover k x).bound = s.bound := rfl
@[simp] theorem State.setClover_free (s : State) (k : Nat) (x : Clover) : (s.setClover k x).free = s.free := rfl
@[simp] theorem State.setClover_time (s : State) (k : Nat) (x : Clover) : (s.setClover k x).time = s.time := rfl
@[simp] theorem State.setClover_bootstat (s : State) (k : Nat) (x : Clover) : (s.setClover k x).bootstat = s.bootstat := rfl
@[simp] theorem State.setClover_featack (s : State) (k : Nat) (x : Clover) : (s.setClover k x).featack = s.featack := rfl
@[simp] theorem State.setClover_featSet (s : State) (k : Nat) (x : Clover) : (s.setClover k x).featSet = s.featSet := rfl
@[simp] theorem State.setClover_attNonce (s : State) (k : Nat) (x : Clover) : (s.setClover k x).attNonce = s.attNonce := rfl
@[simp] theorem State.setClover_attReady (s : State) (k : Nat) (x : Clover) : (s.setClover k x).attReady = s.attReady := rfl
@[simp] theorem State.setClover_attRep (s : State) (k : Nat) (x : Clover) : (s.setClover k x).attRep = s.attRep := rfl
@[simp] theorem State.setClover_attCount (s : State) (k : Nat) (x : Clover) : (s.setClover k x).attCount = s.attCount := rfl
@[simp] theorem State.setClover_stretch (s : State) (k : Nat) (x : Clover) : (s.setClover k x).stretch = s.stretch := rfl
@[simp] theorem State.setClover_sag (s : State) (k : Nat) (x : Clover) : (s.setClover k x).sag = s.sag := rfl
@[simp] theorem State.setClover_stretchStamp (s : State) (k : Nat) (x : Clover) : (s.setClover k x).stretchStamp = s.stretchStamp := rfl
@[simp] theorem State.setClover_stretchCount (s : State) (k : Nat) (x : Clover) : (s.setClover k x).stretchCount = s.stretchCount := rfl
@[simp] theorem State.setClover_temps (s : State) (k : Nat) (x : Clover) : (s.setClover k x).temps = s.temps := rfl
@[simp] theorem State.setClover_hot (s : State) (k : Nat) (x : Clover) : (s.setClover k x).hot = s.hot := rfl
@[simp] theorem State.setClover_stopped (s : State) (k : Nat) (x : Clover) : (s.setClover k x).stopped = s.stopped := rfl
@[simp] theorem State.setClover_fatal (s : State) (k : Nat) (x : Clover) : (s.setClover k x).fatal = s.fatal := rfl
@[simp] theorem State.setClover_msix (s : State) (k : Nat) (x : Clover) : (s.setClover k x).msix = s.msix := rfl
@[simp] theorem State.setClover_msixPend (s : State) (k : Nat) (x : Clover) : (s.setClover k x).msixPend = s.msixPend := rfl
@[simp] theorem State.setClover_msixMasked (s : State) (k : Nat) (x : Clover) : (s.setClover k x).msixMasked = s.msixMasked := rfl
@[simp] theorem State.setClover_sent (s : State) (k : Nat) (x : Clover) : (s.setClover k x).sent = s.sent := rfl
@[simp] theorem State.setClover_answers (s : State) (k : Nat) (x : Clover) : (s.setClover k x).answers = s.answers := rfl

@[simp] theorem State.setDie_now (s : State) (k : Nat) (x : Die) : (s.setDie k x).now = s.now := rfl
@[simp] theorem State.setDie_agenda (s : State) (k : Nat) (x : Die) : (s.setDie k x).agenda = s.agenda := rfl
@[simp] theorem State.setDie_ev (s : State) (k : Nat) (x : Die) : (s.setDie k x).ev = s.ev := rfl
@[simp] theorem State.setDie_cur (s : State) (k : Nat) (x : Die) : (s.setDie k x).cur = s.cur := rfl
@[simp] theorem State.setDie_waves (s : State) (k : Nat) (x : Die) : (s.setDie k x).waves = s.waves := rfl
@[simp] theorem State.setDie_teams (s : State) (k : Nat) (x : Die) : (s.setDie k x).teams = s.teams := rfl
@[simp] theorem State.setDie_launches (s : State) (k : Nat) (x : Die) : (s.setDie k x).launches = s.launches := rfl
@[simp] theorem State.setDie_nextId (s : State) (k : Nat) (x : Die) : (s.setDie k x).nextId = s.nextId := rfl
@[simp] theorem State.setDie_cores (s : State) (k : Nat) (x : Die) : (s.setDie k x).cores = s.cores := rfl
@[simp] theorem State.setDie_clovers (s : State) (k : Nat) (x : Die) : (s.setDie k x).clovers = s.clovers := rfl
@[simp] theorem State.setDie_links (s : State) (k : Nat) (x : Die) : (s.setDie k x).links = s.links := rfl
@[simp] theorem State.setDie_parts (s : State) (k : Nat) (x : Die) : (s.setDie k x).parts = s.parts := rfl
@[simp] theorem State.setDie_mem (s : State) (k : Nat) (x : Die) : (s.setDie k x).mem = s.mem := rfl
@[simp] theorem State.setDie_drawer (s : State) (k : Nat) (x : Die) : (s.setDie k x).drawer = s.drawer := rfl
@[simp] theorem State.setDie_lines (s : State) (k : Nat) (x : Die) : (s.setDie k x).lines = s.lines := rfl
@[simp] theorem State.setDie_qops (s : State) (k : Nat) (x : Die) : (s.setDie k x).qops = s.qops := rfl
@[simp] theorem State.setDie_cmds (s : State) (k : Nat) (x : Die) : (s.setDie k x).cmds = s.cmds := rfl
@[simp] theorem State.setDie_reqs (s : State) (k : Nat) (x : Die) : (s.setDie k x).reqs = s.reqs := rfl
@[simp] theorem State.setDie_host (s : State) (k : Nat) (x : Die) : (s.setDie k x).host = s.host := rfl
@[simp] theorem State.setDie_packets (s : State) (k : Nat) (x : Die) : (s.setDie k x).packets = s.packets := rfl
@[simp] theorem State.setDie_peerSent (s : State) (k : Nat) (x : Die) : (s.setDie k x).peerSent = s.peerSent := rfl
@[simp] theorem State.setDie_walks (s : State) (k : Nat) (x : Die) : (s.setDie k x).walks = s.walks := rfl
@[simp] theorem State.setDie_tasks (s : State) (k : Nat) (x : Die) : (s.setDie k x).tasks = s.tasks := rfl
@[simp] theorem State.setDie_flips (s : State) (k : Nat) (x : Die) : (s.setDie k x).flips = s.flips := rfl
@[simp] theorem State.setDie_resizes (s : State) (k : Nat) (x : Die) : (s.setDie k x).resizes = s.resizes := rfl
@[simp] theorem State.setDie_bound (s : State) (k : Nat) (x : Die) : (s.setDie k x).bound = s.bound := rfl
@[simp] theorem State.setDie_free (s : State) (k : Nat) (x : Die) : (s.setDie k x).free = s.free := rfl
@[simp] theorem State.setDie_time (s : State) (k : Nat) (x : Die) : (s.setDie k x).time = s.time := rfl
@[simp] theorem State.setDie_bootstat (s : State) (k : Nat) (x : Die) : (s.setDie k x).bootstat = s.bootstat := rfl
@[simp] theorem State.setDie_featack (s : State) (k : Nat) (x : Die) : (s.setDie k x).featack = s.featack := rfl
@[simp] theorem State.setDie_featSet (s : State) (k : Nat) (x : Die) : (s.setDie k x).featSet = s.featSet := rfl
@[simp] theorem State.setDie_attNonce (s : State) (k : Nat) (x : Die) : (s.setDie k x).attNonce = s.attNonce := rfl
@[simp] theorem State.setDie_attReady (s : State) (k : Nat) (x : Die) : (s.setDie k x).attReady = s.attReady := rfl
@[simp] theorem State.setDie_attRep (s : State) (k : Nat) (x : Die) : (s.setDie k x).attRep = s.attRep := rfl
@[simp] theorem State.setDie_attCount (s : State) (k : Nat) (x : Die) : (s.setDie k x).attCount = s.attCount := rfl
@[simp] theorem State.setDie_stretch (s : State) (k : Nat) (x : Die) : (s.setDie k x).stretch = s.stretch := rfl
@[simp] theorem State.setDie_sag (s : State) (k : Nat) (x : Die) : (s.setDie k x).sag = s.sag := rfl
@[simp] theorem State.setDie_stretchStamp (s : State) (k : Nat) (x : Die) : (s.setDie k x).stretchStamp = s.stretchStamp := rfl
@[simp] theorem State.setDie_stretchCount (s : State) (k : Nat) (x : Die) : (s.setDie k x).stretchCount = s.stretchCount := rfl
@[simp] theorem State.setDie_temps (s : State) (k : Nat) (x : Die) : (s.setDie k x).temps = s.temps := rfl
@[simp] theorem State.setDie_hot (s : State) (k : Nat) (x : Die) : (s.setDie k x).hot = s.hot := rfl
@[simp] theorem State.setDie_stopped (s : State) (k : Nat) (x : Die) : (s.setDie k x).stopped = s.stopped := rfl
@[simp] theorem State.setDie_fatal (s : State) (k : Nat) (x : Die) : (s.setDie k x).fatal = s.fatal := rfl
@[simp] theorem State.setDie_msix (s : State) (k : Nat) (x : Die) : (s.setDie k x).msix = s.msix := rfl
@[simp] theorem State.setDie_msixPend (s : State) (k : Nat) (x : Die) : (s.setDie k x).msixPend = s.msixPend := rfl
@[simp] theorem State.setDie_msixMasked (s : State) (k : Nat) (x : Die) : (s.setDie k x).msixMasked = s.msixMasked := rfl
@[simp] theorem State.setDie_sent (s : State) (k : Nat) (x : Die) : (s.setDie k x).sent = s.sent := rfl
@[simp] theorem State.setDie_answers (s : State) (k : Nat) (x : Die) : (s.setDie k x).answers = s.answers := rfl

@[simp] theorem State.setLink_now (s : State) (k : Nat) (x : Link) : (s.setLink k x).now = s.now := rfl
@[simp] theorem State.setLink_agenda (s : State) (k : Nat) (x : Link) : (s.setLink k x).agenda = s.agenda := rfl
@[simp] theorem State.setLink_ev (s : State) (k : Nat) (x : Link) : (s.setLink k x).ev = s.ev := rfl
@[simp] theorem State.setLink_cur (s : State) (k : Nat) (x : Link) : (s.setLink k x).cur = s.cur := rfl
@[simp] theorem State.setLink_waves (s : State) (k : Nat) (x : Link) : (s.setLink k x).waves = s.waves := rfl
@[simp] theorem State.setLink_teams (s : State) (k : Nat) (x : Link) : (s.setLink k x).teams = s.teams := rfl
@[simp] theorem State.setLink_launches (s : State) (k : Nat) (x : Link) : (s.setLink k x).launches = s.launches := rfl
@[simp] theorem State.setLink_nextId (s : State) (k : Nat) (x : Link) : (s.setLink k x).nextId = s.nextId := rfl
@[simp] theorem State.setLink_cores (s : State) (k : Nat) (x : Link) : (s.setLink k x).cores = s.cores := rfl
@[simp] theorem State.setLink_clovers (s : State) (k : Nat) (x : Link) : (s.setLink k x).clovers = s.clovers := rfl
@[simp] theorem State.setLink_dies (s : State) (k : Nat) (x : Link) : (s.setLink k x).dies = s.dies := rfl
@[simp] theorem State.setLink_parts (s : State) (k : Nat) (x : Link) : (s.setLink k x).parts = s.parts := rfl
@[simp] theorem State.setLink_mem (s : State) (k : Nat) (x : Link) : (s.setLink k x).mem = s.mem := rfl
@[simp] theorem State.setLink_drawer (s : State) (k : Nat) (x : Link) : (s.setLink k x).drawer = s.drawer := rfl
@[simp] theorem State.setLink_lines (s : State) (k : Nat) (x : Link) : (s.setLink k x).lines = s.lines := rfl
@[simp] theorem State.setLink_qops (s : State) (k : Nat) (x : Link) : (s.setLink k x).qops = s.qops := rfl
@[simp] theorem State.setLink_cmds (s : State) (k : Nat) (x : Link) : (s.setLink k x).cmds = s.cmds := rfl
@[simp] theorem State.setLink_reqs (s : State) (k : Nat) (x : Link) : (s.setLink k x).reqs = s.reqs := rfl
@[simp] theorem State.setLink_host (s : State) (k : Nat) (x : Link) : (s.setLink k x).host = s.host := rfl
@[simp] theorem State.setLink_packets (s : State) (k : Nat) (x : Link) : (s.setLink k x).packets = s.packets := rfl
@[simp] theorem State.setLink_peerSent (s : State) (k : Nat) (x : Link) : (s.setLink k x).peerSent = s.peerSent := rfl
@[simp] theorem State.setLink_walks (s : State) (k : Nat) (x : Link) : (s.setLink k x).walks = s.walks := rfl
@[simp] theorem State.setLink_tasks (s : State) (k : Nat) (x : Link) : (s.setLink k x).tasks = s.tasks := rfl
@[simp] theorem State.setLink_flips (s : State) (k : Nat) (x : Link) : (s.setLink k x).flips = s.flips := rfl
@[simp] theorem State.setLink_resizes (s : State) (k : Nat) (x : Link) : (s.setLink k x).resizes = s.resizes := rfl
@[simp] theorem State.setLink_bound (s : State) (k : Nat) (x : Link) : (s.setLink k x).bound = s.bound := rfl
@[simp] theorem State.setLink_free (s : State) (k : Nat) (x : Link) : (s.setLink k x).free = s.free := rfl
@[simp] theorem State.setLink_time (s : State) (k : Nat) (x : Link) : (s.setLink k x).time = s.time := rfl
@[simp] theorem State.setLink_bootstat (s : State) (k : Nat) (x : Link) : (s.setLink k x).bootstat = s.bootstat := rfl
@[simp] theorem State.setLink_featack (s : State) (k : Nat) (x : Link) : (s.setLink k x).featack = s.featack := rfl
@[simp] theorem State.setLink_featSet (s : State) (k : Nat) (x : Link) : (s.setLink k x).featSet = s.featSet := rfl
@[simp] theorem State.setLink_attNonce (s : State) (k : Nat) (x : Link) : (s.setLink k x).attNonce = s.attNonce := rfl
@[simp] theorem State.setLink_attReady (s : State) (k : Nat) (x : Link) : (s.setLink k x).attReady = s.attReady := rfl
@[simp] theorem State.setLink_attRep (s : State) (k : Nat) (x : Link) : (s.setLink k x).attRep = s.attRep := rfl
@[simp] theorem State.setLink_attCount (s : State) (k : Nat) (x : Link) : (s.setLink k x).attCount = s.attCount := rfl
@[simp] theorem State.setLink_stretch (s : State) (k : Nat) (x : Link) : (s.setLink k x).stretch = s.stretch := rfl
@[simp] theorem State.setLink_sag (s : State) (k : Nat) (x : Link) : (s.setLink k x).sag = s.sag := rfl
@[simp] theorem State.setLink_stretchStamp (s : State) (k : Nat) (x : Link) : (s.setLink k x).stretchStamp = s.stretchStamp := rfl
@[simp] theorem State.setLink_stretchCount (s : State) (k : Nat) (x : Link) : (s.setLink k x).stretchCount = s.stretchCount := rfl
@[simp] theorem State.setLink_temps (s : State) (k : Nat) (x : Link) : (s.setLink k x).temps = s.temps := rfl
@[simp] theorem State.setLink_hot (s : State) (k : Nat) (x : Link) : (s.setLink k x).hot = s.hot := rfl
@[simp] theorem State.setLink_stopped (s : State) (k : Nat) (x : Link) : (s.setLink k x).stopped = s.stopped := rfl
@[simp] theorem State.setLink_fatal (s : State) (k : Nat) (x : Link) : (s.setLink k x).fatal = s.fatal := rfl
@[simp] theorem State.setLink_msix (s : State) (k : Nat) (x : Link) : (s.setLink k x).msix = s.msix := rfl
@[simp] theorem State.setLink_msixPend (s : State) (k : Nat) (x : Link) : (s.setLink k x).msixPend = s.msixPend := rfl
@[simp] theorem State.setLink_msixMasked (s : State) (k : Nat) (x : Link) : (s.setLink k x).msixMasked = s.msixMasked := rfl
@[simp] theorem State.setLink_sent (s : State) (k : Nat) (x : Link) : (s.setLink k x).sent = s.sent := rfl
@[simp] theorem State.setLink_answers (s : State) (k : Nat) (x : Link) : (s.setLink k x).answers = s.answers := rfl

@[simp] theorem State.setPart_now (s : State) (k : Nat) (x : Part) : (s.setPart k x).now = s.now := rfl
@[simp] theorem State.setPart_agenda (s : State) (k : Nat) (x : Part) : (s.setPart k x).agenda = s.agenda := rfl
@[simp] theorem State.setPart_ev (s : State) (k : Nat) (x : Part) : (s.setPart k x).ev = s.ev := rfl
@[simp] theorem State.setPart_cur (s : State) (k : Nat) (x : Part) : (s.setPart k x).cur = s.cur := rfl
@[simp] theorem State.setPart_waves (s : State) (k : Nat) (x : Part) : (s.setPart k x).waves = s.waves := rfl
@[simp] theorem State.setPart_teams (s : State) (k : Nat) (x : Part) : (s.setPart k x).teams = s.teams := rfl
@[simp] theorem State.setPart_launches (s : State) (k : Nat) (x : Part) : (s.setPart k x).launches = s.launches := rfl
@[simp] theorem State.setPart_nextId (s : State) (k : Nat) (x : Part) : (s.setPart k x).nextId = s.nextId := rfl
@[simp] theorem State.setPart_cores (s : State) (k : Nat) (x : Part) : (s.setPart k x).cores = s.cores := rfl
@[simp] theorem State.setPart_clovers (s : State) (k : Nat) (x : Part) : (s.setPart k x).clovers = s.clovers := rfl
@[simp] theorem State.setPart_dies (s : State) (k : Nat) (x : Part) : (s.setPart k x).dies = s.dies := rfl
@[simp] theorem State.setPart_links (s : State) (k : Nat) (x : Part) : (s.setPart k x).links = s.links := rfl
@[simp] theorem State.setPart_mem (s : State) (k : Nat) (x : Part) : (s.setPart k x).mem = s.mem := rfl
@[simp] theorem State.setPart_drawer (s : State) (k : Nat) (x : Part) : (s.setPart k x).drawer = s.drawer := rfl
@[simp] theorem State.setPart_lines (s : State) (k : Nat) (x : Part) : (s.setPart k x).lines = s.lines := rfl
@[simp] theorem State.setPart_qops (s : State) (k : Nat) (x : Part) : (s.setPart k x).qops = s.qops := rfl
@[simp] theorem State.setPart_cmds (s : State) (k : Nat) (x : Part) : (s.setPart k x).cmds = s.cmds := rfl
@[simp] theorem State.setPart_reqs (s : State) (k : Nat) (x : Part) : (s.setPart k x).reqs = s.reqs := rfl
@[simp] theorem State.setPart_host (s : State) (k : Nat) (x : Part) : (s.setPart k x).host = s.host := rfl
@[simp] theorem State.setPart_packets (s : State) (k : Nat) (x : Part) : (s.setPart k x).packets = s.packets := rfl
@[simp] theorem State.setPart_peerSent (s : State) (k : Nat) (x : Part) : (s.setPart k x).peerSent = s.peerSent := rfl
@[simp] theorem State.setPart_walks (s : State) (k : Nat) (x : Part) : (s.setPart k x).walks = s.walks := rfl
@[simp] theorem State.setPart_tasks (s : State) (k : Nat) (x : Part) : (s.setPart k x).tasks = s.tasks := rfl
@[simp] theorem State.setPart_flips (s : State) (k : Nat) (x : Part) : (s.setPart k x).flips = s.flips := rfl
@[simp] theorem State.setPart_resizes (s : State) (k : Nat) (x : Part) : (s.setPart k x).resizes = s.resizes := rfl
@[simp] theorem State.setPart_bound (s : State) (k : Nat) (x : Part) : (s.setPart k x).bound = s.bound := rfl
@[simp] theorem State.setPart_free (s : State) (k : Nat) (x : Part) : (s.setPart k x).free = s.free := rfl
@[simp] theorem State.setPart_time (s : State) (k : Nat) (x : Part) : (s.setPart k x).time = s.time := rfl
@[simp] theorem State.setPart_bootstat (s : State) (k : Nat) (x : Part) : (s.setPart k x).bootstat = s.bootstat := rfl
@[simp] theorem State.setPart_featack (s : State) (k : Nat) (x : Part) : (s.setPart k x).featack = s.featack := rfl
@[simp] theorem State.setPart_featSet (s : State) (k : Nat) (x : Part) : (s.setPart k x).featSet = s.featSet := rfl
@[simp] theorem State.setPart_attNonce (s : State) (k : Nat) (x : Part) : (s.setPart k x).attNonce = s.attNonce := rfl
@[simp] theorem State.setPart_attReady (s : State) (k : Nat) (x : Part) : (s.setPart k x).attReady = s.attReady := rfl
@[simp] theorem State.setPart_attRep (s : State) (k : Nat) (x : Part) : (s.setPart k x).attRep = s.attRep := rfl
@[simp] theorem State.setPart_attCount (s : State) (k : Nat) (x : Part) : (s.setPart k x).attCount = s.attCount := rfl
@[simp] theorem State.setPart_stretch (s : State) (k : Nat) (x : Part) : (s.setPart k x).stretch = s.stretch := rfl
@[simp] theorem State.setPart_sag (s : State) (k : Nat) (x : Part) : (s.setPart k x).sag = s.sag := rfl
@[simp] theorem State.setPart_stretchStamp (s : State) (k : Nat) (x : Part) : (s.setPart k x).stretchStamp = s.stretchStamp := rfl
@[simp] theorem State.setPart_stretchCount (s : State) (k : Nat) (x : Part) : (s.setPart k x).stretchCount = s.stretchCount := rfl
@[simp] theorem State.setPart_temps (s : State) (k : Nat) (x : Part) : (s.setPart k x).temps = s.temps := rfl
@[simp] theorem State.setPart_hot (s : State) (k : Nat) (x : Part) : (s.setPart k x).hot = s.hot := rfl
@[simp] theorem State.setPart_stopped (s : State) (k : Nat) (x : Part) : (s.setPart k x).stopped = s.stopped := rfl
@[simp] theorem State.setPart_fatal (s : State) (k : Nat) (x : Part) : (s.setPart k x).fatal = s.fatal := rfl
@[simp] theorem State.setPart_msix (s : State) (k : Nat) (x : Part) : (s.setPart k x).msix = s.msix := rfl
@[simp] theorem State.setPart_msixPend (s : State) (k : Nat) (x : Part) : (s.setPart k x).msixPend = s.msixPend := rfl
@[simp] theorem State.setPart_msixMasked (s : State) (k : Nat) (x : Part) : (s.setPart k x).msixMasked = s.msixMasked := rfl
@[simp] theorem State.setPart_sent (s : State) (k : Nat) (x : Part) : (s.setPart k x).sent = s.sent := rfl
@[simp] theorem State.setPart_answers (s : State) (k : Nat) (x : Part) : (s.setPart k x).answers = s.answers := rfl

@[simp] theorem State.setLine_now (s : State) (k : Nat) (x : Line) : (s.setLine k x).now = s.now := rfl
@[simp] theorem State.setLine_agenda (s : State) (k : Nat) (x : Line) : (s.setLine k x).agenda = s.agenda := rfl
@[simp] theorem State.setLine_ev (s : State) (k : Nat) (x : Line) : (s.setLine k x).ev = s.ev := rfl
@[simp] theorem State.setLine_cur (s : State) (k : Nat) (x : Line) : (s.setLine k x).cur = s.cur := rfl
@[simp] theorem State.setLine_waves (s : State) (k : Nat) (x : Line) : (s.setLine k x).waves = s.waves := rfl
@[simp] theorem State.setLine_teams (s : State) (k : Nat) (x : Line) : (s.setLine k x).teams = s.teams := rfl
@[simp] theorem State.setLine_launches (s : State) (k : Nat) (x : Line) : (s.setLine k x).launches = s.launches := rfl
@[simp] theorem State.setLine_nextId (s : State) (k : Nat) (x : Line) : (s.setLine k x).nextId = s.nextId := rfl
@[simp] theorem State.setLine_cores (s : State) (k : Nat) (x : Line) : (s.setLine k x).cores = s.cores := rfl
@[simp] theorem State.setLine_clovers (s : State) (k : Nat) (x : Line) : (s.setLine k x).clovers = s.clovers := rfl
@[simp] theorem State.setLine_dies (s : State) (k : Nat) (x : Line) : (s.setLine k x).dies = s.dies := rfl
@[simp] theorem State.setLine_links (s : State) (k : Nat) (x : Line) : (s.setLine k x).links = s.links := rfl
@[simp] theorem State.setLine_parts (s : State) (k : Nat) (x : Line) : (s.setLine k x).parts = s.parts := rfl
@[simp] theorem State.setLine_mem (s : State) (k : Nat) (x : Line) : (s.setLine k x).mem = s.mem := rfl
@[simp] theorem State.setLine_drawer (s : State) (k : Nat) (x : Line) : (s.setLine k x).drawer = s.drawer := rfl
@[simp] theorem State.setLine_qops (s : State) (k : Nat) (x : Line) : (s.setLine k x).qops = s.qops := rfl
@[simp] theorem State.setLine_cmds (s : State) (k : Nat) (x : Line) : (s.setLine k x).cmds = s.cmds := rfl
@[simp] theorem State.setLine_reqs (s : State) (k : Nat) (x : Line) : (s.setLine k x).reqs = s.reqs := rfl
@[simp] theorem State.setLine_host (s : State) (k : Nat) (x : Line) : (s.setLine k x).host = s.host := rfl
@[simp] theorem State.setLine_packets (s : State) (k : Nat) (x : Line) : (s.setLine k x).packets = s.packets := rfl
@[simp] theorem State.setLine_peerSent (s : State) (k : Nat) (x : Line) : (s.setLine k x).peerSent = s.peerSent := rfl
@[simp] theorem State.setLine_walks (s : State) (k : Nat) (x : Line) : (s.setLine k x).walks = s.walks := rfl
@[simp] theorem State.setLine_tasks (s : State) (k : Nat) (x : Line) : (s.setLine k x).tasks = s.tasks := rfl
@[simp] theorem State.setLine_flips (s : State) (k : Nat) (x : Line) : (s.setLine k x).flips = s.flips := rfl
@[simp] theorem State.setLine_resizes (s : State) (k : Nat) (x : Line) : (s.setLine k x).resizes = s.resizes := rfl
@[simp] theorem State.setLine_bound (s : State) (k : Nat) (x : Line) : (s.setLine k x).bound = s.bound := rfl
@[simp] theorem State.setLine_free (s : State) (k : Nat) (x : Line) : (s.setLine k x).free = s.free := rfl
@[simp] theorem State.setLine_time (s : State) (k : Nat) (x : Line) : (s.setLine k x).time = s.time := rfl
@[simp] theorem State.setLine_bootstat (s : State) (k : Nat) (x : Line) : (s.setLine k x).bootstat = s.bootstat := rfl
@[simp] theorem State.setLine_featack (s : State) (k : Nat) (x : Line) : (s.setLine k x).featack = s.featack := rfl
@[simp] theorem State.setLine_featSet (s : State) (k : Nat) (x : Line) : (s.setLine k x).featSet = s.featSet := rfl
@[simp] theorem State.setLine_attNonce (s : State) (k : Nat) (x : Line) : (s.setLine k x).attNonce = s.attNonce := rfl
@[simp] theorem State.setLine_attReady (s : State) (k : Nat) (x : Line) : (s.setLine k x).attReady = s.attReady := rfl
@[simp] theorem State.setLine_attRep (s : State) (k : Nat) (x : Line) : (s.setLine k x).attRep = s.attRep := rfl
@[simp] theorem State.setLine_attCount (s : State) (k : Nat) (x : Line) : (s.setLine k x).attCount = s.attCount := rfl
@[simp] theorem State.setLine_stretch (s : State) (k : Nat) (x : Line) : (s.setLine k x).stretch = s.stretch := rfl
@[simp] theorem State.setLine_sag (s : State) (k : Nat) (x : Line) : (s.setLine k x).sag = s.sag := rfl
@[simp] theorem State.setLine_stretchStamp (s : State) (k : Nat) (x : Line) : (s.setLine k x).stretchStamp = s.stretchStamp := rfl
@[simp] theorem State.setLine_stretchCount (s : State) (k : Nat) (x : Line) : (s.setLine k x).stretchCount = s.stretchCount := rfl
@[simp] theorem State.setLine_temps (s : State) (k : Nat) (x : Line) : (s.setLine k x).temps = s.temps := rfl
@[simp] theorem State.setLine_hot (s : State) (k : Nat) (x : Line) : (s.setLine k x).hot = s.hot := rfl
@[simp] theorem State.setLine_stopped (s : State) (k : Nat) (x : Line) : (s.setLine k x).stopped = s.stopped := rfl
@[simp] theorem State.setLine_fatal (s : State) (k : Nat) (x : Line) : (s.setLine k x).fatal = s.fatal := rfl
@[simp] theorem State.setLine_msix (s : State) (k : Nat) (x : Line) : (s.setLine k x).msix = s.msix := rfl
@[simp] theorem State.setLine_msixPend (s : State) (k : Nat) (x : Line) : (s.setLine k x).msixPend = s.msixPend := rfl
@[simp] theorem State.setLine_msixMasked (s : State) (k : Nat) (x : Line) : (s.setLine k x).msixMasked = s.msixMasked := rfl
@[simp] theorem State.setLine_sent (s : State) (k : Nat) (x : Line) : (s.setLine k x).sent = s.sent := rfl
@[simp] theorem State.setLine_answers (s : State) (k : Nat) (x : Line) : (s.setLine k x).answers = s.answers := rfl

@[simp] theorem State.setTeam_now (s : State) (k : Nat) (x : Team) : (s.setTeam k x).now = s.now := rfl
@[simp] theorem State.setTeam_agenda (s : State) (k : Nat) (x : Team) : (s.setTeam k x).agenda = s.agenda := rfl
@[simp] theorem State.setTeam_ev (s : State) (k : Nat) (x : Team) : (s.setTeam k x).ev = s.ev := rfl
@[simp] theorem State.setTeam_cur (s : State) (k : Nat) (x : Team) : (s.setTeam k x).cur = s.cur := rfl
@[simp] theorem State.setTeam_waves (s : State) (k : Nat) (x : Team) : (s.setTeam k x).waves = s.waves := rfl
@[simp] theorem State.setTeam_launches (s : State) (k : Nat) (x : Team) : (s.setTeam k x).launches = s.launches := rfl
@[simp] theorem State.setTeam_nextId (s : State) (k : Nat) (x : Team) : (s.setTeam k x).nextId = s.nextId := rfl
@[simp] theorem State.setTeam_cores (s : State) (k : Nat) (x : Team) : (s.setTeam k x).cores = s.cores := rfl
@[simp] theorem State.setTeam_clovers (s : State) (k : Nat) (x : Team) : (s.setTeam k x).clovers = s.clovers := rfl
@[simp] theorem State.setTeam_dies (s : State) (k : Nat) (x : Team) : (s.setTeam k x).dies = s.dies := rfl
@[simp] theorem State.setTeam_links (s : State) (k : Nat) (x : Team) : (s.setTeam k x).links = s.links := rfl
@[simp] theorem State.setTeam_parts (s : State) (k : Nat) (x : Team) : (s.setTeam k x).parts = s.parts := rfl
@[simp] theorem State.setTeam_mem (s : State) (k : Nat) (x : Team) : (s.setTeam k x).mem = s.mem := rfl
@[simp] theorem State.setTeam_drawer (s : State) (k : Nat) (x : Team) : (s.setTeam k x).drawer = s.drawer := rfl
@[simp] theorem State.setTeam_lines (s : State) (k : Nat) (x : Team) : (s.setTeam k x).lines = s.lines := rfl
@[simp] theorem State.setTeam_qops (s : State) (k : Nat) (x : Team) : (s.setTeam k x).qops = s.qops := rfl
@[simp] theorem State.setTeam_cmds (s : State) (k : Nat) (x : Team) : (s.setTeam k x).cmds = s.cmds := rfl
@[simp] theorem State.setTeam_reqs (s : State) (k : Nat) (x : Team) : (s.setTeam k x).reqs = s.reqs := rfl
@[simp] theorem State.setTeam_host (s : State) (k : Nat) (x : Team) : (s.setTeam k x).host = s.host := rfl
@[simp] theorem State.setTeam_packets (s : State) (k : Nat) (x : Team) : (s.setTeam k x).packets = s.packets := rfl
@[simp] theorem State.setTeam_peerSent (s : State) (k : Nat) (x : Team) : (s.setTeam k x).peerSent = s.peerSent := rfl
@[simp] theorem State.setTeam_walks (s : State) (k : Nat) (x : Team) : (s.setTeam k x).walks = s.walks := rfl
@[simp] theorem State.setTeam_tasks (s : State) (k : Nat) (x : Team) : (s.setTeam k x).tasks = s.tasks := rfl
@[simp] theorem State.setTeam_flips (s : State) (k : Nat) (x : Team) : (s.setTeam k x).flips = s.flips := rfl
@[simp] theorem State.setTeam_resizes (s : State) (k : Nat) (x : Team) : (s.setTeam k x).resizes = s.resizes := rfl
@[simp] theorem State.setTeam_bound (s : State) (k : Nat) (x : Team) : (s.setTeam k x).bound = s.bound := rfl
@[simp] theorem State.setTeam_free (s : State) (k : Nat) (x : Team) : (s.setTeam k x).free = s.free := rfl
@[simp] theorem State.setTeam_time (s : State) (k : Nat) (x : Team) : (s.setTeam k x).time = s.time := rfl
@[simp] theorem State.setTeam_bootstat (s : State) (k : Nat) (x : Team) : (s.setTeam k x).bootstat = s.bootstat := rfl
@[simp] theorem State.setTeam_featack (s : State) (k : Nat) (x : Team) : (s.setTeam k x).featack = s.featack := rfl
@[simp] theorem State.setTeam_featSet (s : State) (k : Nat) (x : Team) : (s.setTeam k x).featSet = s.featSet := rfl
@[simp] theorem State.setTeam_attNonce (s : State) (k : Nat) (x : Team) : (s.setTeam k x).attNonce = s.attNonce := rfl
@[simp] theorem State.setTeam_attReady (s : State) (k : Nat) (x : Team) : (s.setTeam k x).attReady = s.attReady := rfl
@[simp] theorem State.setTeam_attRep (s : State) (k : Nat) (x : Team) : (s.setTeam k x).attRep = s.attRep := rfl
@[simp] theorem State.setTeam_attCount (s : State) (k : Nat) (x : Team) : (s.setTeam k x).attCount = s.attCount := rfl
@[simp] theorem State.setTeam_stretch (s : State) (k : Nat) (x : Team) : (s.setTeam k x).stretch = s.stretch := rfl
@[simp] theorem State.setTeam_sag (s : State) (k : Nat) (x : Team) : (s.setTeam k x).sag = s.sag := rfl
@[simp] theorem State.setTeam_stretchStamp (s : State) (k : Nat) (x : Team) : (s.setTeam k x).stretchStamp = s.stretchStamp := rfl
@[simp] theorem State.setTeam_stretchCount (s : State) (k : Nat) (x : Team) : (s.setTeam k x).stretchCount = s.stretchCount := rfl
@[simp] theorem State.setTeam_temps (s : State) (k : Nat) (x : Team) : (s.setTeam k x).temps = s.temps := rfl
@[simp] theorem State.setTeam_hot (s : State) (k : Nat) (x : Team) : (s.setTeam k x).hot = s.hot := rfl
@[simp] theorem State.setTeam_stopped (s : State) (k : Nat) (x : Team) : (s.setTeam k x).stopped = s.stopped := rfl
@[simp] theorem State.setTeam_fatal (s : State) (k : Nat) (x : Team) : (s.setTeam k x).fatal = s.fatal := rfl
@[simp] theorem State.setTeam_msix (s : State) (k : Nat) (x : Team) : (s.setTeam k x).msix = s.msix := rfl
@[simp] theorem State.setTeam_msixPend (s : State) (k : Nat) (x : Team) : (s.setTeam k x).msixPend = s.msixPend := rfl
@[simp] theorem State.setTeam_msixMasked (s : State) (k : Nat) (x : Team) : (s.setTeam k x).msixMasked = s.msixMasked := rfl
@[simp] theorem State.setTeam_sent (s : State) (k : Nat) (x : Team) : (s.setTeam k x).sent = s.sent := rfl
@[simp] theorem State.setTeam_answers (s : State) (k : Nat) (x : Team) : (s.setTeam k x).answers = s.answers := rfl

@[simp] theorem State.setCmd_now (s : State) (k : Nat) (x : Cmd) : (s.setCmd k x).now = s.now := rfl
@[simp] theorem State.setCmd_agenda (s : State) (k : Nat) (x : Cmd) : (s.setCmd k x).agenda = s.agenda := rfl
@[simp] theorem State.setCmd_ev (s : State) (k : Nat) (x : Cmd) : (s.setCmd k x).ev = s.ev := rfl
@[simp] theorem State.setCmd_cur (s : State) (k : Nat) (x : Cmd) : (s.setCmd k x).cur = s.cur := rfl
@[simp] theorem State.setCmd_waves (s : State) (k : Nat) (x : Cmd) : (s.setCmd k x).waves = s.waves := rfl
@[simp] theorem State.setCmd_teams (s : State) (k : Nat) (x : Cmd) : (s.setCmd k x).teams = s.teams := rfl
@[simp] theorem State.setCmd_launches (s : State) (k : Nat) (x : Cmd) : (s.setCmd k x).launches = s.launches := rfl
@[simp] theorem State.setCmd_nextId (s : State) (k : Nat) (x : Cmd) : (s.setCmd k x).nextId = s.nextId := rfl
@[simp] theorem State.setCmd_cores (s : State) (k : Nat) (x : Cmd) : (s.setCmd k x).cores = s.cores := rfl
@[simp] theorem State.setCmd_clovers (s : State) (k : Nat) (x : Cmd) : (s.setCmd k x).clovers = s.clovers := rfl
@[simp] theorem State.setCmd_dies (s : State) (k : Nat) (x : Cmd) : (s.setCmd k x).dies = s.dies := rfl
@[simp] theorem State.setCmd_links (s : State) (k : Nat) (x : Cmd) : (s.setCmd k x).links = s.links := rfl
@[simp] theorem State.setCmd_parts (s : State) (k : Nat) (x : Cmd) : (s.setCmd k x).parts = s.parts := rfl
@[simp] theorem State.setCmd_mem (s : State) (k : Nat) (x : Cmd) : (s.setCmd k x).mem = s.mem := rfl
@[simp] theorem State.setCmd_drawer (s : State) (k : Nat) (x : Cmd) : (s.setCmd k x).drawer = s.drawer := rfl
@[simp] theorem State.setCmd_lines (s : State) (k : Nat) (x : Cmd) : (s.setCmd k x).lines = s.lines := rfl
@[simp] theorem State.setCmd_qops (s : State) (k : Nat) (x : Cmd) : (s.setCmd k x).qops = s.qops := rfl
@[simp] theorem State.setCmd_reqs (s : State) (k : Nat) (x : Cmd) : (s.setCmd k x).reqs = s.reqs := rfl
@[simp] theorem State.setCmd_host (s : State) (k : Nat) (x : Cmd) : (s.setCmd k x).host = s.host := rfl
@[simp] theorem State.setCmd_packets (s : State) (k : Nat) (x : Cmd) : (s.setCmd k x).packets = s.packets := rfl
@[simp] theorem State.setCmd_peerSent (s : State) (k : Nat) (x : Cmd) : (s.setCmd k x).peerSent = s.peerSent := rfl
@[simp] theorem State.setCmd_walks (s : State) (k : Nat) (x : Cmd) : (s.setCmd k x).walks = s.walks := rfl
@[simp] theorem State.setCmd_tasks (s : State) (k : Nat) (x : Cmd) : (s.setCmd k x).tasks = s.tasks := rfl
@[simp] theorem State.setCmd_flips (s : State) (k : Nat) (x : Cmd) : (s.setCmd k x).flips = s.flips := rfl
@[simp] theorem State.setCmd_resizes (s : State) (k : Nat) (x : Cmd) : (s.setCmd k x).resizes = s.resizes := rfl
@[simp] theorem State.setCmd_bound (s : State) (k : Nat) (x : Cmd) : (s.setCmd k x).bound = s.bound := rfl
@[simp] theorem State.setCmd_free (s : State) (k : Nat) (x : Cmd) : (s.setCmd k x).free = s.free := rfl
@[simp] theorem State.setCmd_time (s : State) (k : Nat) (x : Cmd) : (s.setCmd k x).time = s.time := rfl
@[simp] theorem State.setCmd_bootstat (s : State) (k : Nat) (x : Cmd) : (s.setCmd k x).bootstat = s.bootstat := rfl
@[simp] theorem State.setCmd_featack (s : State) (k : Nat) (x : Cmd) : (s.setCmd k x).featack = s.featack := rfl
@[simp] theorem State.setCmd_featSet (s : State) (k : Nat) (x : Cmd) : (s.setCmd k x).featSet = s.featSet := rfl
@[simp] theorem State.setCmd_attNonce (s : State) (k : Nat) (x : Cmd) : (s.setCmd k x).attNonce = s.attNonce := rfl
@[simp] theorem State.setCmd_attReady (s : State) (k : Nat) (x : Cmd) : (s.setCmd k x).attReady = s.attReady := rfl
@[simp] theorem State.setCmd_attRep (s : State) (k : Nat) (x : Cmd) : (s.setCmd k x).attRep = s.attRep := rfl
@[simp] theorem State.setCmd_attCount (s : State) (k : Nat) (x : Cmd) : (s.setCmd k x).attCount = s.attCount := rfl
@[simp] theorem State.setCmd_stretch (s : State) (k : Nat) (x : Cmd) : (s.setCmd k x).stretch = s.stretch := rfl
@[simp] theorem State.setCmd_sag (s : State) (k : Nat) (x : Cmd) : (s.setCmd k x).sag = s.sag := rfl
@[simp] theorem State.setCmd_stretchStamp (s : State) (k : Nat) (x : Cmd) : (s.setCmd k x).stretchStamp = s.stretchStamp := rfl
@[simp] theorem State.setCmd_stretchCount (s : State) (k : Nat) (x : Cmd) : (s.setCmd k x).stretchCount = s.stretchCount := rfl
@[simp] theorem State.setCmd_temps (s : State) (k : Nat) (x : Cmd) : (s.setCmd k x).temps = s.temps := rfl
@[simp] theorem State.setCmd_hot (s : State) (k : Nat) (x : Cmd) : (s.setCmd k x).hot = s.hot := rfl
@[simp] theorem State.setCmd_stopped (s : State) (k : Nat) (x : Cmd) : (s.setCmd k x).stopped = s.stopped := rfl
@[simp] theorem State.setCmd_fatal (s : State) (k : Nat) (x : Cmd) : (s.setCmd k x).fatal = s.fatal := rfl
@[simp] theorem State.setCmd_msix (s : State) (k : Nat) (x : Cmd) : (s.setCmd k x).msix = s.msix := rfl
@[simp] theorem State.setCmd_msixPend (s : State) (k : Nat) (x : Cmd) : (s.setCmd k x).msixPend = s.msixPend := rfl
@[simp] theorem State.setCmd_msixMasked (s : State) (k : Nat) (x : Cmd) : (s.setCmd k x).msixMasked = s.msixMasked := rfl
@[simp] theorem State.setCmd_sent (s : State) (k : Nat) (x : Cmd) : (s.setCmd k x).sent = s.sent := rfl
@[simp] theorem State.setCmd_answers (s : State) (k : Nat) (x : Cmd) : (s.setCmd k x).answers = s.answers := rfl

@[simp] theorem State.setQop_now (s : State) (k : Nat) (x : QuOp) : (s.setQop k x).now = s.now := rfl
@[simp] theorem State.setQop_agenda (s : State) (k : Nat) (x : QuOp) : (s.setQop k x).agenda = s.agenda := rfl
@[simp] theorem State.setQop_ev (s : State) (k : Nat) (x : QuOp) : (s.setQop k x).ev = s.ev := rfl
@[simp] theorem State.setQop_cur (s : State) (k : Nat) (x : QuOp) : (s.setQop k x).cur = s.cur := rfl
@[simp] theorem State.setQop_waves (s : State) (k : Nat) (x : QuOp) : (s.setQop k x).waves = s.waves := rfl
@[simp] theorem State.setQop_teams (s : State) (k : Nat) (x : QuOp) : (s.setQop k x).teams = s.teams := rfl
@[simp] theorem State.setQop_launches (s : State) (k : Nat) (x : QuOp) : (s.setQop k x).launches = s.launches := rfl
@[simp] theorem State.setQop_nextId (s : State) (k : Nat) (x : QuOp) : (s.setQop k x).nextId = s.nextId := rfl
@[simp] theorem State.setQop_cores (s : State) (k : Nat) (x : QuOp) : (s.setQop k x).cores = s.cores := rfl
@[simp] theorem State.setQop_clovers (s : State) (k : Nat) (x : QuOp) : (s.setQop k x).clovers = s.clovers := rfl
@[simp] theorem State.setQop_dies (s : State) (k : Nat) (x : QuOp) : (s.setQop k x).dies = s.dies := rfl
@[simp] theorem State.setQop_links (s : State) (k : Nat) (x : QuOp) : (s.setQop k x).links = s.links := rfl
@[simp] theorem State.setQop_parts (s : State) (k : Nat) (x : QuOp) : (s.setQop k x).parts = s.parts := rfl
@[simp] theorem State.setQop_mem (s : State) (k : Nat) (x : QuOp) : (s.setQop k x).mem = s.mem := rfl
@[simp] theorem State.setQop_drawer (s : State) (k : Nat) (x : QuOp) : (s.setQop k x).drawer = s.drawer := rfl
@[simp] theorem State.setQop_lines (s : State) (k : Nat) (x : QuOp) : (s.setQop k x).lines = s.lines := rfl
@[simp] theorem State.setQop_cmds (s : State) (k : Nat) (x : QuOp) : (s.setQop k x).cmds = s.cmds := rfl
@[simp] theorem State.setQop_reqs (s : State) (k : Nat) (x : QuOp) : (s.setQop k x).reqs = s.reqs := rfl
@[simp] theorem State.setQop_host (s : State) (k : Nat) (x : QuOp) : (s.setQop k x).host = s.host := rfl
@[simp] theorem State.setQop_packets (s : State) (k : Nat) (x : QuOp) : (s.setQop k x).packets = s.packets := rfl
@[simp] theorem State.setQop_peerSent (s : State) (k : Nat) (x : QuOp) : (s.setQop k x).peerSent = s.peerSent := rfl
@[simp] theorem State.setQop_walks (s : State) (k : Nat) (x : QuOp) : (s.setQop k x).walks = s.walks := rfl
@[simp] theorem State.setQop_tasks (s : State) (k : Nat) (x : QuOp) : (s.setQop k x).tasks = s.tasks := rfl
@[simp] theorem State.setQop_flips (s : State) (k : Nat) (x : QuOp) : (s.setQop k x).flips = s.flips := rfl
@[simp] theorem State.setQop_resizes (s : State) (k : Nat) (x : QuOp) : (s.setQop k x).resizes = s.resizes := rfl
@[simp] theorem State.setQop_bound (s : State) (k : Nat) (x : QuOp) : (s.setQop k x).bound = s.bound := rfl
@[simp] theorem State.setQop_free (s : State) (k : Nat) (x : QuOp) : (s.setQop k x).free = s.free := rfl
@[simp] theorem State.setQop_time (s : State) (k : Nat) (x : QuOp) : (s.setQop k x).time = s.time := rfl
@[simp] theorem State.setQop_bootstat (s : State) (k : Nat) (x : QuOp) : (s.setQop k x).bootstat = s.bootstat := rfl
@[simp] theorem State.setQop_featack (s : State) (k : Nat) (x : QuOp) : (s.setQop k x).featack = s.featack := rfl
@[simp] theorem State.setQop_featSet (s : State) (k : Nat) (x : QuOp) : (s.setQop k x).featSet = s.featSet := rfl
@[simp] theorem State.setQop_attNonce (s : State) (k : Nat) (x : QuOp) : (s.setQop k x).attNonce = s.attNonce := rfl
@[simp] theorem State.setQop_attReady (s : State) (k : Nat) (x : QuOp) : (s.setQop k x).attReady = s.attReady := rfl
@[simp] theorem State.setQop_attRep (s : State) (k : Nat) (x : QuOp) : (s.setQop k x).attRep = s.attRep := rfl
@[simp] theorem State.setQop_attCount (s : State) (k : Nat) (x : QuOp) : (s.setQop k x).attCount = s.attCount := rfl
@[simp] theorem State.setQop_stretch (s : State) (k : Nat) (x : QuOp) : (s.setQop k x).stretch = s.stretch := rfl
@[simp] theorem State.setQop_sag (s : State) (k : Nat) (x : QuOp) : (s.setQop k x).sag = s.sag := rfl
@[simp] theorem State.setQop_stretchStamp (s : State) (k : Nat) (x : QuOp) : (s.setQop k x).stretchStamp = s.stretchStamp := rfl
@[simp] theorem State.setQop_stretchCount (s : State) (k : Nat) (x : QuOp) : (s.setQop k x).stretchCount = s.stretchCount := rfl
@[simp] theorem State.setQop_temps (s : State) (k : Nat) (x : QuOp) : (s.setQop k x).temps = s.temps := rfl
@[simp] theorem State.setQop_hot (s : State) (k : Nat) (x : QuOp) : (s.setQop k x).hot = s.hot := rfl
@[simp] theorem State.setQop_stopped (s : State) (k : Nat) (x : QuOp) : (s.setQop k x).stopped = s.stopped := rfl
@[simp] theorem State.setQop_fatal (s : State) (k : Nat) (x : QuOp) : (s.setQop k x).fatal = s.fatal := rfl
@[simp] theorem State.setQop_msix (s : State) (k : Nat) (x : QuOp) : (s.setQop k x).msix = s.msix := rfl
@[simp] theorem State.setQop_msixPend (s : State) (k : Nat) (x : QuOp) : (s.setQop k x).msixPend = s.msixPend := rfl
@[simp] theorem State.setQop_msixMasked (s : State) (k : Nat) (x : QuOp) : (s.setQop k x).msixMasked = s.msixMasked := rfl
@[simp] theorem State.setQop_sent (s : State) (k : Nat) (x : QuOp) : (s.setQop k x).sent = s.sent := rfl
@[simp] theorem State.setQop_answers (s : State) (k : Nat) (x : QuOp) : (s.setQop k x).answers = s.answers := rfl

@[simp] theorem State.setReq_now (s : State) (k : Nat) (x : Req) : (s.setReq k x).now = s.now := rfl
@[simp] theorem State.setReq_agenda (s : State) (k : Nat) (x : Req) : (s.setReq k x).agenda = s.agenda := rfl
@[simp] theorem State.setReq_ev (s : State) (k : Nat) (x : Req) : (s.setReq k x).ev = s.ev := rfl
@[simp] theorem State.setReq_cur (s : State) (k : Nat) (x : Req) : (s.setReq k x).cur = s.cur := rfl
@[simp] theorem State.setReq_waves (s : State) (k : Nat) (x : Req) : (s.setReq k x).waves = s.waves := rfl
@[simp] theorem State.setReq_teams (s : State) (k : Nat) (x : Req) : (s.setReq k x).teams = s.teams := rfl
@[simp] theorem State.setReq_launches (s : State) (k : Nat) (x : Req) : (s.setReq k x).launches = s.launches := rfl
@[simp] theorem State.setReq_nextId (s : State) (k : Nat) (x : Req) : (s.setReq k x).nextId = s.nextId := rfl
@[simp] theorem State.setReq_cores (s : State) (k : Nat) (x : Req) : (s.setReq k x).cores = s.cores := rfl
@[simp] theorem State.setReq_clovers (s : State) (k : Nat) (x : Req) : (s.setReq k x).clovers = s.clovers := rfl
@[simp] theorem State.setReq_dies (s : State) (k : Nat) (x : Req) : (s.setReq k x).dies = s.dies := rfl
@[simp] theorem State.setReq_links (s : State) (k : Nat) (x : Req) : (s.setReq k x).links = s.links := rfl
@[simp] theorem State.setReq_parts (s : State) (k : Nat) (x : Req) : (s.setReq k x).parts = s.parts := rfl
@[simp] theorem State.setReq_mem (s : State) (k : Nat) (x : Req) : (s.setReq k x).mem = s.mem := rfl
@[simp] theorem State.setReq_drawer (s : State) (k : Nat) (x : Req) : (s.setReq k x).drawer = s.drawer := rfl
@[simp] theorem State.setReq_lines (s : State) (k : Nat) (x : Req) : (s.setReq k x).lines = s.lines := rfl
@[simp] theorem State.setReq_qops (s : State) (k : Nat) (x : Req) : (s.setReq k x).qops = s.qops := rfl
@[simp] theorem State.setReq_cmds (s : State) (k : Nat) (x : Req) : (s.setReq k x).cmds = s.cmds := rfl
@[simp] theorem State.setReq_host (s : State) (k : Nat) (x : Req) : (s.setReq k x).host = s.host := rfl
@[simp] theorem State.setReq_packets (s : State) (k : Nat) (x : Req) : (s.setReq k x).packets = s.packets := rfl
@[simp] theorem State.setReq_peerSent (s : State) (k : Nat) (x : Req) : (s.setReq k x).peerSent = s.peerSent := rfl
@[simp] theorem State.setReq_walks (s : State) (k : Nat) (x : Req) : (s.setReq k x).walks = s.walks := rfl
@[simp] theorem State.setReq_tasks (s : State) (k : Nat) (x : Req) : (s.setReq k x).tasks = s.tasks := rfl
@[simp] theorem State.setReq_flips (s : State) (k : Nat) (x : Req) : (s.setReq k x).flips = s.flips := rfl
@[simp] theorem State.setReq_resizes (s : State) (k : Nat) (x : Req) : (s.setReq k x).resizes = s.resizes := rfl
@[simp] theorem State.setReq_bound (s : State) (k : Nat) (x : Req) : (s.setReq k x).bound = s.bound := rfl
@[simp] theorem State.setReq_free (s : State) (k : Nat) (x : Req) : (s.setReq k x).free = s.free := rfl
@[simp] theorem State.setReq_time (s : State) (k : Nat) (x : Req) : (s.setReq k x).time = s.time := rfl
@[simp] theorem State.setReq_bootstat (s : State) (k : Nat) (x : Req) : (s.setReq k x).bootstat = s.bootstat := rfl
@[simp] theorem State.setReq_featack (s : State) (k : Nat) (x : Req) : (s.setReq k x).featack = s.featack := rfl
@[simp] theorem State.setReq_featSet (s : State) (k : Nat) (x : Req) : (s.setReq k x).featSet = s.featSet := rfl
@[simp] theorem State.setReq_attNonce (s : State) (k : Nat) (x : Req) : (s.setReq k x).attNonce = s.attNonce := rfl
@[simp] theorem State.setReq_attReady (s : State) (k : Nat) (x : Req) : (s.setReq k x).attReady = s.attReady := rfl
@[simp] theorem State.setReq_attRep (s : State) (k : Nat) (x : Req) : (s.setReq k x).attRep = s.attRep := rfl
@[simp] theorem State.setReq_attCount (s : State) (k : Nat) (x : Req) : (s.setReq k x).attCount = s.attCount := rfl
@[simp] theorem State.setReq_stretch (s : State) (k : Nat) (x : Req) : (s.setReq k x).stretch = s.stretch := rfl
@[simp] theorem State.setReq_sag (s : State) (k : Nat) (x : Req) : (s.setReq k x).sag = s.sag := rfl
@[simp] theorem State.setReq_stretchStamp (s : State) (k : Nat) (x : Req) : (s.setReq k x).stretchStamp = s.stretchStamp := rfl
@[simp] theorem State.setReq_stretchCount (s : State) (k : Nat) (x : Req) : (s.setReq k x).stretchCount = s.stretchCount := rfl
@[simp] theorem State.setReq_temps (s : State) (k : Nat) (x : Req) : (s.setReq k x).temps = s.temps := rfl
@[simp] theorem State.setReq_hot (s : State) (k : Nat) (x : Req) : (s.setReq k x).hot = s.hot := rfl
@[simp] theorem State.setReq_stopped (s : State) (k : Nat) (x : Req) : (s.setReq k x).stopped = s.stopped := rfl
@[simp] theorem State.setReq_fatal (s : State) (k : Nat) (x : Req) : (s.setReq k x).fatal = s.fatal := rfl
@[simp] theorem State.setReq_msix (s : State) (k : Nat) (x : Req) : (s.setReq k x).msix = s.msix := rfl
@[simp] theorem State.setReq_msixPend (s : State) (k : Nat) (x : Req) : (s.setReq k x).msixPend = s.msixPend := rfl
@[simp] theorem State.setReq_msixMasked (s : State) (k : Nat) (x : Req) : (s.setReq k x).msixMasked = s.msixMasked := rfl
@[simp] theorem State.setReq_sent (s : State) (k : Nat) (x : Req) : (s.setReq k x).sent = s.sent := rfl
@[simp] theorem State.setReq_answers (s : State) (k : Nat) (x : Req) : (s.setReq k x).answers = s.answers := rfl

@[simp] theorem State.after_now (s : State) (d : Nat) (i : Instr) (a : List Nat) : (s.after d i a).now = s.now := rfl
@[simp] theorem State.after_ev (s : State) (d : Nat) (i : Instr) (a : List Nat) : (s.after d i a).ev = s.ev := rfl
@[simp] theorem State.after_cur (s : State) (d : Nat) (i : Instr) (a : List Nat) : (s.after d i a).cur = s.cur := rfl
@[simp] theorem State.after_waves (s : State) (d : Nat) (i : Instr) (a : List Nat) : (s.after d i a).waves = s.waves := rfl
@[simp] theorem State.after_teams (s : State) (d : Nat) (i : Instr) (a : List Nat) : (s.after d i a).teams = s.teams := rfl
@[simp] theorem State.after_launches (s : State) (d : Nat) (i : Instr) (a : List Nat) : (s.after d i a).launches = s.launches := rfl
@[simp] theorem State.after_nextId (s : State) (d : Nat) (i : Instr) (a : List Nat) : (s.after d i a).nextId = s.nextId := rfl
@[simp] theorem State.after_cores (s : State) (d : Nat) (i : Instr) (a : List Nat) : (s.after d i a).cores = s.cores := rfl
@[simp] theorem State.after_clovers (s : State) (d : Nat) (i : Instr) (a : List Nat) : (s.after d i a).clovers = s.clovers := rfl
@[simp] theorem State.after_dies (s : State) (d : Nat) (i : Instr) (a : List Nat) : (s.after d i a).dies = s.dies := rfl
@[simp] theorem State.after_links (s : State) (d : Nat) (i : Instr) (a : List Nat) : (s.after d i a).links = s.links := rfl
@[simp] theorem State.after_parts (s : State) (d : Nat) (i : Instr) (a : List Nat) : (s.after d i a).parts = s.parts := rfl
@[simp] theorem State.after_mem (s : State) (d : Nat) (i : Instr) (a : List Nat) : (s.after d i a).mem = s.mem := rfl
@[simp] theorem State.after_drawer (s : State) (d : Nat) (i : Instr) (a : List Nat) : (s.after d i a).drawer = s.drawer := rfl
@[simp] theorem State.after_lines (s : State) (d : Nat) (i : Instr) (a : List Nat) : (s.after d i a).lines = s.lines := rfl
@[simp] theorem State.after_qops (s : State) (d : Nat) (i : Instr) (a : List Nat) : (s.after d i a).qops = s.qops := rfl
@[simp] theorem State.after_cmds (s : State) (d : Nat) (i : Instr) (a : List Nat) : (s.after d i a).cmds = s.cmds := rfl
@[simp] theorem State.after_reqs (s : State) (d : Nat) (i : Instr) (a : List Nat) : (s.after d i a).reqs = s.reqs := rfl
@[simp] theorem State.after_host (s : State) (d : Nat) (i : Instr) (a : List Nat) : (s.after d i a).host = s.host := rfl
@[simp] theorem State.after_packets (s : State) (d : Nat) (i : Instr) (a : List Nat) : (s.after d i a).packets = s.packets := rfl
@[simp] theorem State.after_peerSent (s : State) (d : Nat) (i : Instr) (a : List Nat) : (s.after d i a).peerSent = s.peerSent := rfl
@[simp] theorem State.after_walks (s : State) (d : Nat) (i : Instr) (a : List Nat) : (s.after d i a).walks = s.walks := rfl
@[simp] theorem State.after_tasks (s : State) (d : Nat) (i : Instr) (a : List Nat) : (s.after d i a).tasks = s.tasks := rfl
@[simp] theorem State.after_flips (s : State) (d : Nat) (i : Instr) (a : List Nat) : (s.after d i a).flips = s.flips := rfl
@[simp] theorem State.after_resizes (s : State) (d : Nat) (i : Instr) (a : List Nat) : (s.after d i a).resizes = s.resizes := rfl
@[simp] theorem State.after_bound (s : State) (d : Nat) (i : Instr) (a : List Nat) : (s.after d i a).bound = s.bound := rfl
@[simp] theorem State.after_free (s : State) (d : Nat) (i : Instr) (a : List Nat) : (s.after d i a).free = s.free := rfl
@[simp] theorem State.after_time (s : State) (d : Nat) (i : Instr) (a : List Nat) : (s.after d i a).time = s.time := rfl
@[simp] theorem State.after_bootstat (s : State) (d : Nat) (i : Instr) (a : List Nat) : (s.after d i a).bootstat = s.bootstat := rfl
@[simp] theorem State.after_featack (s : State) (d : Nat) (i : Instr) (a : List Nat) : (s.after d i a).featack = s.featack := rfl
@[simp] theorem State.after_featSet (s : State) (d : Nat) (i : Instr) (a : List Nat) : (s.after d i a).featSet = s.featSet := rfl
@[simp] theorem State.after_attNonce (s : State) (d : Nat) (i : Instr) (a : List Nat) : (s.after d i a).attNonce = s.attNonce := rfl
@[simp] theorem State.after_attReady (s : State) (d : Nat) (i : Instr) (a : List Nat) : (s.after d i a).attReady = s.attReady := rfl
@[simp] theorem State.after_attRep (s : State) (d : Nat) (i : Instr) (a : List Nat) : (s.after d i a).attRep = s.attRep := rfl
@[simp] theorem State.after_attCount (s : State) (d : Nat) (i : Instr) (a : List Nat) : (s.after d i a).attCount = s.attCount := rfl
@[simp] theorem State.after_stretch (s : State) (d : Nat) (i : Instr) (a : List Nat) : (s.after d i a).stretch = s.stretch := rfl
@[simp] theorem State.after_sag (s : State) (d : Nat) (i : Instr) (a : List Nat) : (s.after d i a).sag = s.sag := rfl
@[simp] theorem State.after_stretchStamp (s : State) (d : Nat) (i : Instr) (a : List Nat) : (s.after d i a).stretchStamp = s.stretchStamp := rfl
@[simp] theorem State.after_stretchCount (s : State) (d : Nat) (i : Instr) (a : List Nat) : (s.after d i a).stretchCount = s.stretchCount := rfl
@[simp] theorem State.after_temps (s : State) (d : Nat) (i : Instr) (a : List Nat) : (s.after d i a).temps = s.temps := rfl
@[simp] theorem State.after_hot (s : State) (d : Nat) (i : Instr) (a : List Nat) : (s.after d i a).hot = s.hot := rfl
@[simp] theorem State.after_stopped (s : State) (d : Nat) (i : Instr) (a : List Nat) : (s.after d i a).stopped = s.stopped := rfl
@[simp] theorem State.after_fatal (s : State) (d : Nat) (i : Instr) (a : List Nat) : (s.after d i a).fatal = s.fatal := rfl
@[simp] theorem State.after_msix (s : State) (d : Nat) (i : Instr) (a : List Nat) : (s.after d i a).msix = s.msix := rfl
@[simp] theorem State.after_msixPend (s : State) (d : Nat) (i : Instr) (a : List Nat) : (s.after d i a).msixPend = s.msixPend := rfl
@[simp] theorem State.after_msixMasked (s : State) (d : Nat) (i : Instr) (a : List Nat) : (s.after d i a).msixMasked = s.msixMasked := rfl
@[simp] theorem State.after_sent (s : State) (d : Nat) (i : Instr) (a : List Nat) : (s.after d i a).sent = s.sent := rfl
@[simp] theorem State.after_answers (s : State) (d : Nat) (i : Instr) (a : List Nat) : (s.after d i a).answers = s.answers := rfl

@[simp] theorem State.at_now (s : State) (t : Nat) (i : Instr) (a : List Nat) : (s.at_ t i a).now = s.now := rfl
@[simp] theorem State.at_ev (s : State) (t : Nat) (i : Instr) (a : List Nat) : (s.at_ t i a).ev = s.ev := rfl
@[simp] theorem State.at_cur (s : State) (t : Nat) (i : Instr) (a : List Nat) : (s.at_ t i a).cur = s.cur := rfl
@[simp] theorem State.at_waves (s : State) (t : Nat) (i : Instr) (a : List Nat) : (s.at_ t i a).waves = s.waves := rfl
@[simp] theorem State.at_teams (s : State) (t : Nat) (i : Instr) (a : List Nat) : (s.at_ t i a).teams = s.teams := rfl
@[simp] theorem State.at_launches (s : State) (t : Nat) (i : Instr) (a : List Nat) : (s.at_ t i a).launches = s.launches := rfl
@[simp] theorem State.at_nextId (s : State) (t : Nat) (i : Instr) (a : List Nat) : (s.at_ t i a).nextId = s.nextId := rfl
@[simp] theorem State.at_cores (s : State) (t : Nat) (i : Instr) (a : List Nat) : (s.at_ t i a).cores = s.cores := rfl
@[simp] theorem State.at_clovers (s : State) (t : Nat) (i : Instr) (a : List Nat) : (s.at_ t i a).clovers = s.clovers := rfl
@[simp] theorem State.at_dies (s : State) (t : Nat) (i : Instr) (a : List Nat) : (s.at_ t i a).dies = s.dies := rfl
@[simp] theorem State.at_links (s : State) (t : Nat) (i : Instr) (a : List Nat) : (s.at_ t i a).links = s.links := rfl
@[simp] theorem State.at_parts (s : State) (t : Nat) (i : Instr) (a : List Nat) : (s.at_ t i a).parts = s.parts := rfl
@[simp] theorem State.at_mem (s : State) (t : Nat) (i : Instr) (a : List Nat) : (s.at_ t i a).mem = s.mem := rfl
@[simp] theorem State.at_drawer (s : State) (t : Nat) (i : Instr) (a : List Nat) : (s.at_ t i a).drawer = s.drawer := rfl
@[simp] theorem State.at_lines (s : State) (t : Nat) (i : Instr) (a : List Nat) : (s.at_ t i a).lines = s.lines := rfl
@[simp] theorem State.at_qops (s : State) (t : Nat) (i : Instr) (a : List Nat) : (s.at_ t i a).qops = s.qops := rfl
@[simp] theorem State.at_cmds (s : State) (t : Nat) (i : Instr) (a : List Nat) : (s.at_ t i a).cmds = s.cmds := rfl
@[simp] theorem State.at_reqs (s : State) (t : Nat) (i : Instr) (a : List Nat) : (s.at_ t i a).reqs = s.reqs := rfl
@[simp] theorem State.at_host (s : State) (t : Nat) (i : Instr) (a : List Nat) : (s.at_ t i a).host = s.host := rfl
@[simp] theorem State.at_packets (s : State) (t : Nat) (i : Instr) (a : List Nat) : (s.at_ t i a).packets = s.packets := rfl
@[simp] theorem State.at_peerSent (s : State) (t : Nat) (i : Instr) (a : List Nat) : (s.at_ t i a).peerSent = s.peerSent := rfl
@[simp] theorem State.at_walks (s : State) (t : Nat) (i : Instr) (a : List Nat) : (s.at_ t i a).walks = s.walks := rfl
@[simp] theorem State.at_tasks (s : State) (t : Nat) (i : Instr) (a : List Nat) : (s.at_ t i a).tasks = s.tasks := rfl
@[simp] theorem State.at_flips (s : State) (t : Nat) (i : Instr) (a : List Nat) : (s.at_ t i a).flips = s.flips := rfl
@[simp] theorem State.at_resizes (s : State) (t : Nat) (i : Instr) (a : List Nat) : (s.at_ t i a).resizes = s.resizes := rfl
@[simp] theorem State.at_bound (s : State) (t : Nat) (i : Instr) (a : List Nat) : (s.at_ t i a).bound = s.bound := rfl
@[simp] theorem State.at_free (s : State) (t : Nat) (i : Instr) (a : List Nat) : (s.at_ t i a).free = s.free := rfl
@[simp] theorem State.at_time (s : State) (t : Nat) (i : Instr) (a : List Nat) : (s.at_ t i a).time = s.time := rfl
@[simp] theorem State.at_bootstat (s : State) (t : Nat) (i : Instr) (a : List Nat) : (s.at_ t i a).bootstat = s.bootstat := rfl
@[simp] theorem State.at_featack (s : State) (t : Nat) (i : Instr) (a : List Nat) : (s.at_ t i a).featack = s.featack := rfl
@[simp] theorem State.at_featSet (s : State) (t : Nat) (i : Instr) (a : List Nat) : (s.at_ t i a).featSet = s.featSet := rfl
@[simp] theorem State.at_attNonce (s : State) (t : Nat) (i : Instr) (a : List Nat) : (s.at_ t i a).attNonce = s.attNonce := rfl
@[simp] theorem State.at_attReady (s : State) (t : Nat) (i : Instr) (a : List Nat) : (s.at_ t i a).attReady = s.attReady := rfl
@[simp] theorem State.at_attRep (s : State) (t : Nat) (i : Instr) (a : List Nat) : (s.at_ t i a).attRep = s.attRep := rfl
@[simp] theorem State.at_attCount (s : State) (t : Nat) (i : Instr) (a : List Nat) : (s.at_ t i a).attCount = s.attCount := rfl
@[simp] theorem State.at_stretch (s : State) (t : Nat) (i : Instr) (a : List Nat) : (s.at_ t i a).stretch = s.stretch := rfl
@[simp] theorem State.at_sag (s : State) (t : Nat) (i : Instr) (a : List Nat) : (s.at_ t i a).sag = s.sag := rfl
@[simp] theorem State.at_stretchStamp (s : State) (t : Nat) (i : Instr) (a : List Nat) : (s.at_ t i a).stretchStamp = s.stretchStamp := rfl
@[simp] theorem State.at_stretchCount (s : State) (t : Nat) (i : Instr) (a : List Nat) : (s.at_ t i a).stretchCount = s.stretchCount := rfl
@[simp] theorem State.at_temps (s : State) (t : Nat) (i : Instr) (a : List Nat) : (s.at_ t i a).temps = s.temps := rfl
@[simp] theorem State.at_hot (s : State) (t : Nat) (i : Instr) (a : List Nat) : (s.at_ t i a).hot = s.hot := rfl
@[simp] theorem State.at_stopped (s : State) (t : Nat) (i : Instr) (a : List Nat) : (s.at_ t i a).stopped = s.stopped := rfl
@[simp] theorem State.at_fatal (s : State) (t : Nat) (i : Instr) (a : List Nat) : (s.at_ t i a).fatal = s.fatal := rfl
@[simp] theorem State.at_msix (s : State) (t : Nat) (i : Instr) (a : List Nat) : (s.at_ t i a).msix = s.msix := rfl
@[simp] theorem State.at_msixPend (s : State) (t : Nat) (i : Instr) (a : List Nat) : (s.at_ t i a).msixPend = s.msixPend := rfl
@[simp] theorem State.at_msixMasked (s : State) (t : Nat) (i : Instr) (a : List Nat) : (s.at_ t i a).msixMasked = s.msixMasked := rfl
@[simp] theorem State.at_sent (s : State) (t : Nat) (i : Instr) (a : List Nat) : (s.at_ t i a).sent = s.sent := rfl
@[simp] theorem State.at_answers (s : State) (t : Nat) (i : Instr) (a : List Nat) : (s.at_ t i a).answers = s.answers := rfl

/-! Reading back. -/
@[simp] theorem State.wave?_setWave (s : State) (w : Nat) (x : Wave) (v : Nat) : (s.setWave w x).wave? v = if v = w then some x else s.wave? v := by
  simp [State.wave?, State.setWave]
@[simp] theorem State.wave_setWave (s : State) (w : Nat) (x : Wave) (v : Nat) : (s.setWave w x).wave v = if v = w then x else s.wave v := by
  simp only [State.wave, State.wave?_setWave]; split <;> rfl
@[simp] theorem State.wave?_dropWave (s : State) (w v : Nat) : (s.dropWave w).wave? v = if v = w then none else s.wave? v := by
  simp [State.wave?, State.dropWave]
theorem State.wave_of_wave? {s : State} {w : Nat} {x : Wave} (h : s.wave? w = some x) : s.wave w = x := by simp [State.wave, h]

@[simp] theorem State.core_setCore (s : State) (k : Nat) (x : Core) (j : Nat) : (s.setCore k x).core j = if j = k then x else s.core j := by
  simp [State.core, State.setCore]
@[simp] theorem State.core_modCore (s : State) (k : Nat) (f : Core → Core) (j : Nat) : (s.modCore k f).core j = if j = k then f (s.core k) else s.core j := by
  simp [State.modCore]
@[simp] theorem State.clover_setClover (s : State) (k : Nat) (x : Clover) (j : Nat) : (s.setClover k x).clover j = if j = k then x else s.clover j := by
  simp [State.clover, State.setClover]
@[simp] theorem State.clover_modClover (s : State) (k : Nat) (f : Clover → Clover) (j : Nat) : (s.modClover k f).clover j = if j = k then f (s.clover k) else s.clover j := by
  simp [State.modClover]
@[simp] theorem State.die_setDie (s : State) (k : Nat) (x : Die) (j : Nat) : (s.setDie k x).die j = if j = k then x else s.die j := by
  simp [State.die, State.setDie]
@[simp] theorem State.die_modDie (s : State) (k : Nat) (f : Die → Die) (j : Nat) : (s.modDie k f).die j = if j = k then f (s.die k) else s.die j := by
  simp [State.modDie]
@[simp] theorem State.link_setLink (s : State) (k : Nat) (x : Link) (j : Nat) : (s.setLink k x).link j = if j = k then x else s.link j := by
  simp [State.link, State.setLink]
@[simp] theorem State.link_modLink (s : State) (k : Nat) (f : Link → Link) (j : Nat) : (s.modLink k f).link j = if j = k then f (s.link k) else s.link j := by
  simp [State.modLink]
@[simp] theorem State.part_setPart (s : State) (k : Nat) (x : Part) (j : Nat) : (s.setPart k x).part j = if j = k then x else s.part j := by
  simp [State.part, State.setPart]
@[simp] theorem State.part_modPart (s : State) (k : Nat) (f : Part → Part) (j : Nat) : (s.modPart k f).part j = if j = k then f (s.part k) else s.part j := by
  simp [State.modPart]
@[simp] theorem State.line_setLine (s : State) (k : Nat) (x : Line) (j : Nat) : (s.setLine k x).line j = if j = k then x else s.line j := by
  simp [State.line, State.setLine]
@[simp] theorem State.line_modLine (s : State) (k : Nat) (f : Line → Line) (j : Nat) : (s.modLine k f).line j = if j = k then f (s.line k) else s.line j := by
  simp [State.modLine]
@[simp] theorem State.team?_setTeam (s : State) (k : Nat) (x : Team) (j : Nat) : (s.setTeam k x).team? j = if j = k then some x else s.team? j := by
  simp [State.team?, State.setTeam]
@[simp] theorem State.cmd?_setCmd (s : State) (k : Nat) (x : Cmd) (j : Nat) : (s.setCmd k x).cmd? j = if j = k then some x else s.cmd? j := by
  simp [State.cmd?, State.setCmd]
@[simp] theorem State.qop?_setQop (s : State) (k : Nat) (x : QuOp) (j : Nat) : (s.setQop k x).qop? j = if j = k then some x else s.qop? j := by
  simp [State.qop?, State.setQop]
@[simp] theorem State.req?_setReq (s : State) (k : Nat) (x : Req) (j : Nat) : (s.setReq k x).req? j = if j = k then some x else s.req? j := by
  simp [State.req?, State.setReq]

@[simp] theorem State.wave?_setCore (s : State) (k : Nat) (x : Core) (v : Nat) : (s.setCore k x).wave? v = s.wave? v := rfl
@[simp] theorem State.wave_setCore (s : State) (k : Nat) (x : Core) (v : Nat) : (s.setCore k x).wave v = s.wave v := rfl
@[simp] theorem State.wave?_setClover (s : State) (k : Nat) (x : Clover) (v : Nat) : (s.setClover k x).wave? v = s.wave? v := rfl
@[simp] theorem State.wave_setClover (s : State) (k : Nat) (x : Clover) (v : Nat) : (s.setClover k x).wave v = s.wave v := rfl
@[simp] theorem State.wave?_setDie (s : State) (k : Nat) (x : Die) (v : Nat) : (s.setDie k x).wave? v = s.wave? v := rfl
@[simp] theorem State.wave_setDie (s : State) (k : Nat) (x : Die) (v : Nat) : (s.setDie k x).wave v = s.wave v := rfl
@[simp] theorem State.wave?_setLink (s : State) (k : Nat) (x : Link) (v : Nat) : (s.setLink k x).wave? v = s.wave? v := rfl
@[simp] theorem State.wave_setLink (s : State) (k : Nat) (x : Link) (v : Nat) : (s.setLink k x).wave v = s.wave v := rfl
@[simp] theorem State.wave?_setPart (s : State) (k : Nat) (x : Part) (v : Nat) : (s.setPart k x).wave? v = s.wave? v := rfl
@[simp] theorem State.wave_setPart (s : State) (k : Nat) (x : Part) (v : Nat) : (s.setPart k x).wave v = s.wave v := rfl
@[simp] theorem State.wave?_setLine (s : State) (k : Nat) (x : Line) (v : Nat) : (s.setLine k x).wave? v = s.wave? v := rfl
@[simp] theorem State.wave_setLine (s : State) (k : Nat) (x : Line) (v : Nat) : (s.setLine k x).wave v = s.wave v := rfl
@[simp] theorem State.wave?_setTeam (s : State) (k : Nat) (x : Team) (v : Nat) : (s.setTeam k x).wave? v = s.wave? v := rfl
@[simp] theorem State.wave_setTeam (s : State) (k : Nat) (x : Team) (v : Nat) : (s.setTeam k x).wave v = s.wave v := rfl
@[simp] theorem State.wave?_setCmd (s : State) (k : Nat) (x : Cmd) (v : Nat) : (s.setCmd k x).wave? v = s.wave? v := rfl
@[simp] theorem State.wave_setCmd (s : State) (k : Nat) (x : Cmd) (v : Nat) : (s.setCmd k x).wave v = s.wave v := rfl
@[simp] theorem State.wave?_setQop (s : State) (k : Nat) (x : QuOp) (v : Nat) : (s.setQop k x).wave? v = s.wave? v := rfl
@[simp] theorem State.wave_setQop (s : State) (k : Nat) (x : QuOp) (v : Nat) : (s.setQop k x).wave v = s.wave v := rfl
@[simp] theorem State.wave?_setReq (s : State) (k : Nat) (x : Req) (v : Nat) : (s.setReq k x).wave? v = s.wave? v := rfl
@[simp] theorem State.wave_setReq (s : State) (k : Nat) (x : Req) (v : Nat) : (s.setReq k x).wave v = s.wave v := rfl
@[simp] theorem State.wave?_after (s : State) (d : Nat) (i : Instr) (a : List Nat) (v : Nat) : (s.after d i a).wave? v = s.wave? v := rfl
@[simp] theorem State.wave_after (s : State) (d : Nat) (i : Instr) (a : List Nat) (v : Nat) : (s.after d i a).wave v = s.wave v := rfl
@[simp] theorem State.wave?_at_ (s : State) (t : Nat) (i : Instr) (a : List Nat) (v : Nat) : (s.at_ t i a).wave? v = s.wave? v := rfl
@[simp] theorem State.wave_at_ (s : State) (t : Nat) (i : Instr) (a : List Nat) (v : Nat) : (s.at_ t i a).wave v = s.wave v := rfl

/-! Changing a wave that may be absent. -/
theorem State.modWave_some {s : State} {w : Nat} {x : Wave} (h : s.wave? w = some x) (f : Wave → Wave) : s.modWave w f = s.setWave w (f x) := by
  simp [State.modWave, h]
theorem State.modWave_none {s : State} {w : Nat} (h : s.wave? w = none) (f : Wave → Wave) : s.modWave w f = s := by simp [State.modWave, h]
theorem State.wave?_modWave (s : State) (w : Nat) (f : Wave → Wave) (v : Nat) :
    (s.modWave w f).wave? v = if v = w then (s.wave? v).map f else s.wave? v := by
  unfold State.modWave
  split
  · rename_i x h
    rw [State.wave?_setWave]
    by_cases e : v = w
    · subst e; simp [h]
    · simp [e]
  · rename_i h
    by_cases e : v = w
    · subst e; simp [h]
    · simp [e]

@[simp] theorem State.modWave_now (s : State) (w : Nat) (f : Wave → Wave) : (s.modWave w f).now = s.now := by unfold State.modWave; split <;> rfl
@[simp] theorem State.modWave_agenda (s : State) (w : Nat) (f : Wave → Wave) : (s.modWave w f).agenda = s.agenda := by unfold State.modWave; split <;> rfl
@[simp] theorem State.modWave_ev (s : State) (w : Nat) (f : Wave → Wave) : (s.modWave w f).ev = s.ev := by unfold State.modWave; split <;> rfl
@[simp] theorem State.modWave_cur (s : State) (w : Nat) (f : Wave → Wave) : (s.modWave w f).cur = s.cur := by unfold State.modWave; split <;> rfl
@[simp] theorem State.modWave_teams (s : State) (w : Nat) (f : Wave → Wave) : (s.modWave w f).teams = s.teams := by unfold State.modWave; split <;> rfl
@[simp] theorem State.modWave_launches (s : State) (w : Nat) (f : Wave → Wave) : (s.modWave w f).launches = s.launches := by unfold State.modWave; split <;> rfl
@[simp] theorem State.modWave_nextId (s : State) (w : Nat) (f : Wave → Wave) : (s.modWave w f).nextId = s.nextId := by unfold State.modWave; split <;> rfl
@[simp] theorem State.modWave_cores (s : State) (w : Nat) (f : Wave → Wave) : (s.modWave w f).cores = s.cores := by unfold State.modWave; split <;> rfl
@[simp] theorem State.modWave_clovers (s : State) (w : Nat) (f : Wave → Wave) : (s.modWave w f).clovers = s.clovers := by unfold State.modWave; split <;> rfl
@[simp] theorem State.modWave_dies (s : State) (w : Nat) (f : Wave → Wave) : (s.modWave w f).dies = s.dies := by unfold State.modWave; split <;> rfl
@[simp] theorem State.modWave_links (s : State) (w : Nat) (f : Wave → Wave) : (s.modWave w f).links = s.links := by unfold State.modWave; split <;> rfl
@[simp] theorem State.modWave_parts (s : State) (w : Nat) (f : Wave → Wave) : (s.modWave w f).parts = s.parts := by unfold State.modWave; split <;> rfl
@[simp] theorem State.modWave_mem (s : State) (w : Nat) (f : Wave → Wave) : (s.modWave w f).mem = s.mem := by unfold State.modWave; split <;> rfl
@[simp] theorem State.modWave_drawer (s : State) (w : Nat) (f : Wave → Wave) : (s.modWave w f).drawer = s.drawer := by unfold State.modWave; split <;> rfl
@[simp] theorem State.modWave_lines (s : State) (w : Nat) (f : Wave → Wave) : (s.modWave w f).lines = s.lines := by unfold State.modWave; split <;> rfl
@[simp] theorem State.modWave_qops (s : State) (w : Nat) (f : Wave → Wave) : (s.modWave w f).qops = s.qops := by unfold State.modWave; split <;> rfl
@[simp] theorem State.modWave_cmds (s : State) (w : Nat) (f : Wave → Wave) : (s.modWave w f).cmds = s.cmds := by unfold State.modWave; split <;> rfl
@[simp] theorem State.modWave_reqs (s : State) (w : Nat) (f : Wave → Wave) : (s.modWave w f).reqs = s.reqs := by unfold State.modWave; split <;> rfl
@[simp] theorem State.modWave_host (s : State) (w : Nat) (f : Wave → Wave) : (s.modWave w f).host = s.host := by unfold State.modWave; split <;> rfl
@[simp] theorem State.modWave_packets (s : State) (w : Nat) (f : Wave → Wave) : (s.modWave w f).packets = s.packets := by unfold State.modWave; split <;> rfl
@[simp] theorem State.modWave_peerSent (s : State) (w : Nat) (f : Wave → Wave) : (s.modWave w f).peerSent = s.peerSent := by unfold State.modWave; split <;> rfl
@[simp] theorem State.modWave_walks (s : State) (w : Nat) (f : Wave → Wave) : (s.modWave w f).walks = s.walks := by unfold State.modWave; split <;> rfl
@[simp] theorem State.modWave_tasks (s : State) (w : Nat) (f : Wave → Wave) : (s.modWave w f).tasks = s.tasks := by unfold State.modWave; split <;> rfl
@[simp] theorem State.modWave_flips (s : State) (w : Nat) (f : Wave → Wave) : (s.modWave w f).flips = s.flips := by unfold State.modWave; split <;> rfl
@[simp] theorem State.modWave_resizes (s : State) (w : Nat) (f : Wave → Wave) : (s.modWave w f).resizes = s.resizes := by unfold State.modWave; split <;> rfl
@[simp] theorem State.modWave_bound (s : State) (w : Nat) (f : Wave → Wave) : (s.modWave w f).bound = s.bound := by unfold State.modWave; split <;> rfl
@[simp] theorem State.modWave_free (s : State) (w : Nat) (f : Wave → Wave) : (s.modWave w f).free = s.free := by unfold State.modWave; split <;> rfl
@[simp] theorem State.modWave_time (s : State) (w : Nat) (f : Wave → Wave) : (s.modWave w f).time = s.time := by unfold State.modWave; split <;> rfl
@[simp] theorem State.modWave_bootstat (s : State) (w : Nat) (f : Wave → Wave) : (s.modWave w f).bootstat = s.bootstat := by unfold State.modWave; split <;> rfl
@[simp] theorem State.modWave_featack (s : State) (w : Nat) (f : Wave → Wave) : (s.modWave w f).featack = s.featack := by unfold State.modWave; split <;> rfl
@[simp] theorem State.modWave_featSet (s : State) (w : Nat) (f : Wave → Wave) : (s.modWave w f).featSet = s.featSet := by unfold State.modWave; split <;> rfl
@[simp] theorem State.modWave_attNonce (s : State) (w : Nat) (f : Wave → Wave) : (s.modWave w f).attNonce = s.attNonce := by unfold State.modWave; split <;> rfl
@[simp] theorem State.modWave_attReady (s : State) (w : Nat) (f : Wave → Wave) : (s.modWave w f).attReady = s.attReady := by unfold State.modWave; split <;> rfl
@[simp] theorem State.modWave_attRep (s : State) (w : Nat) (f : Wave → Wave) : (s.modWave w f).attRep = s.attRep := by unfold State.modWave; split <;> rfl
@[simp] theorem State.modWave_attCount (s : State) (w : Nat) (f : Wave → Wave) : (s.modWave w f).attCount = s.attCount := by unfold State.modWave; split <;> rfl
@[simp] theorem State.modWave_stretch (s : State) (w : Nat) (f : Wave → Wave) : (s.modWave w f).stretch = s.stretch := by unfold State.modWave; split <;> rfl
@[simp] theorem State.modWave_sag (s : State) (w : Nat) (f : Wave → Wave) : (s.modWave w f).sag = s.sag := by unfold State.modWave; split <;> rfl
@[simp] theorem State.modWave_stretchStamp (s : State) (w : Nat) (f : Wave → Wave) : (s.modWave w f).stretchStamp = s.stretchStamp := by unfold State.modWave; split <;> rfl
@[simp] theorem State.modWave_stretchCount (s : State) (w : Nat) (f : Wave → Wave) : (s.modWave w f).stretchCount = s.stretchCount := by unfold State.modWave; split <;> rfl
@[simp] theorem State.modWave_temps (s : State) (w : Nat) (f : Wave → Wave) : (s.modWave w f).temps = s.temps := by unfold State.modWave; split <;> rfl
@[simp] theorem State.modWave_hot (s : State) (w : Nat) (f : Wave → Wave) : (s.modWave w f).hot = s.hot := by unfold State.modWave; split <;> rfl
@[simp] theorem State.modWave_stopped (s : State) (w : Nat) (f : Wave → Wave) : (s.modWave w f).stopped = s.stopped := by unfold State.modWave; split <;> rfl
@[simp] theorem State.modWave_fatal (s : State) (w : Nat) (f : Wave → Wave) : (s.modWave w f).fatal = s.fatal := by unfold State.modWave; split <;> rfl
@[simp] theorem State.modWave_msix (s : State) (w : Nat) (f : Wave → Wave) : (s.modWave w f).msix = s.msix := by unfold State.modWave; split <;> rfl
@[simp] theorem State.modWave_msixPend (s : State) (w : Nat) (f : Wave → Wave) : (s.modWave w f).msixPend = s.msixPend := by unfold State.modWave; split <;> rfl
@[simp] theorem State.modWave_msixMasked (s : State) (w : Nat) (f : Wave → Wave) : (s.modWave w f).msixMasked = s.msixMasked := by unfold State.modWave; split <;> rfl
@[simp] theorem State.modWave_sent (s : State) (w : Nat) (f : Wave → Wave) : (s.modWave w f).sent = s.sent := by unfold State.modWave; split <;> rfl
@[simp] theorem State.modWave_answers (s : State) (w : Nat) (f : Wave → Wave) : (s.modWave w f).answers = s.answers := by unfold State.modWave; split <;> rfl
@[simp] theorem State.modCtx_now (s : State) (w : Nat) (f : Ctx → Ctx) : (s.modCtx w f).now = s.now := State.modWave_now s w _
@[simp] theorem State.modCtx_agenda (s : State) (w : Nat) (f : Ctx → Ctx) : (s.modCtx w f).agenda = s.agenda := State.modWave_agenda s w _
@[simp] theorem State.modCtx_ev (s : State) (w : Nat) (f : Ctx → Ctx) : (s.modCtx w f).ev = s.ev := State.modWave_ev s w _
@[simp] theorem State.modCtx_cur (s : State) (w : Nat) (f : Ctx → Ctx) : (s.modCtx w f).cur = s.cur := State.modWave_cur s w _
@[simp] theorem State.modCtx_teams (s : State) (w : Nat) (f : Ctx → Ctx) : (s.modCtx w f).teams = s.teams := State.modWave_teams s w _
@[simp] theorem State.modCtx_launches (s : State) (w : Nat) (f : Ctx → Ctx) : (s.modCtx w f).launches = s.launches := State.modWave_launches s w _
@[simp] theorem State.modCtx_nextId (s : State) (w : Nat) (f : Ctx → Ctx) : (s.modCtx w f).nextId = s.nextId := State.modWave_nextId s w _
@[simp] theorem State.modCtx_cores (s : State) (w : Nat) (f : Ctx → Ctx) : (s.modCtx w f).cores = s.cores := State.modWave_cores s w _
@[simp] theorem State.modCtx_clovers (s : State) (w : Nat) (f : Ctx → Ctx) : (s.modCtx w f).clovers = s.clovers := State.modWave_clovers s w _
@[simp] theorem State.modCtx_dies (s : State) (w : Nat) (f : Ctx → Ctx) : (s.modCtx w f).dies = s.dies := State.modWave_dies s w _
@[simp] theorem State.modCtx_links (s : State) (w : Nat) (f : Ctx → Ctx) : (s.modCtx w f).links = s.links := State.modWave_links s w _
@[simp] theorem State.modCtx_parts (s : State) (w : Nat) (f : Ctx → Ctx) : (s.modCtx w f).parts = s.parts := State.modWave_parts s w _
@[simp] theorem State.modCtx_mem (s : State) (w : Nat) (f : Ctx → Ctx) : (s.modCtx w f).mem = s.mem := State.modWave_mem s w _
@[simp] theorem State.modCtx_drawer (s : State) (w : Nat) (f : Ctx → Ctx) : (s.modCtx w f).drawer = s.drawer := State.modWave_drawer s w _
@[simp] theorem State.modCtx_lines (s : State) (w : Nat) (f : Ctx → Ctx) : (s.modCtx w f).lines = s.lines := State.modWave_lines s w _
@[simp] theorem State.modCtx_qops (s : State) (w : Nat) (f : Ctx → Ctx) : (s.modCtx w f).qops = s.qops := State.modWave_qops s w _
@[simp] theorem State.modCtx_cmds (s : State) (w : Nat) (f : Ctx → Ctx) : (s.modCtx w f).cmds = s.cmds := State.modWave_cmds s w _
@[simp] theorem State.modCtx_reqs (s : State) (w : Nat) (f : Ctx → Ctx) : (s.modCtx w f).reqs = s.reqs := State.modWave_reqs s w _
@[simp] theorem State.modCtx_host (s : State) (w : Nat) (f : Ctx → Ctx) : (s.modCtx w f).host = s.host := State.modWave_host s w _
@[simp] theorem State.modCtx_packets (s : State) (w : Nat) (f : Ctx → Ctx) : (s.modCtx w f).packets = s.packets := State.modWave_packets s w _
@[simp] theorem State.modCtx_peerSent (s : State) (w : Nat) (f : Ctx → Ctx) : (s.modCtx w f).peerSent = s.peerSent := State.modWave_peerSent s w _
@[simp] theorem State.modCtx_walks (s : State) (w : Nat) (f : Ctx → Ctx) : (s.modCtx w f).walks = s.walks := State.modWave_walks s w _
@[simp] theorem State.modCtx_tasks (s : State) (w : Nat) (f : Ctx → Ctx) : (s.modCtx w f).tasks = s.tasks := State.modWave_tasks s w _
@[simp] theorem State.modCtx_flips (s : State) (w : Nat) (f : Ctx → Ctx) : (s.modCtx w f).flips = s.flips := State.modWave_flips s w _
@[simp] theorem State.modCtx_resizes (s : State) (w : Nat) (f : Ctx → Ctx) : (s.modCtx w f).resizes = s.resizes := State.modWave_resizes s w _
@[simp] theorem State.modCtx_bound (s : State) (w : Nat) (f : Ctx → Ctx) : (s.modCtx w f).bound = s.bound := State.modWave_bound s w _
@[simp] theorem State.modCtx_free (s : State) (w : Nat) (f : Ctx → Ctx) : (s.modCtx w f).free = s.free := State.modWave_free s w _
@[simp] theorem State.modCtx_time (s : State) (w : Nat) (f : Ctx → Ctx) : (s.modCtx w f).time = s.time := State.modWave_time s w _
@[simp] theorem State.modCtx_bootstat (s : State) (w : Nat) (f : Ctx → Ctx) : (s.modCtx w f).bootstat = s.bootstat := State.modWave_bootstat s w _
@[simp] theorem State.modCtx_featack (s : State) (w : Nat) (f : Ctx → Ctx) : (s.modCtx w f).featack = s.featack := State.modWave_featack s w _
@[simp] theorem State.modCtx_featSet (s : State) (w : Nat) (f : Ctx → Ctx) : (s.modCtx w f).featSet = s.featSet := State.modWave_featSet s w _
@[simp] theorem State.modCtx_attNonce (s : State) (w : Nat) (f : Ctx → Ctx) : (s.modCtx w f).attNonce = s.attNonce := State.modWave_attNonce s w _
@[simp] theorem State.modCtx_attReady (s : State) (w : Nat) (f : Ctx → Ctx) : (s.modCtx w f).attReady = s.attReady := State.modWave_attReady s w _
@[simp] theorem State.modCtx_attRep (s : State) (w : Nat) (f : Ctx → Ctx) : (s.modCtx w f).attRep = s.attRep := State.modWave_attRep s w _
@[simp] theorem State.modCtx_attCount (s : State) (w : Nat) (f : Ctx → Ctx) : (s.modCtx w f).attCount = s.attCount := State.modWave_attCount s w _
@[simp] theorem State.modCtx_stretch (s : State) (w : Nat) (f : Ctx → Ctx) : (s.modCtx w f).stretch = s.stretch := State.modWave_stretch s w _
@[simp] theorem State.modCtx_sag (s : State) (w : Nat) (f : Ctx → Ctx) : (s.modCtx w f).sag = s.sag := State.modWave_sag s w _
@[simp] theorem State.modCtx_stretchStamp (s : State) (w : Nat) (f : Ctx → Ctx) : (s.modCtx w f).stretchStamp = s.stretchStamp := State.modWave_stretchStamp s w _
@[simp] theorem State.modCtx_stretchCount (s : State) (w : Nat) (f : Ctx → Ctx) : (s.modCtx w f).stretchCount = s.stretchCount := State.modWave_stretchCount s w _
@[simp] theorem State.modCtx_temps (s : State) (w : Nat) (f : Ctx → Ctx) : (s.modCtx w f).temps = s.temps := State.modWave_temps s w _
@[simp] theorem State.modCtx_hot (s : State) (w : Nat) (f : Ctx → Ctx) : (s.modCtx w f).hot = s.hot := State.modWave_hot s w _
@[simp] theorem State.modCtx_stopped (s : State) (w : Nat) (f : Ctx → Ctx) : (s.modCtx w f).stopped = s.stopped := State.modWave_stopped s w _
@[simp] theorem State.modCtx_fatal (s : State) (w : Nat) (f : Ctx → Ctx) : (s.modCtx w f).fatal = s.fatal := State.modWave_fatal s w _
@[simp] theorem State.modCtx_msix (s : State) (w : Nat) (f : Ctx → Ctx) : (s.modCtx w f).msix = s.msix := State.modWave_msix s w _
@[simp] theorem State.modCtx_msixPend (s : State) (w : Nat) (f : Ctx → Ctx) : (s.modCtx w f).msixPend = s.msixPend := State.modWave_msixPend s w _
@[simp] theorem State.modCtx_msixMasked (s : State) (w : Nat) (f : Ctx → Ctx) : (s.modCtx w f).msixMasked = s.msixMasked := State.modWave_msixMasked s w _
@[simp] theorem State.modCtx_sent (s : State) (w : Nat) (f : Ctx → Ctx) : (s.modCtx w f).sent = s.sent := State.modWave_sent s w _
@[simp] theorem State.modCtx_answers (s : State) (w : Nat) (f : Ctx → Ctx) : (s.modCtx w f).answers = s.answers := State.modWave_answers s w _
@[simp] theorem State.modTeam_now (s : State) (k : Nat) (f : Team → Team) : (s.modTeam k f).now = s.now := by unfold State.modTeam; split <;> rfl
@[simp] theorem State.modTeam_agenda (s : State) (k : Nat) (f : Team → Team) : (s.modTeam k f).agenda = s.agenda := by unfold State.modTeam; split <;> rfl
@[simp] theorem State.modTeam_ev (s : State) (k : Nat) (f : Team → Team) : (s.modTeam k f).ev = s.ev := by unfold State.modTeam; split <;> rfl
@[simp] theorem State.modTeam_cur (s : State) (k : Nat) (f : Team → Team) : (s.modTeam k f).cur = s.cur := by unfold State.modTeam; split <;> rfl
@[simp] theorem State.modTeam_waves (s : State) (k : Nat) (f : Team → Team) : (s.modTeam k f).waves = s.waves := by unfold State.modTeam; split <;> rfl
@[simp] theorem State.modTeam_launches (s : State) (k : Nat) (f : Team → Team) : (s.modTeam k f).launches = s.launches := by unfold State.modTeam; split <;> rfl
@[simp] theorem State.modTeam_nextId (s : State) (k : Nat) (f : Team → Team) : (s.modTeam k f).nextId = s.nextId := by unfold State.modTeam; split <;> rfl
@[simp] theorem State.modTeam_cores (s : State) (k : Nat) (f : Team → Team) : (s.modTeam k f).cores = s.cores := by unfold State.modTeam; split <;> rfl
@[simp] theorem State.modTeam_clovers (s : State) (k : Nat) (f : Team → Team) : (s.modTeam k f).clovers = s.clovers := by unfold State.modTeam; split <;> rfl
@[simp] theorem State.modTeam_dies (s : State) (k : Nat) (f : Team → Team) : (s.modTeam k f).dies = s.dies := by unfold State.modTeam; split <;> rfl
@[simp] theorem State.modTeam_links (s : State) (k : Nat) (f : Team → Team) : (s.modTeam k f).links = s.links := by unfold State.modTeam; split <;> rfl
@[simp] theorem State.modTeam_parts (s : State) (k : Nat) (f : Team → Team) : (s.modTeam k f).parts = s.parts := by unfold State.modTeam; split <;> rfl
@[simp] theorem State.modTeam_mem (s : State) (k : Nat) (f : Team → Team) : (s.modTeam k f).mem = s.mem := by unfold State.modTeam; split <;> rfl
@[simp] theorem State.modTeam_drawer (s : State) (k : Nat) (f : Team → Team) : (s.modTeam k f).drawer = s.drawer := by unfold State.modTeam; split <;> rfl
@[simp] theorem State.modTeam_lines (s : State) (k : Nat) (f : Team → Team) : (s.modTeam k f).lines = s.lines := by unfold State.modTeam; split <;> rfl
@[simp] theorem State.modTeam_qops (s : State) (k : Nat) (f : Team → Team) : (s.modTeam k f).qops = s.qops := by unfold State.modTeam; split <;> rfl
@[simp] theorem State.modTeam_cmds (s : State) (k : Nat) (f : Team → Team) : (s.modTeam k f).cmds = s.cmds := by unfold State.modTeam; split <;> rfl
@[simp] theorem State.modTeam_reqs (s : State) (k : Nat) (f : Team → Team) : (s.modTeam k f).reqs = s.reqs := by unfold State.modTeam; split <;> rfl
@[simp] theorem State.modTeam_host (s : State) (k : Nat) (f : Team → Team) : (s.modTeam k f).host = s.host := by unfold State.modTeam; split <;> rfl
@[simp] theorem State.modTeam_packets (s : State) (k : Nat) (f : Team → Team) : (s.modTeam k f).packets = s.packets := by unfold State.modTeam; split <;> rfl
@[simp] theorem State.modTeam_peerSent (s : State) (k : Nat) (f : Team → Team) : (s.modTeam k f).peerSent = s.peerSent := by unfold State.modTeam; split <;> rfl
@[simp] theorem State.modTeam_walks (s : State) (k : Nat) (f : Team → Team) : (s.modTeam k f).walks = s.walks := by unfold State.modTeam; split <;> rfl
@[simp] theorem State.modTeam_tasks (s : State) (k : Nat) (f : Team → Team) : (s.modTeam k f).tasks = s.tasks := by unfold State.modTeam; split <;> rfl
@[simp] theorem State.modTeam_flips (s : State) (k : Nat) (f : Team → Team) : (s.modTeam k f).flips = s.flips := by unfold State.modTeam; split <;> rfl
@[simp] theorem State.modTeam_resizes (s : State) (k : Nat) (f : Team → Team) : (s.modTeam k f).resizes = s.resizes := by unfold State.modTeam; split <;> rfl
@[simp] theorem State.modTeam_bound (s : State) (k : Nat) (f : Team → Team) : (s.modTeam k f).bound = s.bound := by unfold State.modTeam; split <;> rfl
@[simp] theorem State.modTeam_free (s : State) (k : Nat) (f : Team → Team) : (s.modTeam k f).free = s.free := by unfold State.modTeam; split <;> rfl
@[simp] theorem State.modTeam_time (s : State) (k : Nat) (f : Team → Team) : (s.modTeam k f).time = s.time := by unfold State.modTeam; split <;> rfl
@[simp] theorem State.modTeam_bootstat (s : State) (k : Nat) (f : Team → Team) : (s.modTeam k f).bootstat = s.bootstat := by unfold State.modTeam; split <;> rfl
@[simp] theorem State.modTeam_featack (s : State) (k : Nat) (f : Team → Team) : (s.modTeam k f).featack = s.featack := by unfold State.modTeam; split <;> rfl
@[simp] theorem State.modTeam_featSet (s : State) (k : Nat) (f : Team → Team) : (s.modTeam k f).featSet = s.featSet := by unfold State.modTeam; split <;> rfl
@[simp] theorem State.modTeam_attNonce (s : State) (k : Nat) (f : Team → Team) : (s.modTeam k f).attNonce = s.attNonce := by unfold State.modTeam; split <;> rfl
@[simp] theorem State.modTeam_attReady (s : State) (k : Nat) (f : Team → Team) : (s.modTeam k f).attReady = s.attReady := by unfold State.modTeam; split <;> rfl
@[simp] theorem State.modTeam_attRep (s : State) (k : Nat) (f : Team → Team) : (s.modTeam k f).attRep = s.attRep := by unfold State.modTeam; split <;> rfl
@[simp] theorem State.modTeam_attCount (s : State) (k : Nat) (f : Team → Team) : (s.modTeam k f).attCount = s.attCount := by unfold State.modTeam; split <;> rfl
@[simp] theorem State.modTeam_stretch (s : State) (k : Nat) (f : Team → Team) : (s.modTeam k f).stretch = s.stretch := by unfold State.modTeam; split <;> rfl
@[simp] theorem State.modTeam_sag (s : State) (k : Nat) (f : Team → Team) : (s.modTeam k f).sag = s.sag := by unfold State.modTeam; split <;> rfl
@[simp] theorem State.modTeam_stretchStamp (s : State) (k : Nat) (f : Team → Team) : (s.modTeam k f).stretchStamp = s.stretchStamp := by unfold State.modTeam; split <;> rfl
@[simp] theorem State.modTeam_stretchCount (s : State) (k : Nat) (f : Team → Team) : (s.modTeam k f).stretchCount = s.stretchCount := by unfold State.modTeam; split <;> rfl
@[simp] theorem State.modTeam_temps (s : State) (k : Nat) (f : Team → Team) : (s.modTeam k f).temps = s.temps := by unfold State.modTeam; split <;> rfl
@[simp] theorem State.modTeam_hot (s : State) (k : Nat) (f : Team → Team) : (s.modTeam k f).hot = s.hot := by unfold State.modTeam; split <;> rfl
@[simp] theorem State.modTeam_stopped (s : State) (k : Nat) (f : Team → Team) : (s.modTeam k f).stopped = s.stopped := by unfold State.modTeam; split <;> rfl
@[simp] theorem State.modTeam_fatal (s : State) (k : Nat) (f : Team → Team) : (s.modTeam k f).fatal = s.fatal := by unfold State.modTeam; split <;> rfl
@[simp] theorem State.modTeam_msix (s : State) (k : Nat) (f : Team → Team) : (s.modTeam k f).msix = s.msix := by unfold State.modTeam; split <;> rfl
@[simp] theorem State.modTeam_msixPend (s : State) (k : Nat) (f : Team → Team) : (s.modTeam k f).msixPend = s.msixPend := by unfold State.modTeam; split <;> rfl
@[simp] theorem State.modTeam_msixMasked (s : State) (k : Nat) (f : Team → Team) : (s.modTeam k f).msixMasked = s.msixMasked := by unfold State.modTeam; split <;> rfl
@[simp] theorem State.modTeam_sent (s : State) (k : Nat) (f : Team → Team) : (s.modTeam k f).sent = s.sent := by unfold State.modTeam; split <;> rfl
@[simp] theorem State.modTeam_answers (s : State) (k : Nat) (f : Team → Team) : (s.modTeam k f).answers = s.answers := by unfold State.modTeam; split <;> rfl
@[simp] theorem State.modLaunch_now (s : State) (k : Nat) (f : Launch → Launch) : (s.modLaunch k f).now = s.now := by unfold State.modLaunch; split <;> rfl
@[simp] theorem State.modLaunch_agenda (s : State) (k : Nat) (f : Launch → Launch) : (s.modLaunch k f).agenda = s.agenda := by unfold State.modLaunch; split <;> rfl
@[simp] theorem State.modLaunch_ev (s : State) (k : Nat) (f : Launch → Launch) : (s.modLaunch k f).ev = s.ev := by unfold State.modLaunch; split <;> rfl
@[simp] theorem State.modLaunch_cur (s : State) (k : Nat) (f : Launch → Launch) : (s.modLaunch k f).cur = s.cur := by unfold State.modLaunch; split <;> rfl
@[simp] theorem State.modLaunch_waves (s : State) (k : Nat) (f : Launch → Launch) : (s.modLaunch k f).waves = s.waves := by unfold State.modLaunch; split <;> rfl
@[simp] theorem State.modLaunch_teams (s : State) (k : Nat) (f : Launch → Launch) : (s.modLaunch k f).teams = s.teams := by unfold State.modLaunch; split <;> rfl
@[simp] theorem State.modLaunch_nextId (s : State) (k : Nat) (f : Launch → Launch) : (s.modLaunch k f).nextId = s.nextId := by unfold State.modLaunch; split <;> rfl
@[simp] theorem State.modLaunch_cores (s : State) (k : Nat) (f : Launch → Launch) : (s.modLaunch k f).cores = s.cores := by unfold State.modLaunch; split <;> rfl
@[simp] theorem State.modLaunch_clovers (s : State) (k : Nat) (f : Launch → Launch) : (s.modLaunch k f).clovers = s.clovers := by unfold State.modLaunch; split <;> rfl
@[simp] theorem State.modLaunch_dies (s : State) (k : Nat) (f : Launch → Launch) : (s.modLaunch k f).dies = s.dies := by unfold State.modLaunch; split <;> rfl
@[simp] theorem State.modLaunch_links (s : State) (k : Nat) (f : Launch → Launch) : (s.modLaunch k f).links = s.links := by unfold State.modLaunch; split <;> rfl
@[simp] theorem State.modLaunch_parts (s : State) (k : Nat) (f : Launch → Launch) : (s.modLaunch k f).parts = s.parts := by unfold State.modLaunch; split <;> rfl
@[simp] theorem State.modLaunch_mem (s : State) (k : Nat) (f : Launch → Launch) : (s.modLaunch k f).mem = s.mem := by unfold State.modLaunch; split <;> rfl
@[simp] theorem State.modLaunch_drawer (s : State) (k : Nat) (f : Launch → Launch) : (s.modLaunch k f).drawer = s.drawer := by unfold State.modLaunch; split <;> rfl
@[simp] theorem State.modLaunch_lines (s : State) (k : Nat) (f : Launch → Launch) : (s.modLaunch k f).lines = s.lines := by unfold State.modLaunch; split <;> rfl
@[simp] theorem State.modLaunch_qops (s : State) (k : Nat) (f : Launch → Launch) : (s.modLaunch k f).qops = s.qops := by unfold State.modLaunch; split <;> rfl
@[simp] theorem State.modLaunch_cmds (s : State) (k : Nat) (f : Launch → Launch) : (s.modLaunch k f).cmds = s.cmds := by unfold State.modLaunch; split <;> rfl
@[simp] theorem State.modLaunch_reqs (s : State) (k : Nat) (f : Launch → Launch) : (s.modLaunch k f).reqs = s.reqs := by unfold State.modLaunch; split <;> rfl
@[simp] theorem State.modLaunch_host (s : State) (k : Nat) (f : Launch → Launch) : (s.modLaunch k f).host = s.host := by unfold State.modLaunch; split <;> rfl
@[simp] theorem State.modLaunch_packets (s : State) (k : Nat) (f : Launch → Launch) : (s.modLaunch k f).packets = s.packets := by unfold State.modLaunch; split <;> rfl
@[simp] theorem State.modLaunch_peerSent (s : State) (k : Nat) (f : Launch → Launch) : (s.modLaunch k f).peerSent = s.peerSent := by unfold State.modLaunch; split <;> rfl
@[simp] theorem State.modLaunch_walks (s : State) (k : Nat) (f : Launch → Launch) : (s.modLaunch k f).walks = s.walks := by unfold State.modLaunch; split <;> rfl
@[simp] theorem State.modLaunch_tasks (s : State) (k : Nat) (f : Launch → Launch) : (s.modLaunch k f).tasks = s.tasks := by unfold State.modLaunch; split <;> rfl
@[simp] theorem State.modLaunch_flips (s : State) (k : Nat) (f : Launch → Launch) : (s.modLaunch k f).flips = s.flips := by unfold State.modLaunch; split <;> rfl
@[simp] theorem State.modLaunch_resizes (s : State) (k : Nat) (f : Launch → Launch) : (s.modLaunch k f).resizes = s.resizes := by unfold State.modLaunch; split <;> rfl
@[simp] theorem State.modLaunch_bound (s : State) (k : Nat) (f : Launch → Launch) : (s.modLaunch k f).bound = s.bound := by unfold State.modLaunch; split <;> rfl
@[simp] theorem State.modLaunch_free (s : State) (k : Nat) (f : Launch → Launch) : (s.modLaunch k f).free = s.free := by unfold State.modLaunch; split <;> rfl
@[simp] theorem State.modLaunch_time (s : State) (k : Nat) (f : Launch → Launch) : (s.modLaunch k f).time = s.time := by unfold State.modLaunch; split <;> rfl
@[simp] theorem State.modLaunch_bootstat (s : State) (k : Nat) (f : Launch → Launch) : (s.modLaunch k f).bootstat = s.bootstat := by unfold State.modLaunch; split <;> rfl
@[simp] theorem State.modLaunch_featack (s : State) (k : Nat) (f : Launch → Launch) : (s.modLaunch k f).featack = s.featack := by unfold State.modLaunch; split <;> rfl
@[simp] theorem State.modLaunch_featSet (s : State) (k : Nat) (f : Launch → Launch) : (s.modLaunch k f).featSet = s.featSet := by unfold State.modLaunch; split <;> rfl
@[simp] theorem State.modLaunch_attNonce (s : State) (k : Nat) (f : Launch → Launch) : (s.modLaunch k f).attNonce = s.attNonce := by unfold State.modLaunch; split <;> rfl
@[simp] theorem State.modLaunch_attReady (s : State) (k : Nat) (f : Launch → Launch) : (s.modLaunch k f).attReady = s.attReady := by unfold State.modLaunch; split <;> rfl
@[simp] theorem State.modLaunch_attRep (s : State) (k : Nat) (f : Launch → Launch) : (s.modLaunch k f).attRep = s.attRep := by unfold State.modLaunch; split <;> rfl
@[simp] theorem State.modLaunch_attCount (s : State) (k : Nat) (f : Launch → Launch) : (s.modLaunch k f).attCount = s.attCount := by unfold State.modLaunch; split <;> rfl
@[simp] theorem State.modLaunch_stretch (s : State) (k : Nat) (f : Launch → Launch) : (s.modLaunch k f).stretch = s.stretch := by unfold State.modLaunch; split <;> rfl
@[simp] theorem State.modLaunch_sag (s : State) (k : Nat) (f : Launch → Launch) : (s.modLaunch k f).sag = s.sag := by unfold State.modLaunch; split <;> rfl
@[simp] theorem State.modLaunch_stretchStamp (s : State) (k : Nat) (f : Launch → Launch) : (s.modLaunch k f).stretchStamp = s.stretchStamp := by unfold State.modLaunch; split <;> rfl
@[simp] theorem State.modLaunch_stretchCount (s : State) (k : Nat) (f : Launch → Launch) : (s.modLaunch k f).stretchCount = s.stretchCount := by unfold State.modLaunch; split <;> rfl
@[simp] theorem State.modLaunch_temps (s : State) (k : Nat) (f : Launch → Launch) : (s.modLaunch k f).temps = s.temps := by unfold State.modLaunch; split <;> rfl
@[simp] theorem State.modLaunch_hot (s : State) (k : Nat) (f : Launch → Launch) : (s.modLaunch k f).hot = s.hot := by unfold State.modLaunch; split <;> rfl
@[simp] theorem State.modLaunch_stopped (s : State) (k : Nat) (f : Launch → Launch) : (s.modLaunch k f).stopped = s.stopped := by unfold State.modLaunch; split <;> rfl
@[simp] theorem State.modLaunch_fatal (s : State) (k : Nat) (f : Launch → Launch) : (s.modLaunch k f).fatal = s.fatal := by unfold State.modLaunch; split <;> rfl
@[simp] theorem State.modLaunch_msix (s : State) (k : Nat) (f : Launch → Launch) : (s.modLaunch k f).msix = s.msix := by unfold State.modLaunch; split <;> rfl
@[simp] theorem State.modLaunch_msixPend (s : State) (k : Nat) (f : Launch → Launch) : (s.modLaunch k f).msixPend = s.msixPend := by unfold State.modLaunch; split <;> rfl
@[simp] theorem State.modLaunch_msixMasked (s : State) (k : Nat) (f : Launch → Launch) : (s.modLaunch k f).msixMasked = s.msixMasked := by unfold State.modLaunch; split <;> rfl
@[simp] theorem State.modLaunch_sent (s : State) (k : Nat) (f : Launch → Launch) : (s.modLaunch k f).sent = s.sent := by unfold State.modLaunch; split <;> rfl
@[simp] theorem State.modLaunch_answers (s : State) (k : Nat) (f : Launch → Launch) : (s.modLaunch k f).answers = s.answers := by unfold State.modLaunch; split <;> rfl
@[simp] theorem State.modCore_now (s : State) (k : Nat) (f : Core → Core) : (s.modCore k f).now = s.now := rfl
@[simp] theorem State.modCore_agenda (s : State) (k : Nat) (f : Core → Core) : (s.modCore k f).agenda = s.agenda := rfl
@[simp] theorem State.modCore_ev (s : State) (k : Nat) (f : Core → Core) : (s.modCore k f).ev = s.ev := rfl
@[simp] theorem State.modCore_cur (s : State) (k : Nat) (f : Core → Core) : (s.modCore k f).cur = s.cur := rfl
@[simp] theorem State.modCore_waves (s : State) (k : Nat) (f : Core → Core) : (s.modCore k f).waves = s.waves := rfl
@[simp] theorem State.modCore_teams (s : State) (k : Nat) (f : Core → Core) : (s.modCore k f).teams = s.teams := rfl
@[simp] theorem State.modCore_launches (s : State) (k : Nat) (f : Core → Core) : (s.modCore k f).launches = s.launches := rfl
@[simp] theorem State.modCore_nextId (s : State) (k : Nat) (f : Core → Core) : (s.modCore k f).nextId = s.nextId := rfl
@[simp] theorem State.modCore_clovers (s : State) (k : Nat) (f : Core → Core) : (s.modCore k f).clovers = s.clovers := rfl
@[simp] theorem State.modCore_dies (s : State) (k : Nat) (f : Core → Core) : (s.modCore k f).dies = s.dies := rfl
@[simp] theorem State.modCore_links (s : State) (k : Nat) (f : Core → Core) : (s.modCore k f).links = s.links := rfl
@[simp] theorem State.modCore_parts (s : State) (k : Nat) (f : Core → Core) : (s.modCore k f).parts = s.parts := rfl
@[simp] theorem State.modCore_mem (s : State) (k : Nat) (f : Core → Core) : (s.modCore k f).mem = s.mem := rfl
@[simp] theorem State.modCore_drawer (s : State) (k : Nat) (f : Core → Core) : (s.modCore k f).drawer = s.drawer := rfl
@[simp] theorem State.modCore_lines (s : State) (k : Nat) (f : Core → Core) : (s.modCore k f).lines = s.lines := rfl
@[simp] theorem State.modCore_qops (s : State) (k : Nat) (f : Core → Core) : (s.modCore k f).qops = s.qops := rfl
@[simp] theorem State.modCore_cmds (s : State) (k : Nat) (f : Core → Core) : (s.modCore k f).cmds = s.cmds := rfl
@[simp] theorem State.modCore_reqs (s : State) (k : Nat) (f : Core → Core) : (s.modCore k f).reqs = s.reqs := rfl
@[simp] theorem State.modCore_host (s : State) (k : Nat) (f : Core → Core) : (s.modCore k f).host = s.host := rfl
@[simp] theorem State.modCore_packets (s : State) (k : Nat) (f : Core → Core) : (s.modCore k f).packets = s.packets := rfl
@[simp] theorem State.modCore_peerSent (s : State) (k : Nat) (f : Core → Core) : (s.modCore k f).peerSent = s.peerSent := rfl
@[simp] theorem State.modCore_walks (s : State) (k : Nat) (f : Core → Core) : (s.modCore k f).walks = s.walks := rfl
@[simp] theorem State.modCore_tasks (s : State) (k : Nat) (f : Core → Core) : (s.modCore k f).tasks = s.tasks := rfl
@[simp] theorem State.modCore_flips (s : State) (k : Nat) (f : Core → Core) : (s.modCore k f).flips = s.flips := rfl
@[simp] theorem State.modCore_resizes (s : State) (k : Nat) (f : Core → Core) : (s.modCore k f).resizes = s.resizes := rfl
@[simp] theorem State.modCore_bound (s : State) (k : Nat) (f : Core → Core) : (s.modCore k f).bound = s.bound := rfl
@[simp] theorem State.modCore_free (s : State) (k : Nat) (f : Core → Core) : (s.modCore k f).free = s.free := rfl
@[simp] theorem State.modCore_time (s : State) (k : Nat) (f : Core → Core) : (s.modCore k f).time = s.time := rfl
@[simp] theorem State.modCore_bootstat (s : State) (k : Nat) (f : Core → Core) : (s.modCore k f).bootstat = s.bootstat := rfl
@[simp] theorem State.modCore_featack (s : State) (k : Nat) (f : Core → Core) : (s.modCore k f).featack = s.featack := rfl
@[simp] theorem State.modCore_featSet (s : State) (k : Nat) (f : Core → Core) : (s.modCore k f).featSet = s.featSet := rfl
@[simp] theorem State.modCore_attNonce (s : State) (k : Nat) (f : Core → Core) : (s.modCore k f).attNonce = s.attNonce := rfl
@[simp] theorem State.modCore_attReady (s : State) (k : Nat) (f : Core → Core) : (s.modCore k f).attReady = s.attReady := rfl
@[simp] theorem State.modCore_attRep (s : State) (k : Nat) (f : Core → Core) : (s.modCore k f).attRep = s.attRep := rfl
@[simp] theorem State.modCore_attCount (s : State) (k : Nat) (f : Core → Core) : (s.modCore k f).attCount = s.attCount := rfl
@[simp] theorem State.modCore_stretch (s : State) (k : Nat) (f : Core → Core) : (s.modCore k f).stretch = s.stretch := rfl
@[simp] theorem State.modCore_sag (s : State) (k : Nat) (f : Core → Core) : (s.modCore k f).sag = s.sag := rfl
@[simp] theorem State.modCore_stretchStamp (s : State) (k : Nat) (f : Core → Core) : (s.modCore k f).stretchStamp = s.stretchStamp := rfl
@[simp] theorem State.modCore_stretchCount (s : State) (k : Nat) (f : Core → Core) : (s.modCore k f).stretchCount = s.stretchCount := rfl
@[simp] theorem State.modCore_temps (s : State) (k : Nat) (f : Core → Core) : (s.modCore k f).temps = s.temps := rfl
@[simp] theorem State.modCore_hot (s : State) (k : Nat) (f : Core → Core) : (s.modCore k f).hot = s.hot := rfl
@[simp] theorem State.modCore_stopped (s : State) (k : Nat) (f : Core → Core) : (s.modCore k f).stopped = s.stopped := rfl
@[simp] theorem State.modCore_fatal (s : State) (k : Nat) (f : Core → Core) : (s.modCore k f).fatal = s.fatal := rfl
@[simp] theorem State.modCore_msix (s : State) (k : Nat) (f : Core → Core) : (s.modCore k f).msix = s.msix := rfl
@[simp] theorem State.modCore_msixPend (s : State) (k : Nat) (f : Core → Core) : (s.modCore k f).msixPend = s.msixPend := rfl
@[simp] theorem State.modCore_msixMasked (s : State) (k : Nat) (f : Core → Core) : (s.modCore k f).msixMasked = s.msixMasked := rfl
@[simp] theorem State.modCore_sent (s : State) (k : Nat) (f : Core → Core) : (s.modCore k f).sent = s.sent := rfl
@[simp] theorem State.modCore_answers (s : State) (k : Nat) (f : Core → Core) : (s.modCore k f).answers = s.answers := rfl
@[simp] theorem State.wave?_modCore (s : State) (k : Nat) (f : Core → Core) (v : Nat) : (s.modCore k f).wave? v = s.wave? v := rfl
@[simp] theorem State.modClover_now (s : State) (k : Nat) (f : Clover → Clover) : (s.modClover k f).now = s.now := rfl
@[simp] theorem State.modClover_agenda (s : State) (k : Nat) (f : Clover → Clover) : (s.modClover k f).agenda = s.agenda := rfl
@[simp] theorem State.modClover_ev (s : State) (k : Nat) (f : Clover → Clover) : (s.modClover k f).ev = s.ev := rfl
@[simp] theorem State.modClover_cur (s : State) (k : Nat) (f : Clover → Clover) : (s.modClover k f).cur = s.cur := rfl
@[simp] theorem State.modClover_waves (s : State) (k : Nat) (f : Clover → Clover) : (s.modClover k f).waves = s.waves := rfl
@[simp] theorem State.modClover_teams (s : State) (k : Nat) (f : Clover → Clover) : (s.modClover k f).teams = s.teams := rfl
@[simp] theorem State.modClover_launches (s : State) (k : Nat) (f : Clover → Clover) : (s.modClover k f).launches = s.launches := rfl
@[simp] theorem State.modClover_nextId (s : State) (k : Nat) (f : Clover → Clover) : (s.modClover k f).nextId = s.nextId := rfl
@[simp] theorem State.modClover_cores (s : State) (k : Nat) (f : Clover → Clover) : (s.modClover k f).cores = s.cores := rfl
@[simp] theorem State.modClover_dies (s : State) (k : Nat) (f : Clover → Clover) : (s.modClover k f).dies = s.dies := rfl
@[simp] theorem State.modClover_links (s : State) (k : Nat) (f : Clover → Clover) : (s.modClover k f).links = s.links := rfl
@[simp] theorem State.modClover_parts (s : State) (k : Nat) (f : Clover → Clover) : (s.modClover k f).parts = s.parts := rfl
@[simp] theorem State.modClover_mem (s : State) (k : Nat) (f : Clover → Clover) : (s.modClover k f).mem = s.mem := rfl
@[simp] theorem State.modClover_drawer (s : State) (k : Nat) (f : Clover → Clover) : (s.modClover k f).drawer = s.drawer := rfl
@[simp] theorem State.modClover_lines (s : State) (k : Nat) (f : Clover → Clover) : (s.modClover k f).lines = s.lines := rfl
@[simp] theorem State.modClover_qops (s : State) (k : Nat) (f : Clover → Clover) : (s.modClover k f).qops = s.qops := rfl
@[simp] theorem State.modClover_cmds (s : State) (k : Nat) (f : Clover → Clover) : (s.modClover k f).cmds = s.cmds := rfl
@[simp] theorem State.modClover_reqs (s : State) (k : Nat) (f : Clover → Clover) : (s.modClover k f).reqs = s.reqs := rfl
@[simp] theorem State.modClover_host (s : State) (k : Nat) (f : Clover → Clover) : (s.modClover k f).host = s.host := rfl
@[simp] theorem State.modClover_packets (s : State) (k : Nat) (f : Clover → Clover) : (s.modClover k f).packets = s.packets := rfl
@[simp] theorem State.modClover_peerSent (s : State) (k : Nat) (f : Clover → Clover) : (s.modClover k f).peerSent = s.peerSent := rfl
@[simp] theorem State.modClover_walks (s : State) (k : Nat) (f : Clover → Clover) : (s.modClover k f).walks = s.walks := rfl
@[simp] theorem State.modClover_tasks (s : State) (k : Nat) (f : Clover → Clover) : (s.modClover k f).tasks = s.tasks := rfl
@[simp] theorem State.modClover_flips (s : State) (k : Nat) (f : Clover → Clover) : (s.modClover k f).flips = s.flips := rfl
@[simp] theorem State.modClover_resizes (s : State) (k : Nat) (f : Clover → Clover) : (s.modClover k f).resizes = s.resizes := rfl
@[simp] theorem State.modClover_bound (s : State) (k : Nat) (f : Clover → Clover) : (s.modClover k f).bound = s.bound := rfl
@[simp] theorem State.modClover_free (s : State) (k : Nat) (f : Clover → Clover) : (s.modClover k f).free = s.free := rfl
@[simp] theorem State.modClover_time (s : State) (k : Nat) (f : Clover → Clover) : (s.modClover k f).time = s.time := rfl
@[simp] theorem State.modClover_bootstat (s : State) (k : Nat) (f : Clover → Clover) : (s.modClover k f).bootstat = s.bootstat := rfl
@[simp] theorem State.modClover_featack (s : State) (k : Nat) (f : Clover → Clover) : (s.modClover k f).featack = s.featack := rfl
@[simp] theorem State.modClover_featSet (s : State) (k : Nat) (f : Clover → Clover) : (s.modClover k f).featSet = s.featSet := rfl
@[simp] theorem State.modClover_attNonce (s : State) (k : Nat) (f : Clover → Clover) : (s.modClover k f).attNonce = s.attNonce := rfl
@[simp] theorem State.modClover_attReady (s : State) (k : Nat) (f : Clover → Clover) : (s.modClover k f).attReady = s.attReady := rfl
@[simp] theorem State.modClover_attRep (s : State) (k : Nat) (f : Clover → Clover) : (s.modClover k f).attRep = s.attRep := rfl
@[simp] theorem State.modClover_attCount (s : State) (k : Nat) (f : Clover → Clover) : (s.modClover k f).attCount = s.attCount := rfl
@[simp] theorem State.modClover_stretch (s : State) (k : Nat) (f : Clover → Clover) : (s.modClover k f).stretch = s.stretch := rfl
@[simp] theorem State.modClover_sag (s : State) (k : Nat) (f : Clover → Clover) : (s.modClover k f).sag = s.sag := rfl
@[simp] theorem State.modClover_stretchStamp (s : State) (k : Nat) (f : Clover → Clover) : (s.modClover k f).stretchStamp = s.stretchStamp := rfl
@[simp] theorem State.modClover_stretchCount (s : State) (k : Nat) (f : Clover → Clover) : (s.modClover k f).stretchCount = s.stretchCount := rfl
@[simp] theorem State.modClover_temps (s : State) (k : Nat) (f : Clover → Clover) : (s.modClover k f).temps = s.temps := rfl
@[simp] theorem State.modClover_hot (s : State) (k : Nat) (f : Clover → Clover) : (s.modClover k f).hot = s.hot := rfl
@[simp] theorem State.modClover_stopped (s : State) (k : Nat) (f : Clover → Clover) : (s.modClover k f).stopped = s.stopped := rfl
@[simp] theorem State.modClover_fatal (s : State) (k : Nat) (f : Clover → Clover) : (s.modClover k f).fatal = s.fatal := rfl
@[simp] theorem State.modClover_msix (s : State) (k : Nat) (f : Clover → Clover) : (s.modClover k f).msix = s.msix := rfl
@[simp] theorem State.modClover_msixPend (s : State) (k : Nat) (f : Clover → Clover) : (s.modClover k f).msixPend = s.msixPend := rfl
@[simp] theorem State.modClover_msixMasked (s : State) (k : Nat) (f : Clover → Clover) : (s.modClover k f).msixMasked = s.msixMasked := rfl
@[simp] theorem State.modClover_sent (s : State) (k : Nat) (f : Clover → Clover) : (s.modClover k f).sent = s.sent := rfl
@[simp] theorem State.modClover_answers (s : State) (k : Nat) (f : Clover → Clover) : (s.modClover k f).answers = s.answers := rfl
@[simp] theorem State.wave?_modClover (s : State) (k : Nat) (f : Clover → Clover) (v : Nat) : (s.modClover k f).wave? v = s.wave? v := rfl
@[simp] theorem State.modDie_now (s : State) (k : Nat) (f : Die → Die) : (s.modDie k f).now = s.now := rfl
@[simp] theorem State.modDie_agenda (s : State) (k : Nat) (f : Die → Die) : (s.modDie k f).agenda = s.agenda := rfl
@[simp] theorem State.modDie_ev (s : State) (k : Nat) (f : Die → Die) : (s.modDie k f).ev = s.ev := rfl
@[simp] theorem State.modDie_cur (s : State) (k : Nat) (f : Die → Die) : (s.modDie k f).cur = s.cur := rfl
@[simp] theorem State.modDie_waves (s : State) (k : Nat) (f : Die → Die) : (s.modDie k f).waves = s.waves := rfl
@[simp] theorem State.modDie_teams (s : State) (k : Nat) (f : Die → Die) : (s.modDie k f).teams = s.teams := rfl
@[simp] theorem State.modDie_launches (s : State) (k : Nat) (f : Die → Die) : (s.modDie k f).launches = s.launches := rfl
@[simp] theorem State.modDie_nextId (s : State) (k : Nat) (f : Die → Die) : (s.modDie k f).nextId = s.nextId := rfl
@[simp] theorem State.modDie_cores (s : State) (k : Nat) (f : Die → Die) : (s.modDie k f).cores = s.cores := rfl
@[simp] theorem State.modDie_clovers (s : State) (k : Nat) (f : Die → Die) : (s.modDie k f).clovers = s.clovers := rfl
@[simp] theorem State.modDie_links (s : State) (k : Nat) (f : Die → Die) : (s.modDie k f).links = s.links := rfl
@[simp] theorem State.modDie_parts (s : State) (k : Nat) (f : Die → Die) : (s.modDie k f).parts = s.parts := rfl
@[simp] theorem State.modDie_mem (s : State) (k : Nat) (f : Die → Die) : (s.modDie k f).mem = s.mem := rfl
@[simp] theorem State.modDie_drawer (s : State) (k : Nat) (f : Die → Die) : (s.modDie k f).drawer = s.drawer := rfl
@[simp] theorem State.modDie_lines (s : State) (k : Nat) (f : Die → Die) : (s.modDie k f).lines = s.lines := rfl
@[simp] theorem State.modDie_qops (s : State) (k : Nat) (f : Die → Die) : (s.modDie k f).qops = s.qops := rfl
@[simp] theorem State.modDie_cmds (s : State) (k : Nat) (f : Die → Die) : (s.modDie k f).cmds = s.cmds := rfl
@[simp] theorem State.modDie_reqs (s : State) (k : Nat) (f : Die → Die) : (s.modDie k f).reqs = s.reqs := rfl
@[simp] theorem State.modDie_host (s : State) (k : Nat) (f : Die → Die) : (s.modDie k f).host = s.host := rfl
@[simp] theorem State.modDie_packets (s : State) (k : Nat) (f : Die → Die) : (s.modDie k f).packets = s.packets := rfl
@[simp] theorem State.modDie_peerSent (s : State) (k : Nat) (f : Die → Die) : (s.modDie k f).peerSent = s.peerSent := rfl
@[simp] theorem State.modDie_walks (s : State) (k : Nat) (f : Die → Die) : (s.modDie k f).walks = s.walks := rfl
@[simp] theorem State.modDie_tasks (s : State) (k : Nat) (f : Die → Die) : (s.modDie k f).tasks = s.tasks := rfl
@[simp] theorem State.modDie_flips (s : State) (k : Nat) (f : Die → Die) : (s.modDie k f).flips = s.flips := rfl
@[simp] theorem State.modDie_resizes (s : State) (k : Nat) (f : Die → Die) : (s.modDie k f).resizes = s.resizes := rfl
@[simp] theorem State.modDie_bound (s : State) (k : Nat) (f : Die → Die) : (s.modDie k f).bound = s.bound := rfl
@[simp] theorem State.modDie_free (s : State) (k : Nat) (f : Die → Die) : (s.modDie k f).free = s.free := rfl
@[simp] theorem State.modDie_time (s : State) (k : Nat) (f : Die → Die) : (s.modDie k f).time = s.time := rfl
@[simp] theorem State.modDie_bootstat (s : State) (k : Nat) (f : Die → Die) : (s.modDie k f).bootstat = s.bootstat := rfl
@[simp] theorem State.modDie_featack (s : State) (k : Nat) (f : Die → Die) : (s.modDie k f).featack = s.featack := rfl
@[simp] theorem State.modDie_featSet (s : State) (k : Nat) (f : Die → Die) : (s.modDie k f).featSet = s.featSet := rfl
@[simp] theorem State.modDie_attNonce (s : State) (k : Nat) (f : Die → Die) : (s.modDie k f).attNonce = s.attNonce := rfl
@[simp] theorem State.modDie_attReady (s : State) (k : Nat) (f : Die → Die) : (s.modDie k f).attReady = s.attReady := rfl
@[simp] theorem State.modDie_attRep (s : State) (k : Nat) (f : Die → Die) : (s.modDie k f).attRep = s.attRep := rfl
@[simp] theorem State.modDie_attCount (s : State) (k : Nat) (f : Die → Die) : (s.modDie k f).attCount = s.attCount := rfl
@[simp] theorem State.modDie_stretch (s : State) (k : Nat) (f : Die → Die) : (s.modDie k f).stretch = s.stretch := rfl
@[simp] theorem State.modDie_sag (s : State) (k : Nat) (f : Die → Die) : (s.modDie k f).sag = s.sag := rfl
@[simp] theorem State.modDie_stretchStamp (s : State) (k : Nat) (f : Die → Die) : (s.modDie k f).stretchStamp = s.stretchStamp := rfl
@[simp] theorem State.modDie_stretchCount (s : State) (k : Nat) (f : Die → Die) : (s.modDie k f).stretchCount = s.stretchCount := rfl
@[simp] theorem State.modDie_temps (s : State) (k : Nat) (f : Die → Die) : (s.modDie k f).temps = s.temps := rfl
@[simp] theorem State.modDie_hot (s : State) (k : Nat) (f : Die → Die) : (s.modDie k f).hot = s.hot := rfl
@[simp] theorem State.modDie_stopped (s : State) (k : Nat) (f : Die → Die) : (s.modDie k f).stopped = s.stopped := rfl
@[simp] theorem State.modDie_fatal (s : State) (k : Nat) (f : Die → Die) : (s.modDie k f).fatal = s.fatal := rfl
@[simp] theorem State.modDie_msix (s : State) (k : Nat) (f : Die → Die) : (s.modDie k f).msix = s.msix := rfl
@[simp] theorem State.modDie_msixPend (s : State) (k : Nat) (f : Die → Die) : (s.modDie k f).msixPend = s.msixPend := rfl
@[simp] theorem State.modDie_msixMasked (s : State) (k : Nat) (f : Die → Die) : (s.modDie k f).msixMasked = s.msixMasked := rfl
@[simp] theorem State.modDie_sent (s : State) (k : Nat) (f : Die → Die) : (s.modDie k f).sent = s.sent := rfl
@[simp] theorem State.modDie_answers (s : State) (k : Nat) (f : Die → Die) : (s.modDie k f).answers = s.answers := rfl
@[simp] theorem State.wave?_modDie (s : State) (k : Nat) (f : Die → Die) (v : Nat) : (s.modDie k f).wave? v = s.wave? v := rfl
@[simp] theorem State.modLink_now (s : State) (k : Nat) (f : Link → Link) : (s.modLink k f).now = s.now := rfl
@[simp] theorem State.modLink_agenda (s : State) (k : Nat) (f : Link → Link) : (s.modLink k f).agenda = s.agenda := rfl
@[simp] theorem State.modLink_ev (s : State) (k : Nat) (f : Link → Link) : (s.modLink k f).ev = s.ev := rfl
@[simp] theorem State.modLink_cur (s : State) (k : Nat) (f : Link → Link) : (s.modLink k f).cur = s.cur := rfl
@[simp] theorem State.modLink_waves (s : State) (k : Nat) (f : Link → Link) : (s.modLink k f).waves = s.waves := rfl
@[simp] theorem State.modLink_teams (s : State) (k : Nat) (f : Link → Link) : (s.modLink k f).teams = s.teams := rfl
@[simp] theorem State.modLink_launches (s : State) (k : Nat) (f : Link → Link) : (s.modLink k f).launches = s.launches := rfl
@[simp] theorem State.modLink_nextId (s : State) (k : Nat) (f : Link → Link) : (s.modLink k f).nextId = s.nextId := rfl
@[simp] theorem State.modLink_cores (s : State) (k : Nat) (f : Link → Link) : (s.modLink k f).cores = s.cores := rfl
@[simp] theorem State.modLink_clovers (s : State) (k : Nat) (f : Link → Link) : (s.modLink k f).clovers = s.clovers := rfl
@[simp] theorem State.modLink_dies (s : State) (k : Nat) (f : Link → Link) : (s.modLink k f).dies = s.dies := rfl
@[simp] theorem State.modLink_parts (s : State) (k : Nat) (f : Link → Link) : (s.modLink k f).parts = s.parts := rfl
@[simp] theorem State.modLink_mem (s : State) (k : Nat) (f : Link → Link) : (s.modLink k f).mem = s.mem := rfl
@[simp] theorem State.modLink_drawer (s : State) (k : Nat) (f : Link → Link) : (s.modLink k f).drawer = s.drawer := rfl
@[simp] theorem State.modLink_lines (s : State) (k : Nat) (f : Link → Link) : (s.modLink k f).lines = s.lines := rfl
@[simp] theorem State.modLink_qops (s : State) (k : Nat) (f : Link → Link) : (s.modLink k f).qops = s.qops := rfl
@[simp] theorem State.modLink_cmds (s : State) (k : Nat) (f : Link → Link) : (s.modLink k f).cmds = s.cmds := rfl
@[simp] theorem State.modLink_reqs (s : State) (k : Nat) (f : Link → Link) : (s.modLink k f).reqs = s.reqs := rfl
@[simp] theorem State.modLink_host (s : State) (k : Nat) (f : Link → Link) : (s.modLink k f).host = s.host := rfl
@[simp] theorem State.modLink_packets (s : State) (k : Nat) (f : Link → Link) : (s.modLink k f).packets = s.packets := rfl
@[simp] theorem State.modLink_peerSent (s : State) (k : Nat) (f : Link → Link) : (s.modLink k f).peerSent = s.peerSent := rfl
@[simp] theorem State.modLink_walks (s : State) (k : Nat) (f : Link → Link) : (s.modLink k f).walks = s.walks := rfl
@[simp] theorem State.modLink_tasks (s : State) (k : Nat) (f : Link → Link) : (s.modLink k f).tasks = s.tasks := rfl
@[simp] theorem State.modLink_flips (s : State) (k : Nat) (f : Link → Link) : (s.modLink k f).flips = s.flips := rfl
@[simp] theorem State.modLink_resizes (s : State) (k : Nat) (f : Link → Link) : (s.modLink k f).resizes = s.resizes := rfl
@[simp] theorem State.modLink_bound (s : State) (k : Nat) (f : Link → Link) : (s.modLink k f).bound = s.bound := rfl
@[simp] theorem State.modLink_free (s : State) (k : Nat) (f : Link → Link) : (s.modLink k f).free = s.free := rfl
@[simp] theorem State.modLink_time (s : State) (k : Nat) (f : Link → Link) : (s.modLink k f).time = s.time := rfl
@[simp] theorem State.modLink_bootstat (s : State) (k : Nat) (f : Link → Link) : (s.modLink k f).bootstat = s.bootstat := rfl
@[simp] theorem State.modLink_featack (s : State) (k : Nat) (f : Link → Link) : (s.modLink k f).featack = s.featack := rfl
@[simp] theorem State.modLink_featSet (s : State) (k : Nat) (f : Link → Link) : (s.modLink k f).featSet = s.featSet := rfl
@[simp] theorem State.modLink_attNonce (s : State) (k : Nat) (f : Link → Link) : (s.modLink k f).attNonce = s.attNonce := rfl
@[simp] theorem State.modLink_attReady (s : State) (k : Nat) (f : Link → Link) : (s.modLink k f).attReady = s.attReady := rfl
@[simp] theorem State.modLink_attRep (s : State) (k : Nat) (f : Link → Link) : (s.modLink k f).attRep = s.attRep := rfl
@[simp] theorem State.modLink_attCount (s : State) (k : Nat) (f : Link → Link) : (s.modLink k f).attCount = s.attCount := rfl
@[simp] theorem State.modLink_stretch (s : State) (k : Nat) (f : Link → Link) : (s.modLink k f).stretch = s.stretch := rfl
@[simp] theorem State.modLink_sag (s : State) (k : Nat) (f : Link → Link) : (s.modLink k f).sag = s.sag := rfl
@[simp] theorem State.modLink_stretchStamp (s : State) (k : Nat) (f : Link → Link) : (s.modLink k f).stretchStamp = s.stretchStamp := rfl
@[simp] theorem State.modLink_stretchCount (s : State) (k : Nat) (f : Link → Link) : (s.modLink k f).stretchCount = s.stretchCount := rfl
@[simp] theorem State.modLink_temps (s : State) (k : Nat) (f : Link → Link) : (s.modLink k f).temps = s.temps := rfl
@[simp] theorem State.modLink_hot (s : State) (k : Nat) (f : Link → Link) : (s.modLink k f).hot = s.hot := rfl
@[simp] theorem State.modLink_stopped (s : State) (k : Nat) (f : Link → Link) : (s.modLink k f).stopped = s.stopped := rfl
@[simp] theorem State.modLink_fatal (s : State) (k : Nat) (f : Link → Link) : (s.modLink k f).fatal = s.fatal := rfl
@[simp] theorem State.modLink_msix (s : State) (k : Nat) (f : Link → Link) : (s.modLink k f).msix = s.msix := rfl
@[simp] theorem State.modLink_msixPend (s : State) (k : Nat) (f : Link → Link) : (s.modLink k f).msixPend = s.msixPend := rfl
@[simp] theorem State.modLink_msixMasked (s : State) (k : Nat) (f : Link → Link) : (s.modLink k f).msixMasked = s.msixMasked := rfl
@[simp] theorem State.modLink_sent (s : State) (k : Nat) (f : Link → Link) : (s.modLink k f).sent = s.sent := rfl
@[simp] theorem State.modLink_answers (s : State) (k : Nat) (f : Link → Link) : (s.modLink k f).answers = s.answers := rfl
@[simp] theorem State.wave?_modLink (s : State) (k : Nat) (f : Link → Link) (v : Nat) : (s.modLink k f).wave? v = s.wave? v := rfl
@[simp] theorem State.modPart_now (s : State) (k : Nat) (f : Part → Part) : (s.modPart k f).now = s.now := rfl
@[simp] theorem State.modPart_agenda (s : State) (k : Nat) (f : Part → Part) : (s.modPart k f).agenda = s.agenda := rfl
@[simp] theorem State.modPart_ev (s : State) (k : Nat) (f : Part → Part) : (s.modPart k f).ev = s.ev := rfl
@[simp] theorem State.modPart_cur (s : State) (k : Nat) (f : Part → Part) : (s.modPart k f).cur = s.cur := rfl
@[simp] theorem State.modPart_waves (s : State) (k : Nat) (f : Part → Part) : (s.modPart k f).waves = s.waves := rfl
@[simp] theorem State.modPart_teams (s : State) (k : Nat) (f : Part → Part) : (s.modPart k f).teams = s.teams := rfl
@[simp] theorem State.modPart_launches (s : State) (k : Nat) (f : Part → Part) : (s.modPart k f).launches = s.launches := rfl
@[simp] theorem State.modPart_nextId (s : State) (k : Nat) (f : Part → Part) : (s.modPart k f).nextId = s.nextId := rfl
@[simp] theorem State.modPart_cores (s : State) (k : Nat) (f : Part → Part) : (s.modPart k f).cores = s.cores := rfl
@[simp] theorem State.modPart_clovers (s : State) (k : Nat) (f : Part → Part) : (s.modPart k f).clovers = s.clovers := rfl
@[simp] theorem State.modPart_dies (s : State) (k : Nat) (f : Part → Part) : (s.modPart k f).dies = s.dies := rfl
@[simp] theorem State.modPart_links (s : State) (k : Nat) (f : Part → Part) : (s.modPart k f).links = s.links := rfl
@[simp] theorem State.modPart_mem (s : State) (k : Nat) (f : Part → Part) : (s.modPart k f).mem = s.mem := rfl
@[simp] theorem State.modPart_drawer (s : State) (k : Nat) (f : Part → Part) : (s.modPart k f).drawer = s.drawer := rfl
@[simp] theorem State.modPart_lines (s : State) (k : Nat) (f : Part → Part) : (s.modPart k f).lines = s.lines := rfl
@[simp] theorem State.modPart_qops (s : State) (k : Nat) (f : Part → Part) : (s.modPart k f).qops = s.qops := rfl
@[simp] theorem State.modPart_cmds (s : State) (k : Nat) (f : Part → Part) : (s.modPart k f).cmds = s.cmds := rfl
@[simp] theorem State.modPart_reqs (s : State) (k : Nat) (f : Part → Part) : (s.modPart k f).reqs = s.reqs := rfl
@[simp] theorem State.modPart_host (s : State) (k : Nat) (f : Part → Part) : (s.modPart k f).host = s.host := rfl
@[simp] theorem State.modPart_packets (s : State) (k : Nat) (f : Part → Part) : (s.modPart k f).packets = s.packets := rfl
@[simp] theorem State.modPart_peerSent (s : State) (k : Nat) (f : Part → Part) : (s.modPart k f).peerSent = s.peerSent := rfl
@[simp] theorem State.modPart_walks (s : State) (k : Nat) (f : Part → Part) : (s.modPart k f).walks = s.walks := rfl
@[simp] theorem State.modPart_tasks (s : State) (k : Nat) (f : Part → Part) : (s.modPart k f).tasks = s.tasks := rfl
@[simp] theorem State.modPart_flips (s : State) (k : Nat) (f : Part → Part) : (s.modPart k f).flips = s.flips := rfl
@[simp] theorem State.modPart_resizes (s : State) (k : Nat) (f : Part → Part) : (s.modPart k f).resizes = s.resizes := rfl
@[simp] theorem State.modPart_bound (s : State) (k : Nat) (f : Part → Part) : (s.modPart k f).bound = s.bound := rfl
@[simp] theorem State.modPart_free (s : State) (k : Nat) (f : Part → Part) : (s.modPart k f).free = s.free := rfl
@[simp] theorem State.modPart_time (s : State) (k : Nat) (f : Part → Part) : (s.modPart k f).time = s.time := rfl
@[simp] theorem State.modPart_bootstat (s : State) (k : Nat) (f : Part → Part) : (s.modPart k f).bootstat = s.bootstat := rfl
@[simp] theorem State.modPart_featack (s : State) (k : Nat) (f : Part → Part) : (s.modPart k f).featack = s.featack := rfl
@[simp] theorem State.modPart_featSet (s : State) (k : Nat) (f : Part → Part) : (s.modPart k f).featSet = s.featSet := rfl
@[simp] theorem State.modPart_attNonce (s : State) (k : Nat) (f : Part → Part) : (s.modPart k f).attNonce = s.attNonce := rfl
@[simp] theorem State.modPart_attReady (s : State) (k : Nat) (f : Part → Part) : (s.modPart k f).attReady = s.attReady := rfl
@[simp] theorem State.modPart_attRep (s : State) (k : Nat) (f : Part → Part) : (s.modPart k f).attRep = s.attRep := rfl
@[simp] theorem State.modPart_attCount (s : State) (k : Nat) (f : Part → Part) : (s.modPart k f).attCount = s.attCount := rfl
@[simp] theorem State.modPart_stretch (s : State) (k : Nat) (f : Part → Part) : (s.modPart k f).stretch = s.stretch := rfl
@[simp] theorem State.modPart_sag (s : State) (k : Nat) (f : Part → Part) : (s.modPart k f).sag = s.sag := rfl
@[simp] theorem State.modPart_stretchStamp (s : State) (k : Nat) (f : Part → Part) : (s.modPart k f).stretchStamp = s.stretchStamp := rfl
@[simp] theorem State.modPart_stretchCount (s : State) (k : Nat) (f : Part → Part) : (s.modPart k f).stretchCount = s.stretchCount := rfl
@[simp] theorem State.modPart_temps (s : State) (k : Nat) (f : Part → Part) : (s.modPart k f).temps = s.temps := rfl
@[simp] theorem State.modPart_hot (s : State) (k : Nat) (f : Part → Part) : (s.modPart k f).hot = s.hot := rfl
@[simp] theorem State.modPart_stopped (s : State) (k : Nat) (f : Part → Part) : (s.modPart k f).stopped = s.stopped := rfl
@[simp] theorem State.modPart_fatal (s : State) (k : Nat) (f : Part → Part) : (s.modPart k f).fatal = s.fatal := rfl
@[simp] theorem State.modPart_msix (s : State) (k : Nat) (f : Part → Part) : (s.modPart k f).msix = s.msix := rfl
@[simp] theorem State.modPart_msixPend (s : State) (k : Nat) (f : Part → Part) : (s.modPart k f).msixPend = s.msixPend := rfl
@[simp] theorem State.modPart_msixMasked (s : State) (k : Nat) (f : Part → Part) : (s.modPart k f).msixMasked = s.msixMasked := rfl
@[simp] theorem State.modPart_sent (s : State) (k : Nat) (f : Part → Part) : (s.modPart k f).sent = s.sent := rfl
@[simp] theorem State.modPart_answers (s : State) (k : Nat) (f : Part → Part) : (s.modPart k f).answers = s.answers := rfl
@[simp] theorem State.wave?_modPart (s : State) (k : Nat) (f : Part → Part) (v : Nat) : (s.modPart k f).wave? v = s.wave? v := rfl
@[simp] theorem State.modLine_now (s : State) (k : Nat) (f : Line → Line) : (s.modLine k f).now = s.now := rfl
@[simp] theorem State.modLine_agenda (s : State) (k : Nat) (f : Line → Line) : (s.modLine k f).agenda = s.agenda := rfl
@[simp] theorem State.modLine_ev (s : State) (k : Nat) (f : Line → Line) : (s.modLine k f).ev = s.ev := rfl
@[simp] theorem State.modLine_cur (s : State) (k : Nat) (f : Line → Line) : (s.modLine k f).cur = s.cur := rfl
@[simp] theorem State.modLine_waves (s : State) (k : Nat) (f : Line → Line) : (s.modLine k f).waves = s.waves := rfl
@[simp] theorem State.modLine_teams (s : State) (k : Nat) (f : Line → Line) : (s.modLine k f).teams = s.teams := rfl
@[simp] theorem State.modLine_launches (s : State) (k : Nat) (f : Line → Line) : (s.modLine k f).launches = s.launches := rfl
@[simp] theorem State.modLine_nextId (s : State) (k : Nat) (f : Line → Line) : (s.modLine k f).nextId = s.nextId := rfl
@[simp] theorem State.modLine_cores (s : State) (k : Nat) (f : Line → Line) : (s.modLine k f).cores = s.cores := rfl
@[simp] theorem State.modLine_clovers (s : State) (k : Nat) (f : Line → Line) : (s.modLine k f).clovers = s.clovers := rfl
@[simp] theorem State.modLine_dies (s : State) (k : Nat) (f : Line → Line) : (s.modLine k f).dies = s.dies := rfl
@[simp] theorem State.modLine_links (s : State) (k : Nat) (f : Line → Line) : (s.modLine k f).links = s.links := rfl
@[simp] theorem State.modLine_parts (s : State) (k : Nat) (f : Line → Line) : (s.modLine k f).parts = s.parts := rfl
@[simp] theorem State.modLine_mem (s : State) (k : Nat) (f : Line → Line) : (s.modLine k f).mem = s.mem := rfl
@[simp] theorem State.modLine_drawer (s : State) (k : Nat) (f : Line → Line) : (s.modLine k f).drawer = s.drawer := rfl
@[simp] theorem State.modLine_qops (s : State) (k : Nat) (f : Line → Line) : (s.modLine k f).qops = s.qops := rfl
@[simp] theorem State.modLine_cmds (s : State) (k : Nat) (f : Line → Line) : (s.modLine k f).cmds = s.cmds := rfl
@[simp] theorem State.modLine_reqs (s : State) (k : Nat) (f : Line → Line) : (s.modLine k f).reqs = s.reqs := rfl
@[simp] theorem State.modLine_host (s : State) (k : Nat) (f : Line → Line) : (s.modLine k f).host = s.host := rfl
@[simp] theorem State.modLine_packets (s : State) (k : Nat) (f : Line → Line) : (s.modLine k f).packets = s.packets := rfl
@[simp] theorem State.modLine_peerSent (s : State) (k : Nat) (f : Line → Line) : (s.modLine k f).peerSent = s.peerSent := rfl
@[simp] theorem State.modLine_walks (s : State) (k : Nat) (f : Line → Line) : (s.modLine k f).walks = s.walks := rfl
@[simp] theorem State.modLine_tasks (s : State) (k : Nat) (f : Line → Line) : (s.modLine k f).tasks = s.tasks := rfl
@[simp] theorem State.modLine_flips (s : State) (k : Nat) (f : Line → Line) : (s.modLine k f).flips = s.flips := rfl
@[simp] theorem State.modLine_resizes (s : State) (k : Nat) (f : Line → Line) : (s.modLine k f).resizes = s.resizes := rfl
@[simp] theorem State.modLine_bound (s : State) (k : Nat) (f : Line → Line) : (s.modLine k f).bound = s.bound := rfl
@[simp] theorem State.modLine_free (s : State) (k : Nat) (f : Line → Line) : (s.modLine k f).free = s.free := rfl
@[simp] theorem State.modLine_time (s : State) (k : Nat) (f : Line → Line) : (s.modLine k f).time = s.time := rfl
@[simp] theorem State.modLine_bootstat (s : State) (k : Nat) (f : Line → Line) : (s.modLine k f).bootstat = s.bootstat := rfl
@[simp] theorem State.modLine_featack (s : State) (k : Nat) (f : Line → Line) : (s.modLine k f).featack = s.featack := rfl
@[simp] theorem State.modLine_featSet (s : State) (k : Nat) (f : Line → Line) : (s.modLine k f).featSet = s.featSet := rfl
@[simp] theorem State.modLine_attNonce (s : State) (k : Nat) (f : Line → Line) : (s.modLine k f).attNonce = s.attNonce := rfl
@[simp] theorem State.modLine_attReady (s : State) (k : Nat) (f : Line → Line) : (s.modLine k f).attReady = s.attReady := rfl
@[simp] theorem State.modLine_attRep (s : State) (k : Nat) (f : Line → Line) : (s.modLine k f).attRep = s.attRep := rfl
@[simp] theorem State.modLine_attCount (s : State) (k : Nat) (f : Line → Line) : (s.modLine k f).attCount = s.attCount := rfl
@[simp] theorem State.modLine_stretch (s : State) (k : Nat) (f : Line → Line) : (s.modLine k f).stretch = s.stretch := rfl
@[simp] theorem State.modLine_sag (s : State) (k : Nat) (f : Line → Line) : (s.modLine k f).sag = s.sag := rfl
@[simp] theorem State.modLine_stretchStamp (s : State) (k : Nat) (f : Line → Line) : (s.modLine k f).stretchStamp = s.stretchStamp := rfl
@[simp] theorem State.modLine_stretchCount (s : State) (k : Nat) (f : Line → Line) : (s.modLine k f).stretchCount = s.stretchCount := rfl
@[simp] theorem State.modLine_temps (s : State) (k : Nat) (f : Line → Line) : (s.modLine k f).temps = s.temps := rfl
@[simp] theorem State.modLine_hot (s : State) (k : Nat) (f : Line → Line) : (s.modLine k f).hot = s.hot := rfl
@[simp] theorem State.modLine_stopped (s : State) (k : Nat) (f : Line → Line) : (s.modLine k f).stopped = s.stopped := rfl
@[simp] theorem State.modLine_fatal (s : State) (k : Nat) (f : Line → Line) : (s.modLine k f).fatal = s.fatal := rfl
@[simp] theorem State.modLine_msix (s : State) (k : Nat) (f : Line → Line) : (s.modLine k f).msix = s.msix := rfl
@[simp] theorem State.modLine_msixPend (s : State) (k : Nat) (f : Line → Line) : (s.modLine k f).msixPend = s.msixPend := rfl
@[simp] theorem State.modLine_msixMasked (s : State) (k : Nat) (f : Line → Line) : (s.modLine k f).msixMasked = s.msixMasked := rfl
@[simp] theorem State.modLine_sent (s : State) (k : Nat) (f : Line → Line) : (s.modLine k f).sent = s.sent := rfl
@[simp] theorem State.modLine_answers (s : State) (k : Nat) (f : Line → Line) : (s.modLine k f).answers = s.answers := rfl
@[simp] theorem State.wave?_modLine (s : State) (k : Nat) (f : Line → Line) (v : Nat) : (s.modLine k f).wave? v = s.wave? v := rfl

/-- What a state's tables leave alone in a wave's context. -/
theorem State.wave?_modCtx (s : State) (w : Nat) (f : Ctx → Ctx) (v : Nat) :
    (s.modCtx w f).wave? v = if v = w then (s.wave? v).map (fun x => { x with ctx := f x.ctx }) else s.wave? v := State.wave?_modWave s w _ v

/-- A step put on the agenda stands there; what stood there before still does. -/
theorem mem_insAgenda {t : Nat} {i : Instr} {a : List Nat} {l : List (Nat × Instr × List Nat)} {e : Nat × Instr × List Nat} :
    e ∈ insAgenda t i a l ↔ e = (t, i, a) ∨ e ∈ l := by
  induction l with
  | nil => simp [insAgenda]
  | cons h r ih =>
    obtain ⟨u, j, b⟩ := h
    unfold insAgenda
    split
    · simp
    · simp only [List.mem_cons, ih]; tauto

theorem State.mem_after {s : State} {d : Nat} {i : Instr} {a : List Nat} {e : Nat × Instr × List Nat} :
    e ∈ (s.after d i a).agenda ↔ e = (s.now + d, i, a) ∨ e ∈ s.agenda := mem_insAgenda

end Sys2Proof.Machine
end

