-- ==== Sys2Proof/Laws/Wave.lean ====
section
/-! SUPPORT. The laws of lanes, masks, registers and waves: what is read after a write, and what an update leaves alone. -/
namespace Sys2Proof.Machine

/-! Lanes and masks. -/
theorem mem_lanesOf {m : Mask} {l : Nat} : l ∈ lanesOf m ↔ l < 32 ∧ m.getLsbD l = true := by
  simp [lanesOf]

theorem lanesOf_nodup (m : Mask) : (lanesOf m).Nodup := List.Nodup.filter _ List.nodup_range

theorem getLsbD_or_bit (m : Mask) (k l : Nat) (hl : l < 32) :
    (m ||| BitVec.ofNat 32 (2 ^ k)).getLsbD l = (m.getLsbD l || decide (l = k)) := by
  rw [BitVec.getLsbD_or, BitVec.getLsbD_ofNat, Nat.testBit_two_pow]
  simp only [hl, decide_true, Bool.true_and]
  congr 1
  exact decide_eq_decide.mpr eq_comm

/-- The mask of listed lanes. -/
theorem getLsbD_maskOf (ls : List Nat) (l : Nat) : (maskOf ls).getLsbD l = (decide (l < 32) && decide (l ∈ ls)) := by
  by_cases hl : l < 32
  · have key : ∀ (ls : List Nat) (m : Mask), (ls.foldl (fun m l => m ||| BitVec.ofNat 32 (2 ^ l)) m).getLsbD l = (m.getLsbD l || decide (l ∈ ls)) := by
      intro ls
      induction ls with
      | nil => intro m; simp
      | cons k t ih =>
        intro m
        rw [List.foldl_cons, ih, getLsbD_or_bit _ _ _ hl]
        simp [Bool.or_assoc]
    unfold maskOf
    rw [key]
    simp [hl]
  · rw [BitVec.getLsbD_of_ge _ _ (by omega)]; simp [hl]

/-- The mask of the lanes that satisfy a test. -/
theorem getLsbD_maskWhere (p : Nat → Bool) (l : Nat) : (maskWhere p).getLsbD l = (decide (l < 32) && p l) := by
  unfold maskWhere
  rw [getLsbD_maskOf]
  by_cases hl : l < 32 <;> simp [hl]

theorem eq_zero_iff_lanes {m : Mask} : m = 0 ↔ ∀ l < 32, m.getLsbD l = false := by
  constructor
  · rintro rfl l -; simp
  · intro h
    apply BitVec.eq_of_getLsbD_eq
    intro l hl
    rw [h l hl]; simp

/-- A mask of lanes that satisfy a test is empty when none does. -/
theorem maskWhere_eq_zero {p : Nat → Bool} : maskWhere p = 0 ↔ ∀ l < 32, p l = false := by
  rw [eq_zero_iff_lanes]
  constructor
  · intro h l hl; have := h l hl; rw [getLsbD_maskWhere] at this; simpa [hl] using this
  · intro h l hl; rw [getLsbD_maskWhere, h l hl]; simp

/-- The lowest lane of a mask is one of its lanes. -/
theorem mem_of_lowest {m : Mask} {l : Nat} (h : lowest m = some l) : l < 32 ∧ m.getLsbD l = true := by
  unfold lowest at h
  exact mem_lanesOf.mp (List.mem_of_mem_head? h)

/-! Registers. -/
theorem Ctx.reg_setReg (c : Ctx) (v l : Nat) (x : Word) (v' l' : Nat) (hl : l < 32) (hl' : l' < 32) :
    (c.setReg v l x).reg v' l' = if v' = v ∧ l' = l then x else c.reg v' l' := by
  simp only [Ctx.reg, Ctx.setReg, Map.get_set]
  refine if_congr ?_ rfl rfl
  constructor <;> intro h
  · omega
  · obtain ⟨rfl, rfl⟩ := h; rfl

theorem Ctx.reg_setLanes (c : Ctx) (v : Nat) (ls : List Nat) (f : Nat → Word) (v' l' : Nat) (hl : ∀ l ∈ ls, l < 32) (hl' : l' < 32) :
    (c.setLanes v ls f).reg v' l' = if v' = v ∧ l' ∈ ls then f l' else c.reg v' l' := by
  unfold Ctx.setLanes
  induction ls generalizing c with
  | nil => simp
  | cons k t ih =>
    rw [List.foldl_cons, ih _ (fun l h => hl l (by simp [h])), Ctx.reg_setReg _ _ _ _ _ _ (hl k (by simp)) hl']
    by_cases h1 : v' = v
    · by_cases h2 : l' ∈ t
      · simp [h1, h2]
      · by_cases h3 : l' = k
        · simp [h1, h3]
        · simp [h1, h2, h3]
    · simp [h1]

/-- A vector written in the lanes of a mask. -/
theorem Ctx.reg_setLanes_mask (c : Ctx) (v : Nat) (m : Mask) (f : Nat → Word) (v' l' : Nat) (hl' : l' < 32) :
    (c.setLanes v (lanesOf m) f).reg v' l' = if v' = v ∧ m.getLsbD l' = true then f l' else c.reg v' l' := by
  rw [Ctx.reg_setLanes _ _ _ _ _ _ (fun l h => (mem_lanesOf.mp h).1) hl']
  refine if_congr ?_ rfl rfl
  rw [mem_lanesOf]
  simp [hl']

/-- Writing lanes changes the register vectors only. -/
theorem Ctx.setLanes_eq (c : Ctx) (v : Nat) (ls : List Nat) (f : Nat → Word) : c.setLanes v ls f = { c with vec := (c.setLanes v ls f).vec } := by
  unfold Ctx.setLanes
  induction ls generalizing c with
  | nil => rfl
  | cons k t ih => rw [List.foldl_cons, ih]; rfl

@[simp] theorem Ctx.setReg_busy (c : Ctx) (v l : Nat) (x : Word) : (c.setReg v l x).busy = c.busy := rfl
@[simp] theorem Ctx.setLanes_busy (c : Ctx) (v : Nat) (ls : List Nat) (f : Nat → Word) : (c.setLanes v ls f).busy = c.busy := by rw [Ctx.setLanes_eq]
@[simp] theorem Ctx.setReg_guards (c : Ctx) (v l : Nat) (x : Word) : (c.setReg v l x).guards = c.guards := rfl
@[simp] theorem Ctx.setLanes_guards (c : Ctx) (v : Nat) (ls : List Nat) (f : Nat → Word) : (c.setLanes v ls f).guards = c.guards := by rw [Ctx.setLanes_eq]
@[simp] theorem Ctx.setReg_base (c : Ctx) (v l : Nat) (x : Word) : (c.setReg v l x).base = c.base := rfl
@[simp] theorem Ctx.setLanes_base (c : Ctx) (v : Nat) (ls : List Nat) (f : Nat → Word) : (c.setLanes v ls f).base = c.base := by rw [Ctx.setLanes_eq]
@[simp] theorem Ctx.setReg_wstat (c : Ctx) (v l : Nat) (x : Word) : (c.setReg v l x).wstat = c.wstat := rfl
@[simp] theorem Ctx.setLanes_wstat (c : Ctx) (v : Nat) (ls : List Nat) (f : Nat → Word) : (c.setLanes v ls f).wstat = c.wstat := by rw [Ctx.setLanes_eq]
@[simp] theorem Ctx.setReg_vac (c : Ctx) (v l : Nat) (x : Word) : (c.setReg v l x).vac = c.vac := rfl
@[simp] theorem Ctx.setLanes_vac (c : Ctx) (v : Nat) (ls : List Nat) (f : Nat → Word) : (c.setLanes v ls f).vac = c.vac := by rw [Ctx.setLanes_eq]
@[simp] theorem Ctx.setReg_heads (c : Ctx) (v l : Nat) (x : Word) : (c.setReg v l x).heads = c.heads := rfl
@[simp] theorem Ctx.setLanes_heads (c : Ctx) (v : Nat) (ls : List Nat) (f : Nat → Word) : (c.setLanes v ls f).heads = c.heads := by rw [Ctx.setLanes_eq]
@[simp] theorem Ctx.setReg_ldc (c : Ctx) (v l : Nat) (x : Word) : (c.setReg v l x).ldc = c.ldc := rfl
@[simp] theorem Ctx.setLanes_ldc (c : Ctx) (v : Nat) (ls : List Nat) (f : Nat → Word) : (c.setLanes v ls f).ldc = c.ldc := by rw [Ctx.setLanes_eq]
@[simp] theorem Ctx.setReg_stc (c : Ctx) (v l : Nat) (x : Word) : (c.setReg v l x).stc = c.stc := rfl
@[simp] theorem Ctx.setLanes_stc (c : Ctx) (v : Nat) (ls : List Nat) (f : Nat → Word) : (c.setLanes v ls f).stc = c.stc := by rw [Ctx.setLanes_eq]
@[simp] theorem Ctx.setReg_cpc (c : Ctx) (v l : Nat) (x : Word) : (c.setReg v l x).cpc = c.cpc := rfl
@[simp] theorem Ctx.setLanes_cpc (c : Ctx) (v : Nat) (ls : List Nat) (f : Nat → Word) : (c.setLanes v ls f).cpc = c.cpc := by rw [Ctx.setLanes_eq]
@[simp] theorem Ctx.setReg_tlc (c : Ctx) (v l : Nat) (x : Word) : (c.setReg v l x).tlc = c.tlc := rfl
@[simp] theorem Ctx.setLanes_tlc (c : Ctx) (v : Nat) (ls : List Nat) (f : Nat → Word) : (c.setLanes v ls f).tlc = c.tlc := by rw [Ctx.setLanes_eq]
@[simp] theorem Ctx.setReg_etag (c : Ctx) (v l : Nat) (x : Word) : (c.setReg v l x).etag = c.etag := rfl
@[simp] theorem Ctx.setLanes_etag (c : Ctx) (v : Nat) (ls : List Nat) (f : Nat → Word) : (c.setLanes v ls f).etag = c.etag := by rw [Ctx.setLanes_eq]
@[simp] theorem Ctx.setReg_pol (c : Ctx) (v l : Nat) (x : Word) : (c.setReg v l x).pol = c.pol := rfl
@[simp] theorem Ctx.setLanes_pol (c : Ctx) (v : Nat) (ls : List Nat) (f : Nat → Word) : (c.setLanes v ls f).pol = c.pol := by rw [Ctx.setLanes_eq]
@[simp] theorem Ctx.setReg_lsFifo (c : Ctx) (v l : Nat) (x : Word) : (c.setReg v l x).lsFifo = c.lsFifo := rfl
@[simp] theorem Ctx.setLanes_lsFifo (c : Ctx) (v : Nat) (ls : List Nat) (f : Nat → Word) : (c.setLanes v ls f).lsFifo = c.lsFifo := by rw [Ctx.setLanes_eq]
@[simp] theorem Ctx.setReg_spFifo (c : Ctx) (v l : Nat) (x : Word) : (c.setReg v l x).spFifo = c.spFifo := rfl
@[simp] theorem Ctx.setLanes_spFifo (c : Ctx) (v : Nat) (ls : List Nat) (f : Nat → Word) : (c.setLanes v ls f).spFifo = c.spFifo := by rw [Ctx.setLanes_eq]
@[simp] theorem Ctx.setReg_lsLast (c : Ctx) (v l : Nat) (x : Word) : (c.setReg v l x).lsLast = c.lsLast := rfl
@[simp] theorem Ctx.setLanes_lsLast (c : Ctx) (v : Nat) (ls : List Nat) (f : Nat → Word) : (c.setLanes v ls f).lsLast = c.lsLast := by rw [Ctx.setLanes_eq]
@[simp] theorem Ctx.setReg_spLast (c : Ctx) (v l : Nat) (x : Word) : (c.setReg v l x).spLast = c.spLast := rfl
@[simp] theorem Ctx.setLanes_spLast (c : Ctx) (v : Nat) (ls : List Nat) (f : Nat → Word) : (c.setLanes v ls f).spLast = c.spLast := by rw [Ctx.setLanes_eq]
@[simp] theorem Ctx.setReg_seqs (c : Ctx) (v l : Nat) (x : Word) : (c.setReg v l x).seqs = c.seqs := rfl
@[simp] theorem Ctx.setLanes_seqs (c : Ctx) (v : Nat) (ls : List Nat) (f : Nat → Word) : (c.setLanes v ls f).seqs = c.seqs := by rw [Ctx.setLanes_eq]
@[simp] theorem Ctx.setReg_spill (c : Ctx) (v l : Nat) (x : Word) : (c.setReg v l x).spill = c.spill := rfl
@[simp] theorem Ctx.setLanes_spill (c : Ctx) (v : Nat) (ls : List Nat) (f : Nat → Word) : (c.setLanes v ls f).spill = c.spill := by rw [Ctx.setLanes_eq]
@[simp] theorem Ctx.setReg_join (c : Ctx) (v l : Nat) (x : Word) : (c.setReg v l x).join = c.join := rfl
@[simp] theorem Ctx.setLanes_join (c : Ctx) (v : Nat) (ls : List Nat) (f : Nat → Word) : (c.setLanes v ls f).join = c.join := by rw [Ctx.setLanes_eq]
@[simp] theorem Ctx.setReg_last (c : Ctx) (v l : Nat) (x : Word) : (c.setReg v l x).last = c.last := rfl
@[simp] theorem Ctx.setLanes_last (c : Ctx) (v : Nat) (ls : List Nat) (f : Nat → Word) : (c.setLanes v ls f).last = c.last := by rw [Ctx.setLanes_eq]
@[simp] theorem Ctx.setBusy_vec (c : Ctx) (v : Nat) (m : Mask) : (c.setBusy v m).vec = c.vec := rfl
@[simp] theorem Ctx.setBusy_guards (c : Ctx) (v : Nat) (m : Mask) : (c.setBusy v m).guards = c.guards := rfl
@[simp] theorem Ctx.setBusy_base (c : Ctx) (v : Nat) (m : Mask) : (c.setBusy v m).base = c.base := rfl
@[simp] theorem Ctx.setBusy_wstat (c : Ctx) (v : Nat) (m : Mask) : (c.setBusy v m).wstat = c.wstat := rfl
@[simp] theorem Ctx.setBusy_vac (c : Ctx) (v : Nat) (m : Mask) : (c.setBusy v m).vac = c.vac := rfl
@[simp] theorem Ctx.setBusy_heads (c : Ctx) (v : Nat) (m : Mask) : (c.setBusy v m).heads = c.heads := rfl
@[simp] theorem Ctx.setBusy_ldc (c : Ctx) (v : Nat) (m : Mask) : (c.setBusy v m).ldc = c.ldc := rfl
@[simp] theorem Ctx.setBusy_stc (c : Ctx) (v : Nat) (m : Mask) : (c.setBusy v m).stc = c.stc := rfl
@[simp] theorem Ctx.setBusy_cpc (c : Ctx) (v : Nat) (m : Mask) : (c.setBusy v m).cpc = c.cpc := rfl
@[simp] theorem Ctx.setBusy_tlc (c : Ctx) (v : Nat) (m : Mask) : (c.setBusy v m).tlc = c.tlc := rfl
@[simp] theorem Ctx.setBusy_etag (c : Ctx) (v : Nat) (m : Mask) : (c.setBusy v m).etag = c.etag := rfl
@[simp] theorem Ctx.setBusy_pol (c : Ctx) (v : Nat) (m : Mask) : (c.setBusy v m).pol = c.pol := rfl
@[simp] theorem Ctx.setBusy_lsFifo (c : Ctx) (v : Nat) (m : Mask) : (c.setBusy v m).lsFifo = c.lsFifo := rfl
@[simp] theorem Ctx.setBusy_spFifo (c : Ctx) (v : Nat) (m : Mask) : (c.setBusy v m).spFifo = c.spFifo := rfl
@[simp] theorem Ctx.setBusy_lsLast (c : Ctx) (v : Nat) (m : Mask) : (c.setBusy v m).lsLast = c.lsLast := rfl
@[simp] theorem Ctx.setBusy_spLast (c : Ctx) (v : Nat) (m : Mask) : (c.setBusy v m).spLast = c.spLast := rfl
@[simp] theorem Ctx.setBusy_seqs (c : Ctx) (v : Nat) (m : Mask) : (c.setBusy v m).seqs = c.seqs := rfl
@[simp] theorem Ctx.setBusy_spill (c : Ctx) (v : Nat) (m : Mask) : (c.setBusy v m).spill = c.spill := rfl
@[simp] theorem Ctx.setBusy_join (c : Ctx) (v : Nat) (m : Mask) : (c.setBusy v m).join = c.join := rfl
@[simp] theorem Ctx.setBusy_last (c : Ctx) (v : Nat) (m : Mask) : (c.setBusy v m).last = c.last := rfl
@[simp] theorem Ctx.clearBusy_vec (c : Ctx) (v : Nat) (m : Mask) : (c.clearBusy v m).vec = c.vec := rfl
@[simp] theorem Ctx.clearBusy_guards (c : Ctx) (v : Nat) (m : Mask) : (c.clearBusy v m).guards = c.guards := rfl
@[simp] theorem Ctx.clearBusy_base (c : Ctx) (v : Nat) (m : Mask) : (c.clearBusy v m).base = c.base := rfl
@[simp] theorem Ctx.clearBusy_wstat (c : Ctx) (v : Nat) (m : Mask) : (c.clearBusy v m).wstat = c.wstat := rfl
@[simp] theorem Ctx.clearBusy_vac (c : Ctx) (v : Nat) (m : Mask) : (c.clearBusy v m).vac = c.vac := rfl
@[simp] theorem Ctx.clearBusy_heads (c : Ctx) (v : Nat) (m : Mask) : (c.clearBusy v m).heads = c.heads := rfl
@[simp] theorem Ctx.clearBusy_ldc (c : Ctx) (v : Nat) (m : Mask) : (c.clearBusy v m).ldc = c.ldc := rfl
@[simp] theorem Ctx.clearBusy_stc (c : Ctx) (v : Nat) (m : Mask) : (c.clearBusy v m).stc = c.stc := rfl
@[simp] theorem Ctx.clearBusy_cpc (c : Ctx) (v : Nat) (m : Mask) : (c.clearBusy v m).cpc = c.cpc := rfl
@[simp] theorem Ctx.clearBusy_tlc (c : Ctx) (v : Nat) (m : Mask) : (c.clearBusy v m).tlc = c.tlc := rfl
@[simp] theorem Ctx.clearBusy_etag (c : Ctx) (v : Nat) (m : Mask) : (c.clearBusy v m).etag = c.etag := rfl
@[simp] theorem Ctx.clearBusy_pol (c : Ctx) (v : Nat) (m : Mask) : (c.clearBusy v m).pol = c.pol := rfl
@[simp] theorem Ctx.clearBusy_lsFifo (c : Ctx) (v : Nat) (m : Mask) : (c.clearBusy v m).lsFifo = c.lsFifo := rfl
@[simp] theorem Ctx.clearBusy_spFifo (c : Ctx) (v : Nat) (m : Mask) : (c.clearBusy v m).spFifo = c.spFifo := rfl
@[simp] theorem Ctx.clearBusy_lsLast (c : Ctx) (v : Nat) (m : Mask) : (c.clearBusy v m).lsLast = c.lsLast := rfl
@[simp] theorem Ctx.clearBusy_spLast (c : Ctx) (v : Nat) (m : Mask) : (c.clearBusy v m).spLast = c.spLast := rfl
@[simp] theorem Ctx.clearBusy_seqs (c : Ctx) (v : Nat) (m : Mask) : (c.clearBusy v m).seqs = c.seqs := rfl
@[simp] theorem Ctx.clearBusy_spill (c : Ctx) (v : Nat) (m : Mask) : (c.clearBusy v m).spill = c.spill := rfl
@[simp] theorem Ctx.clearBusy_join (c : Ctx) (v : Nat) (m : Mask) : (c.clearBusy v m).join = c.join := rfl
@[simp] theorem Ctx.clearBusy_last (c : Ctx) (v : Nat) (m : Mask) : (c.clearBusy v m).last = c.last := rfl

/-- Marking ports as not ready changes their ready bits only. -/
theorem Ctx.setBusy_fold (c : Ctx) (vs : List Nat) (m : Mask) :
    vs.foldl (fun c v => c.setBusy v m) c = { c with busy := (vs.foldl (fun c v => c.setBusy v m) c).busy } := by
  induction vs generalizing c with
  | nil => rfl
  | cons v t ih => rw [List.foldl_cons, ih]; rfl

@[simp] theorem Ctx.guard_zero (c : Ctx) (l : Nat) : c.guard 0 l = true := rfl
@[simp] theorem Ctx.setGuard_zero (c : Ctx) (l : Nat) (b : Bool) : c.setGuard 0 l b = c := rfl

theorem Ctx.guard_setGuard (c : Ctx) (g l : Nat) (b : Bool) (g' l' : Nat) (hg : g ≠ 0) (hl' : l' < 32) :
    (c.setGuard g l b).guard g' l' = if g' = g ∧ l' = l then b else c.guard g' l' := by
  by_cases h0 : g' = 0
  · subst h0; simp [Ctx.guard, Ne.symm hg]
  · simp only [Ctx.guard, Ctx.setGuard, if_neg hg, if_neg h0, Map.get_set]
    by_cases h1 : g' = g
    · subst h1
      simp only [if_true, true_and]
      cases b
      · simp only [Bool.false_eq_true, if_false, BitVec.getLsbD_and, BitVec.getLsbD_not, hl', decide_true, Bool.true_and,
          BitVec.getLsbD_ofNat, Nat.testBit_two_pow]
        by_cases h2 : l' = l
        · simp [h2]
        · simp [h2, Ne.symm h2]
      · simp only [if_true]
        rw [getLsbD_or_bit _ _ _ hl']
        by_cases h2 : l' = l <;> simp [h2]
    · simp [h1]

theorem Ctx.setGuard_eq (c : Ctx) (g l : Nat) (b : Bool) : c.setGuard g l b = { c with guards := (c.setGuard g l b).guards } := by
  unfold Ctx.setGuard; split <;> rfl

@[simp] theorem Ctx.baseReg_setBase (c : Ctx) (i : Nat) (d : Dword) (j : Nat) : (c.setBase i d).baseReg j = if j = i then d else c.baseReg j := by
  simp [Ctx.baseReg, Ctx.setBase]

@[simp] theorem Ctx.head_setHead (c : Ctx) (i : Nat) (h : Head) (j : Nat) : (c.setHead i h).head j = if j = i then h else c.head j := by
  simp [Ctx.head, Ctx.setHead]

/-! Waves. -/

@[simp] theorem Wave.log_ctx (x : Wave) (vs : List Nat) : (x.log vs).ctx = x.ctx := by unfold Wave.log; split <;> (try split) <;> rfl
@[simp] theorem Wave.log_team (x : Wave) (vs : List Nat) : (x.log vs).team = x.team := by unfold Wave.log; split <;> (try split) <;> rfl
@[simp] theorem Wave.log_index (x : Wave) (vs : List Nat) : (x.log vs).index = x.index := by unfold Wave.log; split <;> (try split) <;> rfl
@[simp] theorem Wave.log_launch (x : Wave) (vs : List Nat) : (x.log vs).launch = x.launch := by unfold Wave.log; split <;> (try split) <;> rfl
@[simp] theorem Wave.log_part (x : Wave) (vs : List Nat) : (x.log vs).part = x.part := by unfold Wave.log; split <;> (try split) <;> rfl
@[simp] theorem Wave.log_placed (x : Wave) (vs : List Nat) : (x.log vs).placed = x.placed := by unfold Wave.log; split <;> (try split) <;> rfl
@[simp] theorem Wave.log_from_ (x : Wave) (vs : List Nat) : (x.log vs).from_ = x.from_ := by unfold Wave.log; split <;> (try split) <;> rfl
@[simp] theorem Wave.log_stop (x : Wave) (vs : List Nat) : (x.log vs).stop = x.stop := by unfold Wave.log; split <;> (try split) <;> rfl
@[simp] theorem Wave.log_pend (x : Wave) (vs : List Nat) : (x.log vs).pend = x.pend := by unfold Wave.log; split <;> (try split) <;> rfl
@[simp] theorem Wave.log_accs (x : Wave) (vs : List Nat) : (x.log vs).accs = x.accs := by unfold Wave.log; split <;> (try split) <;> rfl
@[simp] theorem Wave.log_nextOp (x : Wave) (vs : List Nat) : (x.log vs).nextOp = x.nextOp := by unfold Wave.log; split <;> (try split) <;> rfl
@[simp] theorem Wave.log_noWin (x : Wave) (vs : List Nat) : (x.log vs).noWin = x.noWin := by unfold Wave.log; split <;> (try split) <;> rfl
@[simp] theorem Wave.log_rollTill (x : Wave) (vs : List Nat) : (x.log vs).rollTill = x.rollTill := by unfold Wave.log; split <;> (try split) <;> rfl
@[simp] theorem Wave.log_tstate (x : Wave) (vs : List Nat) : (x.log vs).tstate = x.tstate := by unfold Wave.log; split <;> (try split) <;> rfl
@[simp] theorem Wave.log_tmask (x : Wave) (vs : List Nat) : (x.log vs).tmask = x.tmask := by unfold Wave.log; split <;> (try split) <;> rfl
@[simp] theorem Wave.log_tpc (x : Wave) (vs : List Nat) : (x.log vs).tpc = x.tpc := by unfold Wave.log; split <;> (try split) <;> rfl
@[simp] theorem Wave.log_tinfo (x : Wave) (vs : List Nat) : (x.log vs).tinfo = x.tinfo := by unfold Wave.log; split <;> (try split) <;> rfl
@[simp] theorem Wave.log_traps (x : Wave) (vs : List Nat) : (x.log vs).traps = x.traps := by unfold Wave.log; split <;> (try split) <;> rfl
@[simp] theorem Wave.log_region (x : Wave) (vs : List Nat) : (x.log vs).region = x.region := by unfold Wave.log; split <;> (try split) <;> rfl
@[simp] theorem Wave.log_lastPage (x : Wave) (vs : List Nat) : (x.log vs).lastPage = x.lastPage := by unfold Wave.log; split <;> (try split) <;> rfl
@[simp] theorem Wave.log_inject (x : Wave) (vs : List Nat) : (x.log vs).inject = x.inject := by unfold Wave.log; split <;> (try split) <;> rfl
@[simp] theorem Wave.log_cmds (x : Wave) (vs : List Nat) : (x.log vs).cmds = x.cmds := by unfold Wave.log; split <;> (try split) <;> rfl
@[simp] theorem Wave.log_mxReq (x : Wave) (vs : List Nat) : (x.log vs).mxReq = x.mxReq := by unfold Wave.log; split <;> (try split) <;> rfl
@[simp] theorem Wave.log_quOut (x : Wave) (vs : List Nat) : (x.log vs).quOut = x.quOut := by unfold Wave.log; split <;> (try split) <;> rfl
@[simp] theorem Wave.log_escStamp (x : Wave) (vs : List Nat) : (x.log vs).escStamp = x.escStamp := by unfold Wave.log; split <;> (try split) <;> rfl
@[simp] theorem Wave.log_claims (x : Wave) (vs : List Nat) : (x.log vs).claims = x.claims := by unfold Wave.log; split <;> (try split) <;> rfl
@[simp] theorem Wave.log_dead (x : Wave) (vs : List Nat) : (x.log vs).dead = x.dead := by unfold Wave.log; split <;> (try split) <;> rfl
@[simp] theorem Wave.log_win_isSome (x : Wave) (vs : List Nat) : (x.log vs).win.isSome = x.win.isSome := by unfold Wave.log; split <;> (try split) <;> simp_all
@[simp] theorem Wave.log_trap_isSome (x : Wave) (vs : List Nat) : (x.log vs).trap.isSome = x.trap.isSome := by unfold Wave.log; split <;> (try split) <;> simp_all
@[simp] theorem Wave.mapCtx_team (x : Wave) (f : Ctx → Ctx) : (x.mapCtx f).team = x.team := rfl
@[simp] theorem Wave.mapCtx_index (x : Wave) (f : Ctx → Ctx) : (x.mapCtx f).index = x.index := rfl
@[simp] theorem Wave.mapCtx_launch (x : Wave) (f : Ctx → Ctx) : (x.mapCtx f).launch = x.launch := rfl
@[simp] theorem Wave.mapCtx_part (x : Wave) (f : Ctx → Ctx) : (x.mapCtx f).part = x.part := rfl
@[simp] theorem Wave.mapCtx_placed (x : Wave) (f : Ctx → Ctx) : (x.mapCtx f).placed = x.placed := rfl
@[simp] theorem Wave.mapCtx_from_ (x : Wave) (f : Ctx → Ctx) : (x.mapCtx f).from_ = x.from_ := rfl
@[simp] theorem Wave.mapCtx_stop (x : Wave) (f : Ctx → Ctx) : (x.mapCtx f).stop = x.stop := rfl
@[simp] theorem Wave.mapCtx_pend (x : Wave) (f : Ctx → Ctx) : (x.mapCtx f).pend = x.pend := rfl
@[simp] theorem Wave.mapCtx_accs (x : Wave) (f : Ctx → Ctx) : (x.mapCtx f).accs = x.accs := rfl
@[simp] theorem Wave.mapCtx_nextOp (x : Wave) (f : Ctx → Ctx) : (x.mapCtx f).nextOp = x.nextOp := rfl
@[simp] theorem Wave.mapCtx_noWin (x : Wave) (f : Ctx → Ctx) : (x.mapCtx f).noWin = x.noWin := rfl
@[simp] theorem Wave.mapCtx_rollTill (x : Wave) (f : Ctx → Ctx) : (x.mapCtx f).rollTill = x.rollTill := rfl
@[simp] theorem Wave.mapCtx_tstate (x : Wave) (f : Ctx → Ctx) : (x.mapCtx f).tstate = x.tstate := rfl
@[simp] theorem Wave.mapCtx_tmask (x : Wave) (f : Ctx → Ctx) : (x.mapCtx f).tmask = x.tmask := rfl
@[simp] theorem Wave.mapCtx_tpc (x : Wave) (f : Ctx → Ctx) : (x.mapCtx f).tpc = x.tpc := rfl
@[simp] theorem Wave.mapCtx_tinfo (x : Wave) (f : Ctx → Ctx) : (x.mapCtx f).tinfo = x.tinfo := rfl
@[simp] theorem Wave.mapCtx_traps (x : Wave) (f : Ctx → Ctx) : (x.mapCtx f).traps = x.traps := rfl
@[simp] theorem Wave.mapCtx_region (x : Wave) (f : Ctx → Ctx) : (x.mapCtx f).region = x.region := rfl
@[simp] theorem Wave.mapCtx_lastPage (x : Wave) (f : Ctx → Ctx) : (x.mapCtx f).lastPage = x.lastPage := rfl
@[simp] theorem Wave.mapCtx_inject (x : Wave) (f : Ctx → Ctx) : (x.mapCtx f).inject = x.inject := rfl
@[simp] theorem Wave.mapCtx_cmds (x : Wave) (f : Ctx → Ctx) : (x.mapCtx f).cmds = x.cmds := rfl
@[simp] theorem Wave.mapCtx_mxReq (x : Wave) (f : Ctx → Ctx) : (x.mapCtx f).mxReq = x.mxReq := rfl
@[simp] theorem Wave.mapCtx_quOut (x : Wave) (f : Ctx → Ctx) : (x.mapCtx f).quOut = x.quOut := rfl
@[simp] theorem Wave.mapCtx_escStamp (x : Wave) (f : Ctx → Ctx) : (x.mapCtx f).escStamp = x.escStamp := rfl
@[simp] theorem Wave.mapCtx_claims (x : Wave) (f : Ctx → Ctx) : (x.mapCtx f).claims = x.claims := rfl
@[simp] theorem Wave.mapCtx_dead (x : Wave) (f : Ctx → Ctx) : (x.mapCtx f).dead = x.dead := rfl
@[simp] theorem Wave.mapCtx_ctx (x : Wave) (f : Ctx → Ctx) : (x.mapCtx f).ctx = f x.ctx := rfl
@[simp] theorem Wave.begin_team (x : Wave) (u : FuncUnit) (ps : List PortNo) (en : Mask) : (x.begin u ps en).team = x.team := by unfold Wave.begin; simp
@[simp] theorem Wave.begin_index (x : Wave) (u : FuncUnit) (ps : List PortNo) (en : Mask) : (x.begin u ps en).index = x.index := by unfold Wave.begin; simp
@[simp] theorem Wave.begin_launch (x : Wave) (u : FuncUnit) (ps : List PortNo) (en : Mask) : (x.begin u ps en).launch = x.launch := by unfold Wave.begin; simp
@[simp] theorem Wave.begin_part (x : Wave) (u : FuncUnit) (ps : List PortNo) (en : Mask) : (x.begin u ps en).part = x.part := by unfold Wave.begin; simp
@[simp] theorem Wave.begin_placed (x : Wave) (u : FuncUnit) (ps : List PortNo) (en : Mask) : (x.begin u ps en).placed = x.placed := by unfold Wave.begin; simp
@[simp] theorem Wave.begin_from_ (x : Wave) (u : FuncUnit) (ps : List PortNo) (en : Mask) : (x.begin u ps en).from_ = x.from_ := by unfold Wave.begin; simp
@[simp] theorem Wave.begin_stop (x : Wave) (u : FuncUnit) (ps : List PortNo) (en : Mask) : (x.begin u ps en).stop = x.stop := by unfold Wave.begin; simp
@[simp] theorem Wave.begin_pend (x : Wave) (u : FuncUnit) (ps : List PortNo) (en : Mask) : (x.begin u ps en).pend = x.pend := by unfold Wave.begin; simp
@[simp] theorem Wave.begin_accs (x : Wave) (u : FuncUnit) (ps : List PortNo) (en : Mask) : (x.begin u ps en).accs = x.accs := by unfold Wave.begin; simp
@[simp] theorem Wave.begin_noWin (x : Wave) (u : FuncUnit) (ps : List PortNo) (en : Mask) : (x.begin u ps en).noWin = x.noWin := by unfold Wave.begin; simp
@[simp] theorem Wave.begin_rollTill (x : Wave) (u : FuncUnit) (ps : List PortNo) (en : Mask) : (x.begin u ps en).rollTill = x.rollTill := by unfold Wave.begin; simp
@[simp] theorem Wave.begin_tstate (x : Wave) (u : FuncUnit) (ps : List PortNo) (en : Mask) : (x.begin u ps en).tstate = x.tstate := by unfold Wave.begin; simp
@[simp] theorem Wave.begin_tmask (x : Wave) (u : FuncUnit) (ps : List PortNo) (en : Mask) : (x.begin u ps en).tmask = x.tmask := by unfold Wave.begin; simp
@[simp] theorem Wave.begin_tpc (x : Wave) (u : FuncUnit) (ps : List PortNo) (en : Mask) : (x.begin u ps en).tpc = x.tpc := by unfold Wave.begin; simp
@[simp] theorem Wave.begin_tinfo (x : Wave) (u : FuncUnit) (ps : List PortNo) (en : Mask) : (x.begin u ps en).tinfo = x.tinfo := by unfold Wave.begin; simp
@[simp] theorem Wave.begin_traps (x : Wave) (u : FuncUnit) (ps : List PortNo) (en : Mask) : (x.begin u ps en).traps = x.traps := by unfold Wave.begin; simp
@[simp] theorem Wave.begin_region (x : Wave) (u : FuncUnit) (ps : List PortNo) (en : Mask) : (x.begin u ps en).region = x.region := by unfold Wave.begin; simp
@[simp] theorem Wave.begin_lastPage (x : Wave) (u : FuncUnit) (ps : List PortNo) (en : Mask) : (x.begin u ps en).lastPage = x.lastPage := by unfold Wave.begin; simp
@[simp] theorem Wave.begin_inject (x : Wave) (u : FuncUnit) (ps : List PortNo) (en : Mask) : (x.begin u ps en).inject = x.inject := by unfold Wave.begin; simp
@[simp] theorem Wave.begin_cmds (x : Wave) (u : FuncUnit) (ps : List PortNo) (en : Mask) : (x.begin u ps en).cmds = x.cmds := by unfold Wave.begin; simp
@[simp] theorem Wave.begin_mxReq (x : Wave) (u : FuncUnit) (ps : List PortNo) (en : Mask) : (x.begin u ps en).mxReq = x.mxReq := by unfold Wave.begin; simp
@[simp] theorem Wave.begin_quOut (x : Wave) (u : FuncUnit) (ps : List PortNo) (en : Mask) : (x.begin u ps en).quOut = x.quOut := by unfold Wave.begin; simp
@[simp] theorem Wave.begin_escStamp (x : Wave) (u : FuncUnit) (ps : List PortNo) (en : Mask) : (x.begin u ps en).escStamp = x.escStamp := by unfold Wave.begin; simp
@[simp] theorem Wave.begin_claims (x : Wave) (u : FuncUnit) (ps : List PortNo) (en : Mask) : (x.begin u ps en).claims = x.claims := by unfold Wave.begin; simp
@[simp] theorem Wave.begin_dead (x : Wave) (u : FuncUnit) (ps : List PortNo) (en : Mask) : (x.begin u ps en).dead = x.dead := by unfold Wave.begin; simp
@[simp] theorem Wave.begin_nextOp (x : Wave) (u : FuncUnit) (ps : List PortNo) (en : Mask) : (x.begin u ps en).nextOp = x.nextOp + 1 := by
  unfold Wave.begin; simp

/-- The context at the start of an operation: the ready bits of its ports and who writes them last, nothing else. -/
theorem Wave.begin_ctx (x : Wave) (u : FuncUnit) (ps : List PortNo) (en : Mask) :
    (x.begin u ps en).ctx = { x.ctx with
      busy := ((ps.map (portVec u)).foldl (fun c v => c.setBusy v en) x.ctx).busy
      last := (lanesOf en).foldl (fun m l => Map.put m (32 * unitCode u + l) x.nextOp) x.ctx.last } := by
  unfold Wave.begin
  rw [Wave.log_ctx]
  simp only
  rw [Ctx.setBusy_fold]

/-! Delivery of results. -/

/-- Delivery changes register vectors and ready bits only. -/
theorem Ctx.deliver_eq (c : Ctx) (k : Nat) (p : Pending) :
    c.deliver k p = { c with vec := (c.deliver k p).vec, busy := (c.deliver k p).busy } := by
  have inner : ∀ (ls : List Nat) (g : Nat → Word) (v : Nat) (c : Ctx),
      ls.foldl (fun c l => c.setReg v l (g l)) c = { c with vec := (ls.foldl (fun c l => c.setReg v l (g l)) c).vec } := by
    intro ls g v
    induction ls with
    | nil => intro c; rfl
    | cons l t ih => intro c; rw [List.foldl_cons, ih]; rfl
  have outer : ∀ (ps : List Nat) (ls : List Nat) (m : Mask) (c : Ctx),
      ps.foldl (fun c v => (ls.foldl (fun c l => c.setReg v l (Map.get 0 p.vals (32 * v + l))) c).clearBusy v m) c =
        { c with
          vec := (ps.foldl (fun c v => (ls.foldl (fun c l => c.setReg v l (Map.get 0 p.vals (32 * v + l))) c).clearBusy v m) c).vec
          busy := (ps.foldl (fun c v => (ls.foldl (fun c l => c.setReg v l (Map.get 0 p.vals (32 * v + l))) c).clearBusy v m) c).busy } := by
    intro ps ls m
    induction ps with
    | nil => intro c; rfl
    | cons v t ih =>
      intro c
      rw [List.foldl_cons, ih, inner ls _ v c]
      rfl
  exact outer _ _ _ _

end Sys2Proof.Machine
end

