-- ==== Sys2Proof/Laws/Ops.lean ====
section
/-! SUPPORT. What the shared operations of the meanings do, said once. -/
namespace Sys2Proof.Machine

/-! The ends of a slot. -/
@[simp] theorem asStep_ok (t s : State) : asStep (.ok t) s = .next t := rfl

theorem asStep_trap {s : State} {c : Issue} (h : s.cur = some c) (t : Trap) :
    asStep (.trap t) s = .next (s.takeTrap c.wave c.seq t c.cap.addr (some c.cap)) := by simp [asStep, h]

theorem asStep_hold {s : State} {c : Issue} (h : s.cur = some c) (n : List Nat) :
    asStep (.hold n) s = .next (s.lookPages c.wave c.seq n) := by simp [asStep, h]

/-- A slot always ends in a next state. -/
theorem asStep_next (r : SlotRes) (s : State) : ∃ t, asStep r s = .next t := by
  cases r <;> simp only [asStep] <;> (try split) <;> exact ⟨_, rfl⟩

/-! What a move acts on. -/
namespace State.Issues
variable {s : State} {gd : Guard} {src : Src} {m : MoveIn}

theorem curWave (h : s.Issues gd src m) : s.curWave = some (m.c, m.x) := by simp [State.curWave, h.cur, h.wave]

/-- A trap raised at a slot is taken there. -/
theorem trap (h : s.Issues gd src m) (cause : Nat) (mask : Mask) (info : Dword) :
    asStep (m.trap cause mask info) s = s.traps m cause mask info := by simp [MoveIn.trap, asStep, h.cur, State.traps]

/-- The move with an enabled lane. -/
theorem withMove (h : s.Issues gd src m) (he : m.en ≠ 0) (f : MoveIn → Slot) : Machine.withMove gd src f s = f m s := by
  obtain ⟨c, x, en, t⟩ := m
  have h1 := h.en
  have h2 := h.t
  simp only at h1 h2
  subst h1 h2
  simp only [Machine.withMove, h.curWave]
  rw [if_neg he]

/-- The move without one. -/
theorem withMove_off (h : s.Issues gd src m) (he : m.en = 0) (f : MoveIn → Slot) : Machine.withMove gd src f s = .ok s := by
  have h1 := h.en
  simp only [Machine.withMove, h.curWave]
  rw [← h1, if_pos he]

theorem en_of_real (hr : m.real ≠ 0) : m.en ≠ 0 := by
  intro he
  exact hr (by simp [MoveIn.real, Ctx.real, he])

/-- The move with an enabled lane that is no shadow. -/
theorem withReal (h : s.Issues gd src m) (hr : m.real ≠ 0) (f : MoveIn → Slot) : Machine.withReal gd src f s = f m s := by
  unfold Machine.withReal
  rw [h.withMove (en_of_real hr), if_neg hr]

/-- The move without one. -/
theorem withReal_off (h : s.Issues gd src m) (hr : m.real = 0) (f : MoveIn → Slot) : Machine.withReal gd src f s = .ok s := by
  by_cases he : m.en = 0
  · exact h.withMove_off he _
  · unfold Machine.withReal
    rw [h.withMove he, if_pos hr]

/-- A move at which shadow pairs are compared (R375): without a difference it acts when some enabled lane is no shadow. -/
theorem withPairs (h : s.Issues gd src m) (he : m.en ≠ 0) (f : MoveIn → Nat → List Dword) (go : MoveIn → Slot) (hd : m.shadowDiff (f m) = 0) :
    Machine.withPairs gd src f go s = if m.real = 0 then .ok s else go m s := by
  unfold Machine.withPairs; rw [h.withMove he]; unfold Machine.shadowed; simp only [hd, if_true]

/-- With a difference it raises CHECK_MISMATCH for the partners (R375). -/
theorem withPairs_differ (h : s.Issues gd src m) (he : m.en ≠ 0) (f : MoveIn → Nat → List Dword) (go : MoveIn → Slot) (hd : m.shadowDiff (f m) ≠ 0) :
    Machine.withPairs gd src f go s = m.trap 0x08 (m.shadowDiff (f m)) 0 := by
  unfold Machine.withPairs; rw [h.withMove he]; unfold Machine.shadowed; simp only [hd, if_false]

/-- A lane operation starts in its enabled lanes. -/
theorem laneOp (h : s.Issues gd src m) (he : m.en ≠ 0) (u : FuncUnit) (lat : Nat) (f : MoveIn → Nat → LaneOut) :
    Machine.laneOp u lat gd src f s = .ok (s.start m.w u (portsOf u) m.en lat (f m)) := by
  unfold Machine.laneOp; rw [h.withMove he]

theorem cvOp (h : s.Issues gd src m) (he : m.en ≠ 0) (n : Fin 8) (f : FmtSlot → MoveIn → Nat → LaneOut) :
    Machine.cvOp gd n src f s = .ok (s.start m.w .cv (portsOf .cv) m.en 4 (f (s.slotOf m.x n.val) m)) := by
  unfold Machine.cvOp; rw [h.laneOp he]

theorem cxKeep (h : s.Issues gd src m) (he : m.en ≠ 0) (f : MoveIn → Nat → LaneOut) :
    Machine.cxKeep gd src f s = .ok (s.start m.w .cx (portsOf .cx) m.en 4 fun l => { f m l with hi := m.x.ctx.port .cx .hi l }) := by
  unfold Machine.cxKeep; rw [h.laneOp he]

theorem xlOp (h : s.Issues gd src m) (hr : m.real ≠ 0) (lat : Nat) (f : MoveIn → Nat → LaneOut) :
    Machine.xlOp lat gd src f s =
      .ok (s.start m.w .xl [.res, .hi] m.en lat fun l => f m (if m.x.ctx.shadows.getLsbD l then l ^^^ 16 else l)) := by
  unfold Machine.xlOp; rw [h.withReal hr]

end State.Issues

/-! Starting an operation. -/

/-- The wave after an operation has started. -/
def startedWave (x : Wave) (u : FuncUnit) (ports : List PortNo) (en : Mask) (out : Nat → LaneOut) : Wave :=
  { x.begin u ports en with
    pend := Map.put x.pend x.nextOp (x.pending u ports en out)
    inject := x.inject.filter fun i => !(decide (i / 32 = unitCode u) && en.getLsbD (i % 32)) }

theorem State.start_eq (s : State) (w : Nat) (u : FuncUnit) (ports : List PortNo) (en : Mask) (lat : Nat) (out : Nat → LaneOut) :
    s.start w u ports en lat out = (s.setWave w (startedWave (s.wave w) u ports en out)).after lat .resultReady [w, (s.wave w).nextOp] := by
  unfold State.start startedWave
  simp only [Wave.begin_pend, Wave.begin_inject]

/-- What starting an operation leaves alone. -/
theorem State.start_onlyWave (s : State) (w : Nat) (u : FuncUnit) (ports : List PortNo) (en : Mask) (lat : Nat) (out : Nat → LaneOut) :
    s.OnlyWaveAndAgenda (s.start w u ports en lat out) w := by
  rw [State.start_eq]
  refine ⟨rfl, fun v hv => ?_⟩
  simp [hv]

end Sys2Proof.Machine
end

