-- ==== Sys2Proof/Tests/Slice0.lean ====
section
/-! SUPPORT. Tests of the model: words written out from the spec's encoding tables, ill-formed terms, single steps on small states with results
taken from the spec's worked examples or computed by hand from its rules, and a witness of the hypotheses of every statement. -/
namespace Sys2Proof.Tests
open Sys2Proof.Machine

/-! Decoding: every kind of move, its word put together from R47, R48, R49, R51 and R62; bit 31 NEG, [30:28] guard, [27:23] unit, [22:21] port,
[20:16] operation, [15:0] source. -/

theorem test_decode_moves :
    decodeTableWord 32 0x004D0064 = some (.moveM0 ⟨false, 0⟩ 77 (.main 100)) ∧
    decodeTableWord 32 0x90BF0065 = some (.moveM1 ⟨true, 1⟩ 63 (.main 101)) ∧
    decodeTableWord 32 0x21280066 = some (.moveLf ⟨false, 2⟩ (.baseLo 8) (.main 102)) ∧
    decodeTableWord 32 0xB7E00067 = some (.latchWrite ⟨true, 3⟩ .ls .o3 (.main 103)) := by decide

theorem test_decode_ia_1 :
    decodeTableWord 32 0x41C00068 = some (.iaAdd ⟨false, 4⟩ .a (.main 104)) ∧
    decodeTableWord 32 0xD1C10069 = some (.iaSub ⟨true, 5⟩ .a (.main 105)) ∧
    decodeTableWord 32 0x6242006A = some (.iaAnd ⟨false, 6⟩ .b (.main 106)) ∧
    decodeTableWord 32 0xF243006B = some (.iaOr ⟨true, 7⟩ .b (.main 107)) ∧
    decodeTableWord 32 0x01C4006C = some (.iaXor ⟨false, 0⟩ .a (.main 108)) ∧
    decodeTableWord 32 0x91C5006D = some (.iaAndn ⟨true, 1⟩ .a (.main 109)) ∧
    decodeTableWord 32 0x2246006E = some (.iaOrn ⟨false, 2⟩ .b (.main 110)) ∧
    decodeTableWord 32 0xB247006F = some (.iaMinS ⟨true, 3⟩ .b (.main 111)) ∧
    decodeTableWord 32 0x41C80070 = some (.iaMaxS ⟨false, 4⟩ .a (.main 112)) ∧
    decodeTableWord 32 0xD1C90071 = some (.iaMinU ⟨true, 5⟩ .a (.main 113)) ∧
    decodeTableWord 32 0x624A0072 = some (.iaMaxU ⟨false, 6⟩ .b (.main 114)) ∧
    decodeTableWord 32 0xF24B0073 = some (.iaEq ⟨true, 7⟩ .b (.main 115)) ∧
    decodeTableWord 32 0x01CC0074 = some (.iaNe ⟨false, 0⟩ .a (.main 116)) ∧
    decodeTableWord 32 0x91CD0075 = some (.iaLtS ⟨true, 1⟩ .a (.main 117)) ∧
    decodeTableWord 32 0x224E0076 = some (.iaLeS ⟨false, 2⟩ .b (.main 118)) ∧
    decodeTableWord 32 0xB24F0077 = some (.iaLtU ⟨true, 3⟩ .b (.main 119)) ∧
    decodeTableWord 32 0x41D00078 = some (.iaLeU ⟨false, 4⟩ .a (.main 120)) ∧
    decodeTableWord 32 0xD1D10079 = some (.iaSel ⟨true, 5⟩ .a (.main 121)) ∧
    decodeTableWord 32 0x6252007A = some (.iaSextB ⟨false, 6⟩ .b (.main 122)) ∧
    decodeTableWord 32 0xF253007B = some (.iaSextH ⟨true, 7⟩ .b (.main 123)) := by decide

theorem test_decode_ia_2 :
    decodeTableWord 32 0x01D4007C = some (.iaZextB ⟨false, 0⟩ .a (.main 124)) ∧
    decodeTableWord 32 0x91D5007D = some (.iaZextH ⟨true, 1⟩ .a (.main 125)) ∧
    decodeTableWord 32 0x2256007E = some (.iaAbs ⟨false, 2⟩ .b (.main 126)) ∧
    decodeTableWord 32 0xB257007F = some (.iaNeg ⟨true, 3⟩ .b (.main 127)) ∧
    decodeTableWord 32 0x41D80080 = some (.iaAddsS ⟨false, 4⟩ .a (.main 128)) ∧
    decodeTableWord 32 0xD1D90081 = some (.iaSubsS ⟨true, 5⟩ .a (.main 129)) ∧
    decodeTableWord 32 0x625A0082 = some (.iaAddCo ⟨false, 6⟩ .b (.main 130)) ∧
    decodeTableWord 32 0xF25B0083 = some (.iaSubBo ⟨true, 7⟩ .b (.main 131)) ∧
    decodeTableWord 32 0x01DC0084 = some (.iaMov ⟨false, 0⟩ .a (.main 132)) := by decide

theorem test_decode_ma :
    decodeTableWord 32 0x92C00085 = some (.maMulLo ⟨true, 1⟩ .a (.main 133)) ∧
    decodeTableWord 32 0x23410086 = some (.maMulHiS ⟨false, 2⟩ .b (.main 134)) ∧
    decodeTableWord 32 0xB3420087 = some (.maMulHiU ⟨true, 3⟩ .b (.main 135)) ∧
    decodeTableWord 32 0x42C30088 = some (.maMadLo ⟨false, 4⟩ .a (.main 136)) ∧
    decodeTableWord 32 0xD2C40089 = some (.maMadWideS ⟨true, 5⟩ .a (.main 137)) ∧
    decodeTableWord 32 0x6345008A = some (.maMadWideU ⟨false, 6⟩ .b (.main 138)) ∧
    decodeTableWord 32 0xF346008B = some (.maDivU ⟨true, 7⟩ .b (.main 139)) ∧
    decodeTableWord 32 0x02C7008C = some (.maDivS ⟨false, 0⟩ .a (.main 140)) ∧
    decodeTableWord 32 0x92C8008D = some (.maRemU ⟨true, 1⟩ .a (.main 141)) ∧
    decodeTableWord 32 0x2349008E = some (.maRemS ⟨false, 2⟩ .b (.main 142)) := by decide

theorem test_decode_sa :
    decodeTableWord 32 0xB440008F = some (.saShl ⟨true, 3⟩ .b (.main 143)) ∧
    decodeTableWord 32 0x43C10090 = some (.saShr ⟨false, 4⟩ .a (.main 144)) ∧
    decodeTableWord 32 0xD3C20091 = some (.saSar ⟨true, 5⟩ .a (.main 145)) ∧
    decodeTableWord 32 0x64430092 = some (.saRotl ⟨false, 6⟩ .b (.main 146)) ∧
    decodeTableWord 32 0xF4440093 = some (.saRotr ⟨true, 7⟩ .b (.main 147)) ∧
    decodeTableWord 32 0x03C50094 = some (.saBextU ⟨false, 0⟩ .a (.main 148)) ∧
    decodeTableWord 32 0x93C60095 = some (.saBextS ⟨true, 1⟩ .a (.main 149)) ∧
    decodeTableWord 32 0x24470096 = some (.saBins ⟨false, 2⟩ .b (.main 150)) ∧
    decodeTableWord 32 0xB4480097 = some (.saPopc ⟨true, 3⟩ .b (.main 151)) ∧
    decodeTableWord 32 0x43C90098 = some (.saClz ⟨false, 4⟩ .a (.main 152)) ∧
    decodeTableWord 32 0xD3CA0099 = some (.saCtz ⟨true, 5⟩ .a (.main 153)) ∧
    decodeTableWord 32 0x644B009A = some (.saBrev ⟨false, 6⟩ .b (.main 154)) ∧
    decodeTableWord 32 0xF44C009B = some (.saPerm ⟨true, 7⟩ .b (.main 155)) ∧
    decodeTableWord 32 0x03CD009C = some (.saFsh ⟨false, 0⟩ .a (.main 156)) := by decide

theorem test_decode_ck :
    decodeTableWord 32 0x94C0009D = some (.ckEq ⟨true, 1⟩ (.main 157)) ∧
    decodeTableWord 32 0x24C1009E = some (.ckRng ⟨false, 2⟩ (.main 158)) ∧
    decodeTableWord 32 0xB4C2009F = some (.ckMark ⟨true, 3⟩ (.main 159)) := by decide

theorem test_decode_fa :
    decodeTableWord 32 0x454000A0 = some (.faAdd ⟨false, 4⟩ .a (.main 160)) ∧
    decodeTableWord 32 0xD54100A1 = some (.faSub ⟨true, 5⟩ .a (.main 161)) ∧
    decodeTableWord 32 0x65C200A2 = some (.faMul ⟨false, 6⟩ .b (.main 162)) ∧
    decodeTableWord 32 0xF5C300A3 = some (.faFma ⟨true, 7⟩ .b (.main 163)) ∧
    decodeTableWord 32 0x05440064 = some (.faFms ⟨false, 0⟩ .a (.main 100)) ∧
    decodeTableWord 32 0x95450065 = some (.faFnma ⟨true, 1⟩ .a (.main 101)) ∧
    decodeTableWord 32 0x25C60066 = some (.faFnms ⟨false, 2⟩ .b (.main 102)) ∧
    decodeTableWord 32 0xB5C70067 = some (.faMin ⟨true, 3⟩ .b (.main 103)) ∧
    decodeTableWord 32 0x45480068 = some (.faMax ⟨false, 4⟩ .a (.main 104)) ∧
    decodeTableWord 32 0xD5490069 = some (.faMinn ⟨true, 5⟩ .a (.main 105)) ∧
    decodeTableWord 32 0x65CA006A = some (.faMaxn ⟨false, 6⟩ .b (.main 106)) ∧
    decodeTableWord 32 0xF5CB006B = some (.faEq ⟨true, 7⟩ .b (.main 107)) ∧
    decodeTableWord 32 0x054C006C = some (.faLt ⟨false, 0⟩ .a (.main 108)) ∧
    decodeTableWord 32 0x954D006D = some (.faLe ⟨true, 1⟩ .a (.main 109)) ∧
    decodeTableWord 32 0x25CE006E = some (.faUn ⟨false, 2⟩ .b (.main 110)) ∧
    decodeTableWord 32 0xB5CF006F = some (.faAbs ⟨true, 3⟩ .b (.main 111)) ∧
    decodeTableWord 32 0x45500070 = some (.faNeg ⟨false, 4⟩ .a (.main 112)) ∧
    decodeTableWord 32 0xD5510071 = some (.faCsgn ⟨true, 5⟩ .a (.main 113)) ∧
    decodeTableWord 32 0x65D20072 = some (.faRint ⟨false, 6⟩ .b (.main 114)) ∧
    decodeTableWord 32 0xF5D30073 = some (.faFrac ⟨true, 7⟩ .b (.main 115)) := by decide

theorem test_decode_xf :
    decodeTableWord 32 0x06400074 = some (.xfRcp ⟨false, 0⟩ (.main 116)) ∧
    decodeTableWord 32 0x96410075 = some (.xfRsqrt ⟨true, 1⟩ (.main 117)) ∧
    decodeTableWord 32 0x26420076 = some (.xfSqrt ⟨false, 2⟩ (.main 118)) ∧
    decodeTableWord 32 0xB6430077 = some (.xfDiv ⟨true, 3⟩ (.main 119)) ∧
    decodeTableWord 32 0x46440078 = some (.xfExp2 ⟨false, 4⟩ (.main 120)) ∧
    decodeTableWord 32 0xD6450079 = some (.xfLog2 ⟨true, 5⟩ (.main 121)) ∧
    decodeTableWord 32 0x6646007A = some (.xfSinpi ⟨false, 6⟩ (.main 122)) ∧
    decodeTableWord 32 0xF647007B = some (.xfCospi ⟨true, 7⟩ (.main 123)) ∧
    decodeTableWord 32 0x0648007C = some (.xfTanh ⟨false, 0⟩ (.main 124)) ∧
    decodeTableWord 32 0x9649007D = some (.xfSigm ⟨true, 1⟩ (.main 125)) := by decide

theorem test_decode_cv :
    decodeTableWord 32 0x26C2007E = some (.cvUp ⟨false, 2⟩ 2 (.main 126)) ∧
    decodeTableWord 32 0xB6CB007F = some (.cvDn ⟨true, 3⟩ 3 (.main 127)) ∧
    decodeTableWord 32 0x46D40080 = some (.cvDot ⟨false, 4⟩ 4 (.main 128)) ∧
    decodeTableWord 32 0xD6DD0081 = some (.cvSc ⟨true, 5⟩ 5 (.main 129)) := by decide

theorem test_decode_cx :
    decodeTableWord 32 0x67400082 = some (.cxF2bf ⟨false, 6⟩ (.main 130)) ∧
    decodeTableWord 32 0xF7410083 = some (.cxF2bfZ ⟨true, 7⟩ (.main 131)) ∧
    decodeTableWord 32 0x07420084 = some (.cxF2h ⟨false, 0⟩ (.main 132)) ∧
    decodeTableWord 32 0x97430085 = some (.cxF2hZ ⟨true, 1⟩ (.main 133)) ∧
    decodeTableWord 32 0x27440086 = some (.cxBf2f ⟨false, 2⟩ (.main 134)) ∧
    decodeTableWord 32 0xB7450087 = some (.cxH2f ⟨true, 3⟩ (.main 135)) ∧
    decodeTableWord 32 0x47460088 = some (.cxF2i ⟨false, 4⟩ (.main 136)) ∧
    decodeTableWord 32 0xD7470089 = some (.cxF2iZ ⟨true, 5⟩ (.main 137)) ∧
    decodeTableWord 32 0x6748008A = some (.cxF2ui ⟨false, 6⟩ (.main 138)) ∧
    decodeTableWord 32 0xF749008B = some (.cxF2uiZ ⟨true, 7⟩ (.main 139)) ∧
    decodeTableWord 32 0x074A008C = some (.cxI2f ⟨false, 0⟩ (.main 140)) ∧
    decodeTableWord 32 0x974B008D = some (.cxUi2f ⟨true, 1⟩ (.main 141)) ∧
    decodeTableWord 32 0x274C008E = some (.cxPack ⟨false, 2⟩ (.main 142)) ∧
    decodeTableWord 32 0xB74D008F = some (.cxUnpack ⟨true, 3⟩ (.main 143)) := by decide

theorem test_decode_ls_1 :
    decodeTableWord 32 0x47C00090 = some (.lsLdB ⟨false, 4⟩ (.main 144)) ∧
    decodeTableWord 32 0xD7C10091 = some (.lsLdBs ⟨true, 5⟩ (.main 145)) ∧
    decodeTableWord 32 0x67C20092 = some (.lsLdH ⟨false, 6⟩ (.main 146)) ∧
    decodeTableWord 32 0xF7C30093 = some (.lsLdHs ⟨true, 7⟩ (.main 147)) ∧
    decodeTableWord 32 0x07C40094 = some (.lsLdW ⟨false, 0⟩ (.main 148)) ∧
    decodeTableWord 32 0x97C50095 = some (.lsStB ⟨true, 1⟩ (.main 149)) ∧
    decodeTableWord 32 0x27C60096 = some (.lsStH ⟨false, 2⟩ (.main 150)) ∧
    decodeTableWord 32 0xB7C70097 = some (.lsStW ⟨true, 3⟩ (.main 151)) ∧
    decodeTableWord 32 0x47C80098 = some (.lsAtAdd ⟨false, 4⟩ (.main 152)) ∧
    decodeTableWord 32 0xD7C90099 = some (.lsAtAnd ⟨true, 5⟩ (.main 153)) ∧
    decodeTableWord 32 0x67CA009A = some (.lsAtOr ⟨false, 6⟩ (.main 154)) ∧
    decodeTableWord 32 0xF7CB009B = some (.lsAtXor ⟨true, 7⟩ (.main 155)) ∧
    decodeTableWord 32 0x07CC009C = some (.lsAtMinS ⟨false, 0⟩ (.main 156)) ∧
    decodeTableWord 32 0x97CD009D = some (.lsAtMaxS ⟨true, 1⟩ (.main 157)) ∧
    decodeTableWord 32 0x27CE009E = some (.lsAtMinU ⟨false, 2⟩ (.main 158)) ∧
    decodeTableWord 32 0xB7CF009F = some (.lsAtMaxU ⟨true, 3⟩ (.main 159)) ∧
    decodeTableWord 32 0x47D000A0 = some (.lsAtXchg ⟨false, 4⟩ (.main 160)) ∧
    decodeTableWord 32 0xD7D100A1 = some (.lsAtCas ⟨true, 5⟩ (.main 161)) ∧
    decodeTableWord 32 0x67D200A2 = some (.lsAtFadd ⟨false, 6⟩ (.main 162)) ∧
    decodeTableWord 32 0xF7D300A3 = some (.lsPf ⟨true, 7⟩ (.main 163)) := by decide

theorem test_decode_ls_2 :
    decodeTableWord 32 0x07D40064 = some (.lsCwb ⟨false, 0⟩ (.main 100)) ∧
    decodeTableWord 32 0x97D50065 = some (.lsCinvWb ⟨true, 1⟩ (.main 101)) ∧
    decodeTableWord 32 0x27D60066 = some (.lsCinvDis ⟨false, 2⟩ (.main 102)) ∧
    decodeTableWord 32 0xB7D70067 = some (.lsFence ⟨true, 3⟩ (.main 103)) ∧
    decodeTableWord 32 0x47D80068 = some (.lsPol ⟨false, 4⟩ (.main 104)) := by decide

theorem test_decode_sp :
    decodeTableWord 32 0xD8400069 = some (.spLdB ⟨true, 5⟩ (.main 105)) ∧
    decodeTableWord 32 0x6841006A = some (.spLdH ⟨false, 6⟩ (.main 106)) ∧
    decodeTableWord 32 0xF842006B = some (.spLdW ⟨true, 7⟩ (.main 107)) ∧
    decodeTableWord 32 0x0843006C = some (.spStB ⟨false, 0⟩ (.main 108)) ∧
    decodeTableWord 32 0x9844006D = some (.spStH ⟨true, 1⟩ (.main 109)) ∧
    decodeTableWord 32 0x2845006E = some (.spStW ⟨false, 2⟩ (.main 110)) ∧
    decodeTableWord 32 0xB846006F = some (.spAtAdd ⟨true, 3⟩ (.main 111)) ∧
    decodeTableWord 32 0x48470070 = some (.spAtCas ⟨false, 4⟩ (.main 112)) ∧
    decodeTableWord 32 0xD8480071 = some (.spAtXchg ⟨true, 5⟩ (.main 113)) := by decide

theorem test_decode_xl :
    decodeTableWord 32 0x68C00072 = some (.xlTakeIx ⟨false, 6⟩ (.main 114)) ∧
    decodeTableWord 32 0xF8C10073 = some (.xlTakeRot ⟨true, 7⟩ (.main 115)) ∧
    decodeTableWord 32 0x08C20074 = some (.xlTakeSh ⟨false, 0⟩ (.main 116)) ∧
    decodeTableWord 32 0x98C30075 = some (.xlTakeMir ⟨true, 1⟩ (.main 117)) ∧
    decodeTableWord 32 0x28C40076 = some (.xlSpread ⟨false, 2⟩ (.main 118)) ∧
    decodeTableWord 32 0xB8C50077 = some (.xlSum ⟨true, 3⟩ (.main 119)) ∧
    decodeTableWord 32 0x48C60078 = some (.xlMinS ⟨false, 4⟩ (.main 120)) ∧
    decodeTableWord 32 0xD8C70079 = some (.xlMaxS ⟨true, 5⟩ (.main 121)) ∧
    decodeTableWord 32 0x68C8007A = some (.xlAnd ⟨false, 6⟩ (.main 122)) ∧
    decodeTableWord 32 0xF8C9007B = some (.xlOr ⟨true, 7⟩ (.main 123)) ∧
    decodeTableWord 32 0x08CA007C = some (.xlFsum ⟨false, 0⟩ (.main 124)) ∧
    decodeTableWord 32 0x98CB007D = some (.xlEvery ⟨true, 1⟩ (.main 125)) ∧
    decodeTableWord 32 0x28CC007E = some (.xlSome ⟨false, 2⟩ (.main 126)) ∧
    decodeTableWord 32 0xB8CD007F = some (.xlMask ⟨true, 3⟩ (.main 127)) ∧
    decodeTableWord 32 0x48CE0080 = some (.xlPreAdd ⟨false, 4⟩ (.main 128)) ∧
    decodeTableWord 32 0xD8CF0081 = some (.xlPreFadd ⟨true, 5⟩ (.main 129)) := by decide

theorem test_decode_qu :
    decodeTableWord 32 0x69400082 = some (.quEnq ⟨false, 6⟩ (.main 130)) ∧
    decodeTableWord 32 0xF9410083 = some (.quClaim ⟨true, 7⟩ (.main 131)) ∧
    decodeTableWord 32 0x09420084 = some (.quPub ⟨false, 0⟩ (.main 132)) ∧
    decodeTableWord 32 0x99430085 = some (.quBindU ⟨true, 1⟩ (.main 133)) ∧
    decodeTableWord 32 0x29440086 = some (.quBindS ⟨false, 2⟩ (.main 134)) ∧
    decodeTableWord 32 0xB9450087 = some (.quUnbind ⟨true, 3⟩ (.main 135)) ∧
    decodeTableWord 32 0x49460088 = some (.quAvail ⟨false, 4⟩ (.main 136)) ∧
    decodeTableWord 32 0xD9470089 = some (.quCreate ⟨true, 5⟩ (.main 137)) ∧
    decodeTableWord 32 0x6948008A = some (.quDestroy ⟨false, 6⟩ (.main 138)) ∧
    decodeTableWord 32 0xF949008B = some (.quTsnow ⟨true, 7⟩ (.main 139)) := by decide

theorem test_decode_en :
    decodeTableWord 32 0x09C0008C = some (.enCp ⟨false, 0⟩ (.main 140)) ∧
    decodeTableWord 32 0x99C1008D = some (.enCp2d ⟨true, 1⟩ (.main 141)) ∧
    decodeTableWord 32 0x29C2008E = some (.enCpb ⟨false, 2⟩ (.main 142)) ∧
    decodeTableWord 32 0xB9C3008F = some (.enCpt ⟨true, 3⟩ (.main 143)) ∧
    decodeTableWord 32 0x49C40090 = some (.enGa ⟨false, 4⟩ (.main 144)) ∧
    decodeTableWord 32 0xD9C50091 = some (.enSc ⟨true, 5⟩ (.main 145)) ∧
    decodeTableWord 32 0x69C60092 = some (.enFill ⟨false, 6⟩ (.main 146)) ∧
    decodeTableWord 32 0xF9C70093 = some (.enStatus ⟨true, 7⟩ (.main 147)) := by decide

theorem test_decode_mx :
    decodeTableWord 32 0x0A400094 = some (.mxMma ⟨false, 0⟩ 0 (.main 148)) ∧
    decodeTableWord 32 0x9A490095 = some (.mxMms ⟨true, 1⟩ 1 (.main 149)) ∧
    decodeTableWord 32 0x2A520096 = some (.mxEpi ⟨false, 2⟩ 2 (.main 150)) ∧
    decodeTableWord 32 0xBA580097 = some (.mxReq ⟨true, 3⟩ (.main 151)) ∧
    decodeTableWord 32 0x4A590098 = some (.mxRel ⟨false, 4⟩ (.main 152)) ∧
    decodeTableWord 32 0xDA5A0099 = some (.mxRet ⟨true, 5⟩ (.main 153)) ∧
    decodeTableWord 32 0x6A5B009A = some (.mxZero ⟨false, 6⟩ (.main 154)) ∧
    decodeTableWord 32 0xFA5C009B = some (.mxAbft ⟨true, 7⟩ (.main 155)) := by decide

theorem test_decode_ct :
    decodeTableWord 32 0x0AC0009C = some (.ctJmp ⟨false, 0⟩ (.main 156)) ∧
    decodeTableWord 32 0x9AC1009D = some (.ctBr ⟨true, 1⟩ (.main 157)) ∧
    decodeTableWord 32 0x2AC2009E = some (.ctCall ⟨false, 2⟩ (.main 158)) ∧
    decodeTableWord 32 0xBAC3009F = some (.ctLoop ⟨true, 3⟩ (.main 159)) ∧
    decodeTableWord 32 0x4AC400A0 = some (.ctLbrk ⟨false, 4⟩ (.main 160)) ∧
    decodeTableWord 32 0xDAC500A1 = some (.ctSpawn ⟨true, 5⟩ (.main 161)) ∧
    decodeTableWord 32 0x6AC600A2 = some (.ctLaunch ⟨false, 6⟩ (.main 162)) ∧
    decodeTableWord 32 0xFAC700A3 = some (.ctExit ⟨true, 7⟩ (.main 163)) ∧
    decodeTableWord 32 0x0AC80064 = some (.ctBarMeet ⟨false, 0⟩ (.main 100)) ∧
    decodeTableWord 32 0x9AC90065 = some (.ctBarSign ⟨true, 1⟩ (.main 101)) ∧
    decodeTableWord 32 0x2ACA0066 = some (.ctBarHold ⟨false, 2⟩ (.main 102)) ∧
    decodeTableWord 32 0xBACB0067 = some (.ctWait ⟨true, 3⟩ (.main 103)) ∧
    decodeTableWord 32 0x4ACC0068 = some (.ctYield ⟨false, 4⟩ (.main 104)) ∧
    decodeTableWord 32 0xDACD0069 = some (.ctTrap ⟨true, 5⟩ (.main 105)) ∧
    decodeTableWord 32 0x6ACE006A = some (.ctRcvw ⟨false, 6⟩ (.main 106)) := by decide

theorem test_decode_sy :
    decodeTableWord 32 0xFB40006B = some (.syRdsr ⟨true, 7⟩ (.main 107)) ∧
    decodeTableWord 32 0x0B41006C = some (.syWrsr ⟨false, 0⟩ (.main 108)) ∧
    decodeTableWord 32 0x9B42006D = some (.syTlbinv ⟨true, 1⟩ (.main 109)) ∧
    decodeTableWord 32 0x2B43006E = some (.syPmap ⟨false, 2⟩ (.main 110)) ∧
    decodeTableWord 32 0xBB44006F = some (.sySret ⟨true, 3⟩ (.main 111)) ∧
    decodeTableWord 32 0x4B450070 = some (.syMbox ⟨false, 4⟩ (.main 112)) ∧
    decodeTableWord 32 0xDB460071 = some (.syLnk ⟨true, 5⟩ (.main 113)) ∧
    decodeTableWord 32 0x6B470072 = some (.syDctl ⟨false, 6⟩ (.main 114)) ∧
    decodeTableWord 32 0xFB480073 = some (.syInj ⟨true, 7⟩ (.main 115)) ∧
    decodeTableWord 32 0x0B490074 = some (.syPart ⟨false, 0⟩ (.main 116)) := by decide
/-! Reserved words (R64) and ill-formed terms. -/

theorem test_reserved_units : decodeTableWord 32 0x0B800000 = none ∧ decodeTableWord 32 0x0F800000 = none := by decide
theorem test_reserved_main : decodeTableWord 32 0x00C00000 = none ∧ decodeTableWord 32 0x000000C0 = none ∧ decodeTableWord 32 0x000000BF = some (.moveM0 ⟨false, 0⟩ 0 (.main 191)) := by
  decide
theorem test_reserved_latch : decodeTableWord 32 0x01810000 = none ∧ decodeTableWord 32 0x03E00000 = none ∧ decodeTableWord 32 0x07E00000 = some (.latchWrite ⟨false, 0⟩ .ls .o3 (.main 0)) := by decide
theorem test_reserved_classes : decodeTableWord 32 0x0000A000 = none ∧ decodeTableWord 32 0x0000FFFF = none := by decide
theorem test_wellformed_port : (Instr.iaAdd ⟨false, 0⟩ .a (.port .ia .st)).wellFormed = false ∧ (Instr.iaAdd ⟨false, 0⟩ .a (.port .ia .hi)).wellFormed = true := by decide
theorem test_wellformed_latch : (Instr.latchWrite ⟨false, 0⟩ .ia .o3 (.main 0)).wellFormed = false ∧ (Instr.latchWrite ⟨false, 0⟩ .ls .o3 (.main 0)).wellFormed = true := by decide
theorem test_wellformed_latch_source : (Instr.latchWrite ⟨false, 0⟩ .ls .o1 (.port .sa .hi)).wellFormed = false := by decide

/-! Small states: a partition whose one memory window is the page at 0x10000, and one wave in slot 0 of core 0 whose fragment holds the lanes of a mask, in the middle of a bundle at 0x10000 of eight bytes. -/

def cap (mask : Mask) : Capture := { addr := 0x10000, header := 0, words := [], longs := [], len := 8, mask := mask, en := [], src := [], avail := [] }
def wave (vec : Map Word) (mask : Mask) : Wave := { Wave.blank with ctx := { Ctx.start with vec := vec, seqs := [(0, Seq.start 0x10000 mask 0)] } }
def windowPart : Part := { Part.reset with mwbase := [(0, 0x10000)], mwlim := [(0, 0x10000)] }
def machine (vec : Map Word) (mask : Mask) : State :=
  { State.reset with
    parts := [(0, windowPart)], agenda := [], cur := some (Issue.start 0 0 0 1 (cap mask) []), waves := [(0, wave vec mask)], teams := [(0, programTeam)], launches := [(0, programLaunch)] }
/-- Key of vector `v` in lane `l`. -/
def at_ (v l : Nat) : Nat := 32 * v + l
def on : Guard := ⟨false, 0⟩
/-- The trigger value stands in m5. -/
def m5 : Src := .main 5
/-- Lane 0 alone, with o1, o2 and T. -/
def given (u : FuncUnit) (a b c : Word) : State := machine [(at_ 5 0, c), (at_ (latchVec u .o1) 0, a), (at_ (latchVec u .o2) 0, b)] 1
/-- The value that waits for vector `v`, lane `l`, after a step. -/
def waiting (o : Host.Outcome State Fault Refusal) (v l : Nat) : Word :=
  match o with
  | .next t => (((t.wave 0).pend.getLast?).map fun p => Map.get 0 p.2.vals (at_ v l)).getD 0
  | _ => 0
def res (u : FuncUnit) (i : Instr) (s : State) : Word := waiting (exec i s) (portVec u .res) 0
def hi (u : FuncUnit) (i : Instr) (s : State) : Word := waiting (exec i s) (portVec u .hi) 0
def st (u : FuncUnit) (i : Instr) (s : State) : Word := waiting (exec i s) (portVec u .st) 0
/-- The state a step answers. -/
def after (o : Host.Outcome State Fault Refusal) : State := match o with | .next t => t | _ => State.reset

/-- TSTATE of the wave after a step: cause, slot and VALID (R265). -/
def tstate (i : Instr) (s : State) : Word := ((after (exec i s)).wave 0).tstate

/-! Integer units. -/

/-- R111's example. -/
theorem test_add_co : res .ia (.iaAddCo on .a m5) (given .ia 0xFFFFFFFF 1 0) = 0 ∧ hi .ia (.iaAddCo on .a m5) (given .ia 0xFFFFFFFF 1 0) = 5 ∧
    res .ib (.iaAddCo on .b m5) (given .ib 1 2 5) = 4 := by decide
/-- R111: sub of equal numbers sets Z, of a smaller from a greater C and N. -/
theorem test_sub : hi .ia (.iaSub on .a m5) (given .ia 7 0 7) = 4 ∧ hi .ia (.iaSub on .a m5) (given .ia 3 0 4) = 9 ∧ res .ia (.iaSub on .a m5) (given .ia 3 0 4) = 0xFFFFFFFF := by decide
theorem test_adds_clamps : res .ia (.iaAddsS on .a m5) (given .ia 0x7FFFFFFF 0 1) = 0x7FFFFFFF ∧ hi .ia (.iaAddsS on .a m5) (given .ia 0x7FFFFFFF 0 1) = 2 := by decide
theorem test_abs_min : res .ia (.iaAbs on .a m5) (given .ia 0 0 0x80000000) = 0x80000000 ∧ hi .ia (.iaAbs on .a m5) (given .ia 0 0 0x80000000) = 0xA := by decide
theorem test_sel : res .ia (.iaSel on .a m5) (given .ia 11 22 0x100) = 11 ∧ res .ia (.iaSel on .a m5) (given .ia 11 22 0) = 22 := by decide
theorem test_lt_signs : res .ia (.iaLtS on .a m5) (given .ia 0xFFFFFFFF 0 1) = 1 ∧ res .ia (.iaLtU on .a m5) (given .ia 0xFFFFFFFF 0 1) = 0 := by decide
theorem test_sext : res .ib (.iaSextB on .b m5) (given .ib 0 0 0xF80) = 0xFFFFFF80 ∧ res .ib (.iaZextB on .b m5) (given .ib 0 0 0xF80) = 0x80 := by decide
/-- R117's example: lanes 0 and 1 are enabled, lane 2 has a zero divisor and is guarded off. -/
def twoLanes : State :=
  { machine [(at_ 5 0, 7), (at_ 5 1, 3), (at_ (latchVec .ma .o1) 0, 1000), (at_ (latchVec .ma .o1) 1, 100000), (at_ (latchVec .ma .o1) 2, 9)] 3 with now := 10 }
theorem test_divide : res .ma (.maDivU on .a m5) twoLanes = 142 ∧ hi .ma (.maDivU on .a m5) twoLanes = 6 ∧
    waiting (exec (.maDivU on .a m5) twoLanes) (portVec .ma .res) 1 = 33333 ∧ waiting (exec (.maDivU on .a m5) twoLanes) (portVec .ma .hi) 1 = 1 ∧
    (after (exec (.maDivU on .a m5) twoLanes)).agenda.map (·.1) = [32] := by decide
theorem test_divide_overflow : res .ma (.maDivS on .a m5) (given .ma 0x80000000 0 0xFFFFFFFF) = 0x80000000 ∧ hi .ma (.maDivS on .a m5) (given .ma 0x80000000 0 0xFFFFFFFF) = 0 ∧
    st .ma (.maDivS on .a m5) (given .ma 0x80000000 0 0xFFFFFFFF) = 1 := by decide
/-- R112: the sign of a remainder is that of a. -/
theorem test_remainder : res .mb (.maRemS on .b m5) (given .mb 0xFFFFFFF9 0 2) = 0xFFFFFFFF ∧ hi .mb (.maRemS on .b m5) (given .mb 0xFFFFFFF9 0 2) = 0xFFFFFFFD := by decide
/-- A zero divisor raises ARITH (R114): cause 0x0F, slot 0, VALID (R358). -/
theorem test_divide_by_zero : tstate (.maDivU on .a m5) (given .ma 5 0 0) = 0x80F := by decide
theorem test_mul_lo : res .ma (.maMulLo on .a m5) (given .ma 0x10000 0 0x10000) = 0 ∧ hi .ma (.maMulLo on .a m5) (given .ma 0x10000 0 0x10000) = 1 ∧
    st .ma (.maMulLo on .a m5) (given .ma 0x10000 0 0x10000) = 3 := by decide
theorem test_mad_wide : hi .ma (.maMadWideS on .a m5) (given .ma 0xFFFFFFFF 1 0) = 0xFFFFFFFF ∧ res .ma (.maMadWideU on .a m5) (given .ma 0xFFFFFFFF 0xFFFFFFFF 0xFFFFFFFF) = 0 := by decide
/-- R120's table: a = 0x8000_00F0. -/
theorem test_shifts : res .sa (.saShl on .a m5) (given .sa 0x800000F0 0 40) = 0 ∧ res .sa (.saShr on .a m5) (given .sa 0x800000F0 0 4) = 0x0800000F ∧
    res .sa (.saSar on .a m5) (given .sa 0x800000F0 0 4) = 0xF800000F ∧ res .sb (.saRotl on .b m5) (given .sb 0x800000F0 0 8) = 0xF080 := by decide
theorem test_fields : res .sa (.saBextU on .a m5) (given .sa 0x800000F0 0 0x404) = 0xF ∧ res .sa (.saBextS on .a m5) (given .sa 0x800000F0 0 0x404) = 0xFFFFFFFF := by decide
theorem test_counts : res .sa (.saPopc on .a m5) (given .sa 0 0 0x800000F0) = 5 ∧ res .sa (.saClz on .a m5) (given .sa 0 0 0x800000F0) = 0 ∧
    res .sa (.saCtz on .a m5) (given .sa 0 0 0x800000F0) = 4 ∧ res .sa (.saBrev on .a m5) (given .sa 0 0 0x800000F0) = 0x0F000001 := by decide
theorem test_permutes : res .sa (.saPerm on .a m5) (given .sa 0x800000F0 0x11223344 0xC540) = 0x003344F0 ∧ res .sa (.saFsh on .a m5) (given .sa 0x800000F0 0x11223344 8) = 0x44800000 := by decide
theorem test_bins : res .sa (.saBins on .a m5) (given .sa 0xFFFFFFFF 0 0x0808) = 0xFFFF00FF := by decide
theorem test_check_fails : tstate (.ckEq on m5) (given .ck 1 0 2) = 0x808 ∧ tstate (.ckEq on m5) (given .ck 2 0 2) = 0 := by decide
theorem test_check_mark : st .ck (.ckMark on m5) (given .ck 1 0 2) = 1 ∧ st .ck (.ckMark on m5) (given .ck 2 0 2) = 0 := by decide

/-! Floating-point units. -/

/-- R137's example: one rounding against two. -/
theorem test_fma : res .fa (.faFma on .a m5) (given .fa 0x3F800800 0x3F800800 0xBF800000) = 0x3A000400 ∧ st .fa (.faFma on .a m5) (given .fa 0x3F800800 0x3F800800 0xBF800000) = 0 := by decide
theorem test_mul : res .fb (.faMul on .b m5) (given .fb 0x3F800800 0 0x3F800800) = 0x3F801000 ∧ st .fb (.faMul on .b m5) (given .fb 0x3F800800 0 0x3F800800) = 0x10 := by decide
theorem test_fp_sub : res .fb (.faSub on .b m5) (given .fb 0x3F801000 0 0x3F800000) = 0x3A000000 := by decide
theorem test_fp_invalid : res .fa (.faAdd on .a m5) (given .fa 0x7F800000 0 0xFF800000) = 0x7FC00000 ∧ st .fa (.faAdd on .a m5) (given .fa 0x7F800000 0 0xFF800000) = 1 := by decide
/-- R134: fma of 0, infinity and a quiet NaN returns the NaN and leaves NV clear. -/
theorem test_fma_nan : res .fa (.faFma on .a m5) (given .fa 0 0x7F800000 0x7FC00001) = 0x7FC00001 ∧ st .fa (.faFma on .a m5) (given .fa 0 0x7F800000 0x7FC00001) = 0 := by decide
theorem test_min_zero : res .fa (.faMin on .a m5) (given .fa 0 0 0x80000000) = 0x80000000 ∧ res .fa (.faMaxn on .a m5) (given .fa 0x7FC00000 0 0x3F800000) = 0x3F800000 := by decide
theorem test_fp_compare : res .fa (.faLt on .a m5) (given .fa 0x7FC00000 0 0) = 0 ∧ st .fa (.faLt on .a m5) (given .fa 0x7FC00000 0 0) = 1 ∧ res .fa (.faEq on .a m5) (given .fa 0x80000000 0 0) = 1 := by decide
/-- R137: rint of −0.4 is −0; frac of −2.75 is −0.75 and of −3 is −0. -/
theorem test_rint_frac : res .fa (.faRint on .a m5) (given .fa 0 0 0xBECCCCCD) = 0x80000000 ∧ res .fa (.faFrac on .a m5) (given .fa 0 0 0xC0300000) = 0xBF400000 ∧
    res .fa (.faFrac on .a m5) (given .fa 0 0 0xC0400000) = 0x80000000 := by decide
theorem test_rcp : res .xf (.xfRcp on m5) (given .xf 0 0 0x40400000) = 0x3EAAAAAB ∧ st .xf (.xfRcp on m5) (given .xf 0 0 0x80000000) = 2 := by decide
theorem test_sqrt : res .xf (.xfSqrt on m5) (given .xf 0 0 0x40000000) = 0x3FB504F3 ∧ res .xf (.xfSqrt on m5) (given .xf 0 0 0xBF800000) = 0x7FC00000 := by decide +kernel
theorem test_xf_div : res .xf (.xfDiv on m5) (given .xf 0x3F800000 0 0x40400000) = 0x3EAAAAAB := by decide
/-- The exact powers 2^−3 and 2^10. -/
theorem test_exp2 : res .xf (.xfExp2 on m5) (given .xf 0 0 0xC0400000) = 0x3E000000 ∧ res .xf (.xfExp2 on m5) (given .xf 0 0 0x41200000) = 0x44800000 := by decide

/-- R144's slot 1: E4M3 in, E8M0 scales, E4M3 out, sat. -/
def sloted (a b c : Word) : State :=
  { given .cv a b c with launches := [(0, { programLaunch with lrec := { programRecord with fmt := [0, 0x131833] } })] }
theorem test_dot : res .cv (.cvDot on 1 m5) (sloted 0x38304038 0xB8443C40 0x3E800000) = 0x40B80000 ∧ st .cv (.cvDot on 1 m5) (sloted 0x38304038 0xB8443C40 0x3E800000) = 0 := by decide +kernel
theorem test_scale : res .cv (.cvSc on 1 m5) (sloted 0x40B80000 0 0x8278) = 0x3EB80000 := by decide
theorem test_narrow : res .cv (.cvDn on 1 m5) (sloted 0x3EB80000 0 0) = 0x002C0000 ∧ st .cv (.cvDn on 1 m5) (sloted 0x3EB80000 0 0) = 0x10 := by decide
theorem test_widen : res .cv (.cvUp on 1 m5) (sloted 0x38304038 0 1) = 0x40000000 ∧ hi .cv (.cvUp on 1 m5) (sloted 0x38304038 0 1) = 0x3F000000 := by decide
/-- R147: f2ui.z of −0.7 gives 0 with NX; f2ui clamps, with OF and NX. -/
theorem test_f2ui : st .cx (.cxF2uiZ on m5) (given .cx 0 0 0xBF333333) = 0x10 ∧ st .cx (.cxF2ui on m5) (given .cx 0 0 0xBF333333) = 0x14 ∧ res .cx (.cxF2ui on m5) (given .cx 0 0 0xBF333333) = 0 := by decide
/-- R146: i2f of 2^24 + 1. -/
theorem test_i2f : res .cx (.cxI2f on m5) (given .cx 0 0 0x1000001) = 0x4B800000 ∧ st .cx (.cxI2f on m5) (given .cx 0 0 0x1000001) = 0x10 := by decide
theorem test_pack : res .cx (.cxPack on m5) (given .cx 0x12345 0 0xFFFFFFFF) = 0xFFFF7FFF ∧ st .cx (.cxPack on m5) (given .cx 0x12345 0 0xFFFFFFFF) = 4 := by decide
/-- R90's table: one value per row, to E4M3. -/
theorem test_e4m3 : cvtDn (ofFp32 0x3E99999A) .e4m3 .rne true = ⟨0x2A, true, false⟩ ∧ cvtDn (.fin ⟨false, 470, 1⟩) .e4m3 .rne true = ⟨0x7E, true, true⟩ ∧
    cvtDn (.fin ⟨false, 470, 1⟩) .e4m3 .rne false = ⟨0x7F, true, true⟩ ∧ cvtDn (.fin ⟨false, 464, 1⟩) .e4m3 .rne true = ⟨0x7E, true, false⟩ ∧
    cvtDn (.fin ⟨false, 500, 1⟩) .e4m3 .rtz true = ⟨0x7E, true, true⟩ ∧ cvtDn (.fin ⟨false, 1, 1000⟩) .e4m3 .rtz true = ⟨0, true, false⟩ := by decide

/-! Cross-lane operations. -/

/-- R201's example: guard g2 is 0 in lanes 2 and 5 of lanes 0 to 7, and T = l + 1. -/
def ramp : State :=
  let s := machine ((List.range 8).map fun l => (at_ 3 l, BitVec.ofNat 32 (l + 1))) 0xFF
  { s with waves := [(0, { s.wave 0 with ctx := { (s.wave 0).ctx with guards := [(2, 0xDB)] } })] }
theorem test_prefix :
    ([0, 1, 3, 4, 6, 7].map fun l => waiting (exec (.xlPreAdd ⟨false, 2⟩ (.main 3)) ramp) (portVec .xl .res) l) = [1, 3, 7, 12, 19, 27] ∧
      waiting (exec (.xlPreAdd ⟨false, 2⟩ (.main 3)) ramp) (portVec .xl .hi) 0 = 0xDB := by decide
theorem test_sum : waiting (exec (.xlSum ⟨false, 2⟩ (.main 3)) ramp) (portVec .xl .res) 7 = 27 := by decide
/-- R198: rotating by one within segments of eight; lane 7 takes lane 0. -/
def spun : State := machine (((List.range 8).map fun l => (at_ 5 l, 0x201#32)) ++ (List.range 8).map fun l => (at_ (latchVec .xl .o1) l, BitVec.ofNat 32 (100 + l))) 0xFF
theorem test_take_rot : ([0, 6, 7].map fun l => waiting (exec (.xlTakeRot on m5) spun) (portVec .xl .res) l) = [101, 107, 100] := by decide
theorem test_take_sh : ([0, 7].map fun l => waiting (exec (.xlTakeSh on m5) spun) (portVec .xl .hi) l) = [1, 0] := by decide

/-! Control. -/

/-- The outcome of a lane after a step. -/
def outcome (o : Host.Outcome State Fault Refusal) (l : Nat) : Option Dword := (((after o).cur.bind fun c => Map.find? c.outs l).bind id).map (·.1)
/-- R177: the target is relative to the bundle, the return address to the target. -/
theorem test_call : outcome (exec (.ctCall on m5) (given .ct 0 0 0x100)) 0 = some 0x10100 ∧ res .ct (.ctCall on m5) (given .ct 0 0 0x100) = 0xFFFFFF08 := by decide
theorem test_branch_misaligned : tstate (.ctBr on m5) (given .ct 0 0 2) = 0x806 ∧ tstate (.ctBr on m5) (given .ct 0 0 4) = 0 := by decide
theorem test_jmp_each_lane : outcome (exec (.ctJmp on m5) (machine [(at_ 5 0, 8), (at_ 5 1, 0xFFFFFFFC)] 3)) 1 = some 0xFFFC := by decide
/-- R193: a limit at the maximum is always met. -/
theorem test_wait : ((after (exec (.ctWait on m5) (given .ct 0 0 0x7FFFF))).cur.map (·.hold)) = some (.counters 31 63 15 15) := by decide
/-- R182: leaving a loop where there is none raises STACK. -/
theorem test_lbrk_empty : tstate (.ctLbrk on m5) (given .ct 0 0 1) = 0x811 := by decide

/-! Guards, registers and latches. -/

theorem test_guard_write : ((after (exec (.moveLf on (.guard 3) m5) (given .ia 0 0 7))).wave 0).ctx.guard 3 0 = true ∧
    ((after (exec (.moveLf on (.guard 0) m5) (given .ia 0 0 0))).wave 0).ctx.guard 0 0 = true := by decide
theorem test_base_half : ((after (exec (.moveLf on (.baseHi 15) m5) (given .ia 0 0 7))).wave 0).ctx.baseReg 15 = 0x700000000 := by decide
theorem test_guarded_off : (after (exec (.moveM0 ⟨true, 0⟩ 9 m5) (given .ia 0 0 7))).wave 0 = (given .ia 0 0 7).wave 0 := by decide
theorem test_register_write : ((after (exec (.moveM1 on 63 m5) (given .ia 0 0 7))).wave 0).ctx.reg 191 0 = 7 := by decide
theorem test_latch_wide : ((after (exec (.latchWrite on .ls .o1 (.imm 8191)) (given .ia 0 0 7))).wave 0).ctx.latch .ls .o1 0 = 0xFFFFFFFFFFFFFFFF := by decide

/-! Memory: the scratchpad of a team of 128 bytes, and a page at VA and PA 0x10000. -/

def team : Team := { programTeam with scratch := 128, bytes := [(4, 0x78), (5, 0x56), (6, 0x34), (7, 0x12)] }
def scratch (u : FuncUnit) (a b c : Word) : State := { given u a b c with teams := [(0, team)], cores := [(0, { Core.reset with tlb := [programPage] })] }
theorem test_scratch_bounds : tstate (.spLdW on m5) (scratch .sp 128 0 0) = 0x807 ∧ ((after (exec (.spLdW on m5) (scratch .sp 124 0 0))).wave 0).accs.length = 1 := by decide
theorem test_scratch_aligned : tstate (.spLdH on m5) (scratch .sp 5 0 0) = 0x806 := by decide
/-- R169: a load without bank conflicts takes its values after 20 cycles. -/
theorem test_scratch_latency : (after (exec (.spLdW on m5) (scratch .sp 4 0 0))).agenda.map (·.1) = [20] ∧ ((after (exec (.spLdW on m5) (scratch .sp 4 0 0))).wave 0).ctx.spFifo.length = 1 := by decide
theorem test_load_misaligned : tstate (.lsLdW on m5) (scratch .ls 0x10002 0 0) = 0x806 := by decide
theorem test_load_starts : ((after (exec (.lsLdW on m5) (scratch .ls 0x10000 0 4))).wave 0).accs.map (fun p => Map.get 0 p.2.pa 0) = [0x10004] := by decide
theorem test_policy : ((after (exec (.lsPol on m5) (scratch .ls 0 0 5))).wave 0).ctx.pol = 5 := by decide
theorem test_byte_order : Memory.read (Memory.writeAll [] 0x100 (toBytes 4 0x11223344)) 0x100 = 0x44 ∧ ofBytes (Memory.readAll (Memory.writeAll [] 0x100 (toBytes 4 0x11223344)) 0x102 2) = 0x1122 := by decide
theorem test_canonical : Memory.write (Memory.write [] 7 5) 7 0 = [] ∧ Memory.wf [(3, 1), (3, 2)] = false ∧ Memory.wf [(3, 0)] = false := by decide

/-! Queue, engine, matrix and system operations. -/

theorem test_handle_reserved : tstate (.quAvail on m5) (given .qu 0 0 0x80000000) = 0x812 := by decide
theorem test_tsnow : res .qu (.quTsnow on m5) { given .qu 0 0 0 with time := 0x500000007 } = 7 ∧ st .qu (.quTsnow on m5) { given .qu 0 0 0 with time := 0x500000007 } = 5 := by decide
theorem test_unbind : (after (exec (.quUnbind on m5) (given .qu 0 0 2))).agenda.map (·.1) = [4] := by decide
theorem test_matrix_baton : tstate (.mxZero on m5) (given .mx 0 0 0) = 0x80B ∧ (after (exec (.mxReq on m5) (given .mx 0 0 0))).agenda.map (fun p => p.2.1) = [.batonGrant, .agingPromotion] := by decide
/-- R264: special register 0 answers after 4 cycles; a privileged operation without SUP traps. -/
theorem test_rdsr : (after (exec (.syRdsr on m5) (given .sy 0 0 0))).agenda.map (·.1) = [4] := by decide
theorem test_privilege : tstate (.sySret on m5) (given .sy 0 0 0) = 0x802 := by decide
theorem test_fill_bounds : tstate (.enFill on m5) (given .en 0 0 0) = 0x807 := by decide

/-! Events. -/

theorem test_result_ready :
    let s := after (exec (.iaAdd on .a m5) (given .ia 40 0 2))
    let t := after (exec .resultReady { s with ev := [0, 1] })
    (s.wave 0).ctx.reg (portVec .ia .res) 0 = 0 ∧ (t.wave 0).ctx.reg (portVec .ia .res) 0 = 42 := by decide
theorem test_featack_once : (after (exec .featack { State.reset with ev := [0x1005] })).featack = 5 ∧ (after (exec .featack { State.reset with ev := [1], featSet := true })).featack = 0 := by decide
theorem test_window_clash : (after (exec .mwlim { State.reset with ev := [0, 0, 0x20000] })).partOf 0x30000 = none := by decide
theorem test_supply : (after (exec .supplySag { State.reset with ev := [80] })).stretch = 3 ∧ (after (exec .supplySag { State.reset with ev := [29] })).stretch = 0 := by decide
theorem test_hot : (after (exec .temperatureSensor { State.reset with ev := [3, 105] })).level = 3 ∧ (after (exec .temperatureSensor { State.reset with ev := [3, 115] })).stopped = true := by decide
theorem test_stopped : step { State.reset with stopped := true } = .fault .packageStopped := rfl
/-- The first step after reset is the cold start (R420). -/
theorem test_first_step : (after (step State.reset)).agenda.map (fun p => (p.2.1, p.2.2)) = [(.coldStart, [1])] := by decide
/-- A word placed by withFetchWord is what the next step runs: m5 → m9 with m5 = 0 ends its bundle and sends the fragment to the next one. -/
theorem test_fetch_word : (after (step (State.reset.withFetchWord 32 0x00090000))).cur = none ∧
    ((after (step (State.reset.withFetchWord 32 0x00090000))).wave 0).ctx.seqs.map (fun p => p.2.pc) = [0x10010] := by decide +kernel

/-! Witnesses: for every statement with hypotheses, a state and operands that meet them together, and for a statement of several clauses the
conditions of its clauses. -/

/-- What a move of the bundle in progress acts on. -/
def inputs (s : State) (gd : Guard) (src : Src) : MoveIn :=
  let c := s.cur.getD (Issue.start 0 0 0 0 (cap 0) [])
  let x := s.wave c.wave
  { c := c, x := x, en := slotEn c x gd, t := s.slotSrc c x src }
/-- The inputs of an unguarded move from m5. -/
def inp (s : State) : MoveIn := inputs s on m5
/-- It issues, in an enabled lane that is no shadow. -/
def Runs (s : State) : Prop := s.Issues on m5 (inp s) ∧ (inp s).en ≠ 0 ∧ (inp s).real ≠ 0
def off : Guard := ⟨true, 0⟩
/-- Lanes 0 and 16 of a shadow pair, and guard g1 set in the shadow lane alone. -/
def paired : State :=
  let s := machine [(at_ 5 0, 7), (at_ 5 16, 9)] 1
  let x := s.wave 0
  { s with waves := [(0, { x with ctx := { x.ctx with wstat := 8, vac := 0xFFFF0000, guards := [(1, 0x10000)] } })] }

theorem witness_DecodeAndEncodeAgree : (Instr.iaAdd on .a m5).wellFormed = true ∧ encode (.iaAdd on .a m5) = some 0x01C00005 ∧ decodeMove 0x01C00005 = .ok (.iaAdd on .a m5) :=
  ⟨by decide, by decide, rfl⟩
theorem witness_HeadersAndReservedEncodings : (∃ h, decodeHeader 0x00400000 = .ok h) ∧ (∃ e, decodeHeader 1 = .error e) ∧ (∃ e, decodeMove 0x0B800000 = .error e) := ⟨⟨_, rfl⟩, ⟨_, rfl⟩, ⟨_, rfl⟩⟩
/-- A program's first bundle: m5 → m9. -/
def placed : State := State.reset.withFetchWord 32 0x00090005
theorem witness_StepOrder :
    (({ State.reset with stopped := true } : State).stopped = true ∧ State.reset.stopped = false ∧ State.reset.agendaDue = some (.coldStart, [], [])) ∧
    (placed.stopped = false ∧ placed.agendaDue = none ∧ (placed.due.map (·.1)) = some .bundleIssue) ∧
    ({ State.reset with agenda := [] } : State).stopped = false ∧ ({ State.reset with agenda := [] } : State).agendaDue = none ∧ ({ State.reset with agenda := [] } : State).due = none :=
  ⟨⟨rfl, rfl, rfl⟩, ⟨rfl, by decide +kernel, by decide +kernel⟩, rfl, by decide, by decide +kernel⟩
theorem witness_AlwaysNext : State.reset.stopped = false := rfl
/-- Whether BUNDLE_ISSUE of fragment 0 of wave 0 meets what IssueRunsTheBundle asks. -/
def plainIssue (s : State) : Bool :=
  match s.wave? 0 with
  | none => false
  | some x => match Map.find? x.ctx.seqs 0 with
    | none => false
    | some g => match s.nextBundle 0 g with
      | .bundle b => decide (s.parksAt 0 0 = none) && g.part.isNone && decide (b.extra = 0) && b.bads.isEmpty && !b.head.region && !b.marks && x.trap.isNone && (x.win.isSome || !x.mayOpen || decide ((accessesOf (triggersOf x.ctx (s.liveMoves x g b))).length ≤ if x.unperformed then 0 else 1)) &&
        (let cap := s.captureOf 0 0 x g b
         let s1 := (s.popReads 0 (s.liveMoves x g b)).modSeq 0 0 fun g => { g with hold := .none }
         let s2 := (s1.modCtx 0 Ctx.releaseWaits).modSeq 0 0 fun g => { g with part := some { cap := cap, first := 0, pages := [], due := s1.now } }
         let capEn := { cap with en := cap.en.map fun ((k, m) : Nat × Mask) => (k, m &&& (~~~(s1.wave 0).ctx.vac ||| (s1.wave 0).ctx.shadows)) }
         match runSlots (b.order 0 b.head.nmov.val) { s2 with cur := some (Issue.start 0 0 0 b.head.nmov.val capEn []) } with
         | .done t => (t.cur.bind (·.after)).isNone
         | _ => false)
      | _ => false
theorem witness_IssueRunsTheBundle : plainIssue { placed with ev := [0, 0, 0] } = true := by decide +kernel
/-- The words of a bundle of a header and one move. -/
theorem witness_BundleRunsDecodedMoves : (∃ ws, placed.bundleWords 0 [] 0x10000 = .ok ws ∧ ws[1]? = some 0x00090005) ∧ plainIssue placed = true ∧
    (∃ b, parseBundle 0 [0x00400000, 0x00090005] = some b) ∧ (moveFields (.moveM0 on 9 m5)).isSome = true ∧
    ∃ t, runSlots [(0, .moveM0 on 9 m5)] (given .ia 0 0 7) = .done t := ⟨⟨_, rfl, rfl⟩, by decide +kernel, ⟨_, rfl⟩, rfl, _, rfl⟩
theorem witness_SourceValues : ((given .ia 0 0 0).wave 0).ctx.shadows.getLsbD 0 = false ∧ ((0x400 : Word).getLsbD 10 = true) := by decide
theorem witness_EnabledLanes : Map.find? (inp paired).c.cap.en (inp paired).c.slot = none ∧ (slotEn (inp paired).c (inp paired).x on) = 0x10001 := by decide
theorem witness_NoEnabledLane :
    ((given .ia 0 0 0).Issues off m5 (inputs (given .ia 0 0 0) off m5) ∧ (inputs (given .ia 0 0 0) off m5).en = 0 ∧ moveGuard (.iaAdd off .a m5) = some off) ∧
    paired.Issues ⟨false, 1⟩ m5 (inputs paired ⟨false, 1⟩ m5) ∧ (inputs paired ⟨false, 1⟩ m5).en = 0x10000 ∧ (inputs paired ⟨false, 1⟩ m5).real = 0 ∧
    (Instr.xlSum ⟨false, 1⟩ m5).wellFormed = true ∧ moveSource (.xlSum ⟨false, 1⟩ m5) = some m5 :=
  ⟨⟨⟨rfl, rfl, rfl, rfl⟩, by decide, rfl⟩, ⟨rfl, rfl, rfl, rfl⟩, by decide, by decide, by decide, rfl⟩
theorem witness_MovesToRegisters : Runs (given .ia 0 0 7) := ⟨⟨rfl, rfl, rfl, rfl⟩, by decide, by decide⟩
theorem witness_MovesToGuardsAndBases : Runs (given .ia 0 0 7) ∧ paired.Issues ⟨false, 1⟩ m5 (inputs paired ⟨false, 1⟩ m5) ∧ (inputs paired ⟨false, 1⟩ m5).real = 0 :=
  ⟨⟨⟨rfl, rfl, rfl, rfl⟩, by decide, by decide⟩, ⟨rfl, rfl, rfl, rfl⟩, by decide⟩
theorem witness_LatchWrites : Runs (given .ia 0 0 7) ∧ hasLatch .ia .o3 = false ∧ hasLatch .ia .o1 = true ∧ uniformUnit .ia = false ∧ hasLatch .qu .o1 = true ∧ uniformUnit .qu = true ∧
    paired.Issues ⟨false, 1⟩ m5 (inputs paired ⟨false, 1⟩ m5) ∧ (inputs paired ⟨false, 1⟩ m5).real = 0 :=
  ⟨⟨⟨rfl, rfl, rfl, rfl⟩, by decide, by decide⟩, by decide, by decide, by decide, by decide, by decide, ⟨rfl, rfl, rfl, rfl⟩, by decide⟩
theorem witness_ResultsArrive : (given .ia 0 0 7).wave? 0 = some ((given .ia 0 0 7).wave 0) ∧ ∀ p ∈ [PortNo.res, .hi], p ∈ portsOf .ia := ⟨rfl, by decide⟩
theorem witness_LaneOperationFrame : Runs (given .ia 40 0 2) ∧ moveFields (.iaAdd on .a m5) = some ⟨on, 3, 2, 0, m5⟩ ∧ unitOf 3 = some .ia ∧ pureOp .ia 0 = true ∧
    ∃ t, exec (.iaAdd on .a m5) (given .ia 40 0 2) = .next t := ⟨⟨⟨rfl, rfl, rfl, rfl⟩, by decide, by decide⟩, rfl, rfl, rfl, _, rfl⟩
theorem witness_IntegerOperations : Runs (given .ia 0xFFFFFFFF 1 1) ∧ Runs (given .ib 0x80000000 1 1) :=
  ⟨⟨⟨rfl, rfl, rfl, rfl⟩, by decide, by decide⟩, ⟨rfl, rfl, rfl, rfl⟩, by decide, by decide⟩
/-- Both kinds of divisor, and the quotients of the greatest and of no significant bits. -/
theorem witness_MultipliesAndDivides : Runs (given .ma 5 0 0) ∧ (inp (given .ma 5 0 0)).tw 0 = 0 ∧ Runs (given .ma 0x80000000 0 0xFFFFFFFF) ∧
    (inp (given .ma 0x80000000 0 0xFFFFFFFF)).tw 0 ≠ 0 ∧ Runs (given .mb 0 0 1) :=
  ⟨⟨⟨rfl, rfl, rfl, rfl⟩, by decide, by decide⟩, by decide, ⟨⟨rfl, rfl, rfl, rfl⟩, by decide, by decide⟩, by decide, ⟨rfl, rfl, rfl, rfl⟩, by decide, by decide⟩
theorem witness_ShiftsAndFields : Runs (given .sa 0x800000F0 3 32) ∧ Runs (given .sb 1 2 0xFFFFFFFF) :=
  ⟨⟨⟨rfl, rfl, rfl, rfl⟩, by decide, by decide⟩, ⟨rfl, rfl, rfl, rfl⟩, by decide, by decide⟩
theorem witness_Checks : Runs (given .ck 1 0 2) ∧ (inp (given .ck 1 0 2)).latchW .ck .o1 0 ≠ (inp (given .ck 1 0 2)).tw 0 ∧
    Runs (given .ck 2 0 2) ∧ (inp (given .ck 2 0 2)).latchW .ck .o1 0 = (inp (given .ck 2 0 2)).tw 0 :=
  ⟨⟨⟨rfl, rfl, rfl, rfl⟩, by decide, by decide⟩, by decide, ⟨⟨rfl, rfl, rfl, rfl⟩, by decide, by decide⟩, by decide⟩
theorem witness_FloatArithmetic : Runs (given .fa 0x3F800000 0x7F800000 0x80000000) ∧ Runs (given .fb 0x7FC00000 0 0) :=
  ⟨⟨⟨rfl, rfl, rfl, rfl⟩, by decide, by decide⟩, ⟨rfl, rfl, rfl, rfl⟩, by decide, by decide⟩
theorem witness_FloatSelection : Runs (given .fa 0x80000000 0 0) ∧ Runs (given .fb 0x7F800001 0 1) :=
  ⟨⟨⟨rfl, rfl, rfl, rfl⟩, by decide, by decide⟩, ⟨rfl, rfl, rfl, rfl⟩, by decide, by decide⟩
theorem witness_RoundingIsCorrect : (0 < 3 ∧ 0 < 1) ∧ (cvtDn (.fin ⟨false, 1, 3⟩) .fp32 .rne false).ovf = false ∧ (cvtDn (.fin ⟨true, 1, 3⟩) .fp32 .rtz false).inx = true := by decide
/-- The special cases of R139 at their inputs: 0, an infinity, a negative number, one, an exact power. -/
theorem witness_SpecialFunctions : Runs (given .xf 0x3F800000 0 0x80000000) ∧ isNan 0x80000000 = false ∧ isNan 0x7FC00000 = true ∧
    ofFp32 0x41200000 = .fin ⟨false, 10 * 2 ^ 20, 2 ^ 20⟩ :=
  ⟨⟨⟨rfl, rfl, rfl, rfl⟩, by decide, by decide⟩, by decide, by decide, by decide⟩
/-- A launch whose slot 1 has formats of one width and whose slot 0 has formats of two. -/
theorem witness_Conversions : Runs (sloted 0x38304038 0 1) ∧ (FmtSlot.ofBits 0x131833).afmt.width = (FmtSlot.ofBits 0x131833).bfmt.width ∧
    (FmtSlot.ofBits 0x30).afmt.width ≠ (FmtSlot.ofBits 0x30).bfmt.width ∧ Runs (given .cx 0x12345 0 0xFFFFFFFF) :=
  ⟨⟨⟨rfl, rfl, rfl, rfl⟩, by decide, by decide⟩, by decide, by decide, ⟨rfl, rfl, rfl, rfl⟩, by decide, by decide⟩
theorem witness_Takes : Runs spun := ⟨⟨rfl, rfl, rfl, rfl⟩, by decide, by decide⟩
theorem witness_Reductions : ramp.Issues ⟨false, 2⟩ m5 (inputs ramp ⟨false, 2⟩ m5) ∧ (inputs ramp ⟨false, 2⟩ m5).real = 0xDB := ⟨⟨rfl, rfl, rfl, rfl⟩, by decide⟩

/-! Witnesses: memory, control, queue, engine, matrix and system operations. -/

/-- An ls access of lane 0 at address a with offset T and o2. -/
def lsAt (a b c : Word) : State := scratch .ls a b c
/-- The lane-0 translation of an address. -/
def xlate0 (s : State) (a : Dword) : Option Xlate := s.laneXlate (inp s).c (inp s).x 0 a
/-- Another page in the core TLB. -/
def paged (p : Page) : State := { lsAt 0x10000 0 0 with cores := [(0, { Core.reset with tlb := [p] })] }
/-- A shadow pair whose addresses differ. -/
def pairedLs : State := { paired with waves := paired.waves.map fun p => (p.1, { p.2 with ctx := { p.2.ctx with vec := [(at_ 5 0, 7), (at_ 5 16, 9)] } }) }
/-- In turn: mismatch; misaligned; page not known; page claimed or under a flip; fault; pool; protection; and no fault at all. -/
theorem witness_LsFaults :
    Runs pairedLs ∧ lsMismatch (inp pairedLs) (.store 4) ≠ 0 ∧ ((.lsStW on m5, .store 4) ∈ lsForms on m5) ∧ ((.lsLdW on m5, .load 4 false) ∈ lsForms on m5) ∧
    (Runs (lsAt 0x10002 0 0) ∧ lsMismatch (inp (lsAt 0x10002 0 0)) (.load 4 false) = 0 ∧ realWhere (inp (lsAt 0x10002 0 0)) (fun l => decide ((accAddr (inp (lsAt 0x10002 0 0)) (.load 4 false) l).toNat % 4 ≠ 0)) = 1) ∧
    (Runs (lsAt 0x20000 0 0) ∧ xlate0 (lsAt 0x20000 0 0) 0x20000 = none) ∧
    (Runs (paged { programPage with flip := true }) ∧ xlate0 (paged { programPage with flip := true }) 0x10000 = some (.page { programPage with flip := true })) ∧
    (Runs (lsAt 0x10000 0 0) ∧ xlate0 (lsAt 0x10000 0 0) 0x8000000000000000 = some .fault) ∧
    Runs (paged { programPage with r := false }) ∧ accPermits (.load 4 false) { programPage with r := false } false = false ∧ accPermits (.store 4) { programPage with coh := 3 } false = false :=
  ⟨⟨⟨rfl, rfl, rfl, rfl⟩, by decide, by decide⟩, by decide, by decide, by decide, ⟨⟨⟨rfl, rfl, rfl, rfl⟩, by decide, by decide⟩, by decide, by decide⟩,
   ⟨⟨⟨rfl, rfl, rfl, rfl⟩, by decide, by decide⟩, by decide⟩, ⟨⟨⟨rfl, rfl, rfl, rfl⟩, by decide, by decide⟩, by decide⟩,
   ⟨⟨⟨rfl, rfl, rfl, rfl⟩, by decide, by decide⟩, by decide⟩, ⟨⟨rfl, rfl, rfl, rfl⟩, by decide, by decide⟩, by decide, by decide⟩
/-- A load and a store at the last word of a page. -/
theorem witness_LsStarts : Runs (lsAt 0x10000 0 0xFFFC) ∧
    (∀ k ∈ [AccKind.load 4 false, .store 4, .atomic 9, .cwb], lsMismatch (inp (lsAt 0x10000 0xFFFC 0xFFFC)) k = 0 ∧
      ∀ l < 32, (inp (lsAt 0x10000 0xFFFC 0xFFFC)).real.getLsbD l = true → (accAddr (inp (lsAt 0x10000 0xFFFC 0xFFFC)) k l).toNat % accAlign k = 0 ∧
        xlate0 (lsAt 0x10000 0xFFFC 0xFFFC) (accAddr (inp (lsAt 0x10000 0xFFFC 0xFFFC)) k l) = some (.page programPage) ∧ accPermits k programPage false = true) ∧
    programPage.flip = false ∧ (let m := inp (lsAt 0x10000 0 0xFFFC)
      (lsAt 0x10000 0 0xFFFC).slotsFree 0 (groupLines (lanesOf m.real) fun l => (lsAt 0x10000 0 0xFFFC).lineUse programPage 0x1FFFC l) = true) ∧ (inp (lsAt 0x10000 0 0xFFFC)).x.accs = [] :=
  ⟨⟨⟨rfl, rfl, rfl, rfl⟩, by decide, by decide⟩, by decide, rfl, by decide, rfl⟩
theorem witness_LsOthers : Runs (lsAt 0x10000 0 0) ∧ ∀ k < 128, ∀ e ∈ Map.get [] ((lsAt 0x10000 0 0).core 0).l1 k, e.spec = [] := ⟨⟨⟨rfl, rfl, rfl, rfl⟩, by decide, by decide⟩, by decide⟩
/-- The last word of 128 bytes; one past it; an odd half-word; and a pair that differs. -/
theorem witness_Scratchpad : Runs (scratch .sp 124 0 0) ∧ ((.spLdW on m5, .load 4 false) ∈ spForms on m5) ∧
    (spOffset (inp (scratch .sp 124 0 0)) (.load 4 false) 0 = 124 ∧ spMismatch (inp (scratch .sp 124 0 0)) (.load 4 false) = 0) ∧
    spOffset (inp (scratch .sp 125 0 0)) (.load 4 false) 0 = 125 ∧ spOffset (inp (scratch .sp 5 0 0)) (.load 2 false) 0 % 2 = 1 ∧ Runs pairedLs ∧ spMismatch (inp pairedLs) (.store 4) ≠ 0 :=
  ⟨⟨⟨rfl, rfl, rfl, rfl⟩, by decide, by decide⟩, by decide, ⟨by decide, by decide⟩, by decide, by decide, ⟨⟨rfl, rfl, rfl, rfl⟩, by decide, by decide⟩, by decide⟩
theorem witness_Branches : Runs (given .ct 0 0 4) ∧ Runs (given .ct 0 0 2) ∧ (shadowMismatch (inp (given .ct 0 0 4)) fun l => [ctTarget (inp (given .ct 0 0 4)) l]) = 0 ∧
    (ctTarget (inp (given .ct 0 0 4)) 0).toNat % 4 = 0 ∧ (ctTarget (inp (given .ct 0 0 2)) 0).toNat % 4 ≠ 0 ∧ Runs paired ∧ (shadowMismatch (inp paired) fun l => [ctTarget (inp paired) l]) ≠ 0 :=
  ⟨⟨⟨rfl, rfl, rfl, rfl⟩, by decide, by decide⟩, ⟨⟨rfl, rfl, rfl, rfl⟩, by decide, by decide⟩, by decide, by decide, by decide, ⟨⟨rfl, rfl, rfl, rfl⟩, by decide, by decide⟩, by decide⟩
/-- A wave that leaves with a live accumulator, one that leaves without, and a pair of which one lane exits. -/
def oneExits : State := { paired with waves := paired.waves.map fun p => (p.1, { p.2 with ctx := { p.2.ctx with guards := [(1, 1)] } }) }
def holding : State := { given .mx 0 0 0 with clovers := [(0, { Clover.reset with baton := some (0, 0, 0) })], waves := [(0, { (given .mx 0 0 0).wave 0 with ctx := { ((given .mx 0 0 0).wave 0).ctx with vac := 0xFFFFFFFE } })] }
def holdingLive : State := { holding with clovers := [(0, { Clover.reset with baton := some (0, 0, 0), live := [2] })] }
theorem witness_Exits : Runs (given .ct 0 0 0) ∧ (∃ l < 32, ((inp (given .ct 0 0 0)).x.ctx.vac.getLsbD l = false ∧ (inp (given .ct 0 0 0)).real.getLsbD l = false)) ∧
    Runs holdingLive ∧ (∀ l < 32, (inp holdingLive).x.ctx.vac.getLsbD l = true ∨ (inp holdingLive).real.getLsbD l = true) ∧ (holdingLive.clover 0).live ≠ [] ∧
    oneExits.Issues ⟨false, 1⟩ m5 (inputs oneExits ⟨false, 1⟩ m5) ∧ (inputs oneExits ⟨false, 1⟩ m5).real ≠ 0 ∧ shadowMismatch (inputs oneExits ⟨false, 1⟩ m5) (fun _ => []) ≠ 0 :=
  ⟨⟨⟨rfl, rfl, rfl, rfl⟩, by decide, by decide⟩, by decide, ⟨⟨rfl, rfl, rfl, rfl⟩, by decide, by decide⟩, by decide, by decide, ⟨rfl, rfl, rfl, rfl⟩, by decide, by decide⟩
/-- END after the bundle, with COUNT 0, 1, and with six levels open; END at the bundle; leaving 0, 1 and 2 levels of one. -/
def loopAt (n : Nat) (count c : Word) : State :=
  let s := given .ct count 0 c
  let lv : Level := { start := 0x10000, fin := 0x10040, count := 3, index := 0 }
  { s with waves := [(0, { s.wave 0 with ctx := { (s.wave 0).ctx with seqs := [(0, { Seq.start 0x10000 1 0 with loops := List.replicate n lv })] } })],
           cores := [(0, { Core.reset with tlb := [programPage] })] }
theorem witness_Loops : Runs (loopAt 0 1 8) ∧ ctTarget (inp (loopAt 0 1 8)) 0 = ctNext (inp (loopAt 0 1 8)) ∧ Runs (loopAt 0 0 8) ∧ (loopAt 0 0 8).coreXlate (inp (loopAt 0 0 8)).c (inp (loopAt 0 0 8)).x 0x10008 = some (.page programPage) ∧
    Runs (loopAt 6 1 8) ∧ (ctTarget (inp (loopAt 0 1 4)) 0).toNat < (ctNext (inp (loopAt 0 1 4))).toNat ∧ Runs (loopAt 1 0 1) ∧ ((loopAt 1 0 1).wave 0).ctx.seqs.map (fun p => p.2.loops.length) = [1] ∧
    (given .ct 0 0 8).coreXlate (inp (given .ct 0 0 8)).c (inp (given .ct 0 0 8)).x 0x10008 = none :=
  ⟨⟨⟨rfl, rfl, rfl, rfl⟩, by decide, by decide⟩, by decide, ⟨⟨rfl, rfl, rfl, rfl⟩, by decide, by decide⟩, by decide, ⟨⟨rfl, rfl, rfl, rfl⟩, by decide, by decide⟩, by decide,
   ⟨⟨rfl, rfl, rfl, rfl⟩, by decide, by decide⟩, by decide, by decide⟩
def yielding : State := { given .ct 0 0 0 with waves := [(0, { (given .ct 0 0 0).wave 0 with ctx := { ((given .ct 0 0 0).wave 0).ctx with wstat := 0x80 } })] }
theorem witness_WaitsAndTraps : Runs (given .ct 0 0 0xFFFFFFFF) ∧ (inp (given .ct 0 0 0)).x.ctx.wstat.getLsbD 7 = false ∧ Runs yielding ∧ (inp yielding).x.ctx.wstat.getLsbD 7 = true ∧
    (yielding.clover 0).baton = none := ⟨⟨⟨rfl, rfl, rfl, rfl⟩, by decide, by decide⟩, by decide, ⟨⟨rfl, rfl, rfl, rfl⟩, by decide, by decide⟩, by decide, rfl⟩
/-- An aligned entry and a misaligned one; records at multiples of 256 with and without the right, and one that is not. -/
def launcher : State := { given .ct 0 0 0x100 with parts := [(0, { Part.reset with psched := 8 })] }
theorem witness_SpawnAndLaunch : Runs (given .ct 0x10000 0 4) ∧ Runs (given .ct 0x10000 0 2) ∧ Runs launcher ∧ (launcher.part 0).psched.getLsbD 3 = true ∧
    Runs (given .ct 0 0 0x100) ∧ ((given .ct 0 0 0x100).part 0).psched.getLsbD 3 = false ∧ Runs (given .ct 0 0 0x180) :=
  ⟨⟨⟨rfl, rfl, rfl, rfl⟩, by decide, by decide⟩, ⟨⟨rfl, rfl, rfl, rfl⟩, by decide, by decide⟩, ⟨⟨rfl, rfl, rfl, rfl⟩, by decide, by decide⟩, by decide,
   ⟨⟨rfl, rfl, rfl, rfl⟩, by decide, by decide⟩, by decide, ⟨rfl, rfl, rfl, rfl⟩, by decide, by decide⟩
/-- A phase without and with an arrival, on barrier 3, and an abnormal one. -/
def arrived : State := { given .ct 0 0 3 with teams := [(0, { programTeam with arr := [(3, 1)], abn := [(0, 4)] })] }
theorem witness_Barriers : Runs (given .ct 0 0 3) ∧ (given .ct 0 0 3).team? (inp (given .ct 0 0 3)).x.team = some programTeam ∧ (inp (given .ct 0 0 3)).x.index < programTeam.waves ∧
    (inp (given .ct 0 0 3)).x.inject = [] ∧ Runs arrived ∧ (Map.get 0 ((arrived.team? 0).getD programTeam).arr 3) &&& (inp arrived).real ≠ 0 ∧ Map.get 0 ((arrived.team? 0).getD programTeam).abn 0 ≠ 0 :=
  ⟨⟨⟨rfl, rfl, rfl, rfl⟩, by decide, by decide⟩, rfl, by decide, rfl, ⟨⟨rfl, rfl, rfl, rfl⟩, by decide, by decide⟩, by decide, by decide⟩
/-- Counts of 0, 1, 32 and 33; a reserved handle; a scratchpad with and without room, and an offset that is not aligned. -/
def queued (n o1 o2 o3 : Word) : State := { scratch .qu o1 o2 n with waves := [(0, wave [(at_ 5 0, n), (at_ (latchVec .qu .o1) 0, o1), (at_ (latchVec .qu .o2) 0, o2), (at_ (latchVec .qu .o3) 0, o3)] 1)] }
theorem witness_QueueTriggers : Runs (queued 0 0 0 0) ∧ Runs (queued 33 0 0 0) ∧ Runs (queued 1 0 0x20000 0) ∧ (0x20000 % 2 ^ 32 * 2 ^ 32) / 2 ^ 49 ≠ 0 ∧
    Runs (queued 1 0 0 0) ∧ ((queued 1 0 0 0).formsAt 0 1 0).2 ≤ 128 ∧ Runs (queued 32 0 0 100) ∧ 128 < ((queued 32 0 0 100).formsAt 0 32 100).2 ∧ Runs (queued 1 0 0 2) ∧ ((queued 1 0 0 2).formsAt 0 1 2).2 ≤ 128 ∧
    ((queued 1 0 0 0).team? 0).map (·.scratch) = some 128 :=
  ⟨⟨⟨rfl, rfl, rfl, rfl⟩, by decide, by decide⟩, ⟨⟨rfl, rfl, rfl, rfl⟩, by decide, by decide⟩, ⟨⟨rfl, rfl, rfl, rfl⟩, by decide, by decide⟩, by decide,
   ⟨⟨rfl, rfl, rfl, rfl⟩, by decide, by decide⟩, by decide, ⟨⟨rfl, rfl, rfl, rfl⟩, by decide, by decide⟩, by decide, ⟨⟨rfl, rfl, rfl, rfl⟩, by decide, by decide⟩, by decide, rfl⟩
/-- A queue of partition 0 with 2^4 entries and its cached context, live, in its own partition; and a full one. -/
def qctx (claim : Word) : QCtx := { part := 0, index := 0, ring := 0, head := 0, tail := 0, claim := claim, pmap := 0, ctl := 0x104, allow := 0, dbase := [], used := 0 }
def queueAt (k : QuKind) (n : Nat) (claim : Word) : State :=
  { State.reset with ev := [7, 0], qops := [(7, { QuOp.blank with kind := k, count := n, wave := some 0 })], parts := [(0, { Part.reset with qtlen := 1 })],
                     dies := [(0, { Die.reset with qctx := [(qkey 0 0, qctx claim)] })] }
/-- In turn: an offline die, an index beyond QTLEN, a dead context, another generation's, one with room for a claim and one without; an answer; a refill. -/
def answering : State := { given .qu 0 0 0 with ev := [7], qops := [(7, { QuOp.blank with wave := some 0, lanes := 1 })] }
def refilling : State :=
  let s := given .qu 0 0 0
  { s with ev := [0, 2, 3, 0, 0], bound := [(0, 0, 0, 2)], dies := [(0, { Die.reset with qctx := [(qkey 0 0, qctx 0)] })],
           waves := [(0, { s.wave 0 with ctx := { (s.wave 0).ctx with heads := [(2, { handle := 0, spread := false, bound := true, stale := false, pos := 0, recs := [] })] } })] }
theorem witness_QueueEvents :
    ((queueAt .claim 32 0).ev = [7, 0] ∧ (Map.find? (queueAt .claim 32 0).qops 7).map (·.kind) = some .claim ∧ (queueAt .claim 32 0).queuesOffline 0 = false ∧ 0 < ((queueAt .claim 32 0).part 0).qtlen.toNat ∧
      Map.find? ((queueAt .claim 32 0).die 0).qctx (qkey 0 0) = some (qctx 0) ∧ ((qctx 0).ctl.getLsbD 8 = true) ∧ ((queueAt .claim 32 0).die 0).qctx.length < 1024) ∧
    (2 ^ ((qctx 0).ctl.toNat % 32) < ((qctx 0).claim - (qctx 0).head + BitVec.ofNat 32 17).toNat ∧ ¬2 ^ ((qctx 0).ctl.toNat % 32) < ((qctx 0).claim - (qctx 0).head + BitVec.ofNat 32 16).toNat) ∧
    (({ queueAt .claim 1 0 with dies := [(0, { Die.reset with failed := true })] } : State).queuesOffline 0 = true ∧ (({ queueAt .claim 1 0 with parts := [] } : State).part 0).qtlen.toNat ≤ 0) ∧
    (answering.ev = [7] ∧ (Map.find? answering.qops 7).map (fun o => (o.wave, o.unit, o.launch, o.cmd, o.door)) = some (some 0, .qu, none, none, false) ∧ answering.wave? 0 = some (answering.wave 0) ∧
      (∀ l < 32, (1 : Mask).getLsbD l = true → Map.get 0 (answering.wave 0).ctx.last (32 * unitCode .qu + l) = 0) ∧ (answering.wave 0).inject = []) ∧
    refilling.ev = [0, 2, 3, 0, 0] ∧ refilling.wave? 0 = some (refilling.wave 0) ∧ (refilling.wave 0).win = none ∧ (refilling.wave 0).trap = none ∧ (0, 0, 0, 2) ∈ refilling.bound ∧
      ((refilling.wave 0).ctx.head 2).bound = true ∧ (∀ e < 4, (Map.find? (refilling.die e).qctx (qkey 0 0)).isSome = true ↔ e = 0) := by
  refine ⟨⟨rfl, rfl, rfl, by decide, rfl, by decide, by decide⟩, by decide, by decide, ⟨rfl, rfl, rfl, by decide, rfl⟩, rfl, rfl, rfl, rfl, by decide, by decide, by decide⟩
/-- A copy that is accepted, one of overlapping ranges, a reserved flag; a descriptor inside, outside and unaligned. -/
def engine (o1 o2 t : Word) : State := { scratch .en o1 0 t with waves := [(0, wave [(at_ 5 0, t), (at_ (latchVec .en .o1) 0, o1), (at_ (latchVec .en .o2) 0, o2), (at_ (latchVec .en .o3) 0, 64)] 1)] }
theorem witness_EngineTriggers : Runs (engine 0x1000 0x2000 0) ∧ (∀ j < 64, ∀ k < 64, 0x1000 + j ≠ 0x2000 + k) ∧ Runs (engine 0x1000 0x103F 0) ∧ 0x1000 + 63 = 0x103F + 0 ∧ Runs (engine 0x1000 0x2000 0x80) ∧
    ((0x80 : Word).getLsbD 7 = true) ∧ Runs (engine 96 0 0) ∧ 96 + 32 ≤ team.scratch ∧ Runs (engine 97 0 0) ∧ team.scratch < 97 + 32 ∧ Runs (engine 48 0 0) ∧ 48 % 32 ≠ 0 ∧ (engine 96 0 0).team? 0 = some team :=
  ⟨⟨⟨rfl, rfl, rfl, rfl⟩, by decide, by decide⟩, by decide, ⟨⟨rfl, rfl, rfl, rfl⟩, by decide, by decide⟩, rfl, ⟨⟨rfl, rfl, rfl, rfl⟩, by decide, by decide⟩, by decide,
   ⟨⟨rfl, rfl, rfl, rfl⟩, by decide, by decide⟩, by decide, ⟨⟨rfl, rfl, rfl, rfl⟩, by decide, by decide⟩, by decide, ⟨⟨rfl, rfl, rfl, rfl⟩, by decide, by decide⟩, by decide, rfl⟩
theorem holds_holding (s : State) (h : (s.clover 0).baton = some (0, 0, 0)) (k : (inp s).w = 0) : holds s (inp s) := ⟨(0, 0), by rw [k]; exact h⟩
/-- A holder with T of 3, 4, 7 and 8, one with a live accumulator, one with a ret still to read, and a wave with a request in the table. -/
def hold (c : Clover) (v : Word) : State := { given .mx 0 0 v with clovers := [(0, { c with baton := some (0, 0, 0) })] }
def asks : State := { given .mx 0 0 2 with clovers := [(0, { Clover.reset with baton := some (1, 0, 0), table := [{ wave := 0, op := 0, lanes := 1, prio := 0, entered := 0, since := 0 }] })] }
def mxOp : MxOp := { wave := none, kind := 1, acc := 0, op := 0, lanes := 1, start := 9, vals := [], base := 0, slot := 0, ctl := 0, dstr := 0, scales := [], biases := [], check := none, cmd := 0, status := 0, chunks := 0, ovf := 0 }
theorem witness_BatonOperations :
    Runs (hold Clover.reset 3) ∧ holds (hold Clover.reset 3) (inp (hold Clover.reset 3)) ∧ ((hold Clover.reset 3).clover 0).live = [] ∧ ((hold Clover.reset 3).clover 0).ops = [] ∧
    Runs (hold Clover.reset 4) ∧ Runs (hold Clover.reset 7) ∧ Runs (hold Clover.reset 8) ∧ ((inp (hold Clover.reset 8)).tw (inp (hold Clover.reset 8)).low).toNat = 8 ∧
    (Runs (hold { Clover.reset with live := [1] } 0) ∧ ((hold { Clover.reset with live := [1] } 0).clover 0).live ≠ []) ∧
    (Runs (hold { Clover.reset with ops := [(1, mxOp)] } 0) ∧ ((1, mxOp) ∈ ((hold { Clover.reset with ops := [(1, mxOp)] } 0).clover 0).ops) ∧ mxOp.kind ≠ 0 ∧ (hold { Clover.reset with ops := [(1, mxOp)] } 0).now < mxOp.start) ∧
    (Runs (given .mx 0 0 3) ∧ ((given .mx 0 0 3).clover 0).baton = none ∧ ((given .mx 0 0 3).clover 0).table.length + ((given .mx 0 0 3).clover 0).waiting.length < 16) ∧
    Runs asks ∧ (asks.clover 0).baton = some (1, 0, 0) ∧ (((asks.clover 0).table ++ (asks.clover 0).waiting).any fun r => r.wave == (inp asks).w) = true :=
  ⟨⟨⟨rfl, rfl, rfl, rfl⟩, by decide, by decide⟩, holds_holding _ rfl rfl, rfl, rfl, ⟨⟨rfl, rfl, rfl, rfl⟩, by decide, by decide⟩, ⟨⟨rfl, rfl, rfl, rfl⟩, by decide, by decide⟩,
   ⟨⟨rfl, rfl, rfl, rfl⟩, by decide, by decide⟩, by decide, ⟨⟨⟨rfl, rfl, rfl, rfl⟩, by decide, by decide⟩, by decide⟩, ⟨⟨⟨rfl, rfl, rfl, rfl⟩, by decide, by decide⟩, by decide, by decide, by decide⟩,
   ⟨⟨⟨rfl, rfl, rfl, rfl⟩, by decide, by decide⟩, by decide, by decide⟩, ⟨⟨rfl, rfl, rfl, rfl⟩, by decide, by decide⟩, rfl, by decide⟩
/-- A matrix operation of lane 0: rows at offset a with stride b, columns at c of the B-store; slot 0 is INT8 in both operands unless `bits` says otherwise. -/
def matrix (a b c d : Word) (bits : Dword) (last : Option Nat) : State :=
  { scratch .mx a b d with
    waves := [(0, wave [(at_ 5 0, d), (at_ (latchVec .mx .o1) 0, a), (at_ (latchVec .mx .o2) 0, b), (at_ (latchVec .mx .o3) 0, c)] 1)]
    clovers := [(0, { Clover.reset with baton := some (0, 0, 0), lastMx := last })], launches := [(0, { programLaunch with lrec := { programRecord with fmt := [bits] } })] }
/-- E4M3 in both operands: accepted. Then: no baton; too early; a B-store offset that is not a multiple of 128; two widths; a row that ends past SCRATCH; an offset that is no multiple of 64. -/
theorem witness_MatrixMultiply :
    (Runs (matrix 64 0 0 7 0x33 none) ∧ holds (matrix 64 0 0 7 0x33 none) (inp (matrix 64 0 0 7 0x33 none)) ∧ (FmtSlot.ofBits 0x33).afmt = .e4m3 ∧ (FmtSlot.ofBits 0x33).bfmt = .e4m3 ∧ (FmtSlot.ofBits 0x33).scaled = false ∧
      realWhere (inp (matrix 64 0 0 7 0x33 none)) (fun r => decide (128 < 64 + r * 0 + 64)) = 0) ∧
    Runs (given .mx 0 0 0) ∧ (Runs (matrix 64 0 0 7 0x33 (some 0)) ∧ (matrix 64 0 0 7 0x33 (some 0)).now < 0 + 4) ∧ Runs (matrix 64 0 1 7 0x33 none) ∧ Runs (matrix 64 0 0 8 0x33 none) ∧
    (Runs (matrix 64 0 0 0 0x30 none) ∧ (FmtSlot.ofBits 0x30).afmt.width ≠ (FmtSlot.ofBits 0x30).bfmt.width) ∧ Runs (matrix 65 0 0 0 0x33 none) ∧ (Runs (matrix 63 0 0 0 0x33 none) ∧ 63 % 64 ≠ 0) ∧
    ¬sparseSound Clover.reset 0 8 :=
  ⟨⟨⟨⟨rfl, rfl, rfl, rfl⟩, by decide, by decide⟩, holds_holding _ rfl rfl, by decide, by decide, by decide, by decide⟩, ⟨⟨rfl, rfl, rfl, rfl⟩, by decide, by decide⟩,
   ⟨⟨⟨rfl, rfl, rfl, rfl⟩, by decide, by decide⟩, by decide⟩, ⟨⟨rfl, rfl, rfl, rfl⟩, by decide, by decide⟩, ⟨⟨rfl, rfl, rfl, rfl⟩, by decide, by decide⟩, ⟨⟨⟨rfl, rfl, rfl, rfl⟩, by decide, by decide⟩, by decide⟩,
   ⟨⟨rfl, rfl, rfl, rfl⟩, by decide, by decide⟩, ⟨⟨⟨rfl, rfl, rfl, rfl⟩, by decide, by decide⟩, by decide⟩, fun h => absurd (h 0 (by decide)).1 (by decide)⟩
/-- ret to base 128 and to 129; an epilogue whose descriptor is the zero bytes at 64, one past the end, one not aligned. -/
theorem witness_MatrixRetire :
    (Runs (hold Clover.reset 0x8003) ∧ holds (hold Clover.reset 0x8003) (inp (hold Clover.reset 0x8003)) ∧ ((inp (hold Clover.reset 0x8003)).tw 0).toNat / 256 % 256 = 128) ∧ Runs (hold Clover.reset 0x8103) ∧ Runs (given .mx 0 0 0) ∧
    (Runs (matrix 0 0 0 64 0 none) ∧ (matrix 0 0 0 64 0 none).scrRead 0 (64 + 12) 4 = 0 ∧ (matrix 0 0 0 64 0 none).scrRead 0 (64 + 24) 40 = 0 ∧ 64 + 64 ≤ team.scratch ∧ (matrix 0 0 0 64 0 none).scrRead 0 64 8 % 16 = 0) ∧
    Runs (matrix 0 0 0 65 0 none) ∧ Runs (matrix 0 0 0 32 0 none) ∧ (Runs (matrix 0 0 0 64 0 (some 0)) ∧ (matrix 0 0 0 64 0 (some 0)).now < 0 + 4) :=
  ⟨⟨⟨⟨rfl, rfl, rfl, rfl⟩, by decide, by decide⟩, holds_holding _ rfl rfl, by decide⟩, ⟨⟨rfl, rfl, rfl, rfl⟩, by decide, by decide⟩, ⟨⟨rfl, rfl, rfl, rfl⟩, by decide, by decide⟩,
   ⟨⟨⟨rfl, rfl, rfl, rfl⟩, by decide, by decide⟩, by decide, by decide, by decide, by decide⟩, ⟨⟨rfl, rfl, rfl, rfl⟩, by decide, by decide⟩, ⟨⟨rfl, rfl, rfl, rfl⟩, by decide, by decide⟩,
   ⟨⟨⟨rfl, rfl, rfl, rfl⟩, by decide, by decide⟩, by decide⟩⟩
theorem witness_SpecialRegisters : Runs (given .sy 0 0 0x12) ∧ specialRegister (given .sy 0 0 0x12) (inp (given .sy 0 0 0x12)) 0x12 = some 0 ∧ Runs (given .sy 0 0 7) ∧
    specialRegister (given .sy 0 0 7) (inp (given .sy 0 0 7)) 7 = none ∧ specialRegister (given .sy 0 0 7) (inp (given .sy 0 0 7)) 0xFF = none :=
  ⟨⟨⟨rfl, rfl, rfl, rfl⟩, by decide, by decide⟩, by decide, ⟨⟨rfl, rfl, rfl, rfl⟩, by decide, by decide⟩, rfl, rfl⟩
/-- A wave with SUP, and with the rights of `pcap`. -/
def super (pcap : Dword) (a b c : Word) : State :=
  let s := scratch .sy a b c
  { s with parts := [(0, { windowPart with pcap := pcap })], waves := s.waves.map fun p => (p.1, { p.2 with ctx := { p.2.ctx with wstat := 16 } }) }
theorem witness_SystemTriggers :
    (Runs (given .sy 0 0 0) ∧ (inp (given .sy 0 0 0)).x.ctx.wstat.getLsbD 4 = false) ∧ (Runs (super 0 0 0 0) ∧ ((super 0 0 0 0).part 0).pcap.getLsbD 0 = false) ∧
    (Runs (super 0x1F 0 0 3) ∧ (inp (super 0x1F 0 0 3)).x.ctx.wstat.getLsbD 4 = true ∧ ∀ b < 5, ((super 0x1F 0 0 3).part 0).pcap.getLsbD b = true) ∧ Runs (super 0x1F 0 0 4) ∧
    Runs (super 0x1F 0x10000 0 31) ∧ canonical (BitVec.ofNat 64 0x10000) = true ∧ Runs (super 0 0 0 96) ∧ 96 + 32 ≤ team.scratch ∧ Runs (super 0 0 0 97) ∧ Runs (super 0 0 0 48) ∧
    Runs (super 4 3 0 0) ∧ Runs (super 4 0x83 0 0) ∧ ([4, 6, 8, 11].contains (0x83 / 2 ^ 5 % 32)) = true ∧ Runs (super 4 1 0 0) ∧ Runs (super 4 0x100 0 0) ∧ Runs (super 0x18 15 255 0) :=
  ⟨⟨⟨⟨rfl, rfl, rfl, rfl⟩, by decide, by decide⟩, by decide⟩, ⟨⟨⟨rfl, rfl, rfl, rfl⟩, by decide, by decide⟩, by decide⟩, ⟨⟨⟨rfl, rfl, rfl, rfl⟩, by decide, by decide⟩, by decide, by decide⟩,
   ⟨⟨rfl, rfl, rfl, rfl⟩, by decide, by decide⟩, ⟨⟨rfl, rfl, rfl, rfl⟩, by decide, by decide⟩, by decide, ⟨⟨rfl, rfl, rfl, rfl⟩, by decide, by decide⟩, by decide,
   ⟨⟨rfl, rfl, rfl, rfl⟩, by decide, by decide⟩, ⟨⟨rfl, rfl, rfl, rfl⟩, by decide, by decide⟩, ⟨⟨rfl, rfl, rfl, rfl⟩, by decide, by decide⟩, ⟨⟨rfl, rfl, rfl, rfl⟩, by decide, by decide⟩, by decide,
   ⟨⟨rfl, rfl, rfl, rfl⟩, by decide, by decide⟩, ⟨⟨rfl, rfl, rfl, rfl⟩, by decide, by decide⟩, ⟨rfl, rfl, rfl, rfl⟩, by decide, by decide⟩
/-- An operation of sy that waits, a register at its limit and one past it, an armed checksum, a line, a wave, and the halves of a base. -/
def systemEvent (ev : List Nat) : State :=
  let s := given .sy 0 0 0
  { s with ev := ev, clovers := [(0, { Clover.reset with abft := [(1, { on := true, cs := [], csI := [], tau := [], kinds := [], bad := [], inject := [] })] })]
           waves := s.waves.map fun p => (p.1, { p.2 with pend := [(1, { unit := .sy, lanes := 1, vals := [], ports := [] })] }) }
/-- A cached context of a queue whose descriptor stands in a line under a lease. -/
def flushing : State := { queueAt .claim 1 0 with
  dies := [(0, { Die.reset with qctx := [(qkey 0 0, qctx 0)], tlb := [(1, [programPage])] })], parts := [(0, { windowPart with qtlen := 1, qtbase := 0x10000 })], lines := [(512, { Line.reset with lease := 9 })] }
theorem witness_SystemEffects :
    (systemEvent [0, 1, 1, 0, 1, 0x10000, 0]).ev = [0, 1, 1, 0, 1, 0x10000, 0] ∧
    ((systemEvent [0, 1, 4, 1, 0, 3, 2 ^ 20, 0]).wave? 0 = some ((systemEvent [0, 1, 4, 1, 0, 3, 2 ^ 20, 0]).wave 0) ∧ (Map.find? ((systemEvent [0, 1, 4, 1, 0, 3, 2 ^ 20, 0]).wave 0).pend 1).isSome = true ∧
      (∀ r < 9, (partWord ((systemEvent [0, 1, 4, 1, 0, r, 0, 0]).part 0) r).isSome = true) ∧ 2 ^ 20 ≤ 2 ^ 20 ∧ ¬2 ^ 20 + 1 ≤ 2 ^ 20) ∧
    (Map.find? ((systemEvent [0, 1, 3]).clover 0).abft 1).isSome = true ∧ (systemEvent [9]).ev = [9] ∧ (systemEvent [0, 4, 31]).wave? 0 = some ((systemEvent [0, 4, 31]).wave 0) ∧ ((systemEvent [0, 4, 31]).wave 0).inject.Nodup ∧
    (systemEvent [0, 2 ^ 20]).ev = [0, 2 ^ 20] ∧ (systemEvent [0, 1, 2 ^ 32 - 1]).ev = [0, 1, 2 ^ 32 - 1] ∧ (∀ d < 4, (State.reset.die d).qctx = []) ∧
    (State.reset.flushPartReady 0).1 = 0 ∧ (flushing.flushPartReady 0).1 = 17 ∧ ∀ d i c, Map.find? (State.reset.die d).qctx i = some c → i = qkey c.part c.index :=
  ⟨rfl, ⟨rfl, rfl, by decide, by decide, by decide⟩, rfl, rfl, rfl, by decide, rfl, rfl, by decide, by decide, by decide +kernel, fun d i c h => by simp [State.reset, State.die, Map.get, Map.find?, Die.reset] at h⟩
/-- A trap table at 0x10000 whose entry 15 names a handler at 0x4000 and whose entry 31 an area; traps: normal, in a window, in a handler, and a mismatch in a region. -/
def trapping (x : Wave → Wave) : State :=
  let s := given .ia 0 0 0
  { s with parts := [(0, { windowPart with ttbase := 0x10000 })], dies := [(0, { Die.reset with tlb := [(1, [programPage])] })], mem := [(0x10078, 1), (0x10079, 0x40), (0x100F9, 0x90)], waves := s.waves.map fun p => (p.1, x p.2) }
theorem witness_TrapEntry :
    ((trapping id).wave? 0 = some ((trapping id).wave 0) ∧ ((trapping id).wave 0).region.isSome = false ∧ ((trapping id).wave 0).win = none ∧ ((trapping id).wave 0).tstate.getLsbD 11 = false ∧
      (trapping id).trapEntry 0 15 = some 0x4001 ∧ ((trapping id).trapEntry 0 31) = some 0x9000 ∧ 0x4001 % 4 = 1 ∧ (trapping id).trapEntry 0 6 = some 0) ∧
    ((trapping fun x => { x with win := some { ckpt := x.ctx, firstOp := 1, logged := [], count := 0, read := [], abn := 0, inject := [], lastPage := [] } }).wave 0).win.isSome = true ∧
    ((trapping fun x => { x with tstate := 2048 }).wave 0).tstate.getLsbD 11 = true ∧
    (let x := (trapping fun x => { x with ctx := { x.ctx with wstat := 64 }, region := some { seqs := [], spill := [], join := [], guards := [], base := [], rm := false, pol := 0 } }).wave 0
     x.ctx.wstat.getLsbD 6 = true ∧ x.ctx.wstat.getLsbD 4 = false ∧ x.region.isSome = true) := by
  refine ⟨⟨rfl, rfl, rfl, rfl, by decide, by decide, rfl, by decide⟩, rfl, by decide, by decide, by decide, rfl⟩
/-- A handler that a trap at slot 2 entered; one that has moved TSLOT to 7; and no trap at all. -/
def handler (slot : Word) : Wave :=
  let x := (given .ia 0 0 0).wave 0
  { x with tstate := slot * 256 + 2048, ctx := { x.ctx with wstat := 16 }, trap := some { saved := x.ctx, seq := 0, cap := some (cap 1), logged := [], firstOp := 1 } }
theorem witness_TrapReturn : (∀ k ∈ [(2 : Word), 7], (({ State.reset with waves := [(0, handler k)] } : State).wave? 0 = some (handler k) ∧ ((handler k).trap.map (·.saved.join)) = some [] ∧
      (handler k).tstate.toNat / 256 % 8 = k.toNat)) ∧ ((Map.find? (handler 2).ctx.seqs 0).map (·.mask)) = some 1 ∧ (handler 2).ctx.vac = 0 ∧ ((given .ia 0 0 0).wave 0).trap = none := by
  refine ⟨fun k h => ?_, rfl, rfl, rfl⟩
  simp only [List.mem_cons, List.not_mem_nil, or_false] at h
  obtain rfl | rfl := h <;> exact ⟨rfl, rfl, by decide⟩
/-- A scratch window of 128 bytes at PA 0x40000. -/
def windowed : State := { State.reset with teams := [(0, { team with window := [(0x40000, 0, 128)] })] }
theorem witness_MemoryLaws : Memory.wf [(5, 1)] = true ∧ (∀ i < 4, windowed.scratchAt (0x3FFFC + i) = none) ∧ windowed.scratchAt 0x4007F = some (0, 127) ∧
    windowed.team? 0 = some { team with window := [(0x40000, 0, 128)] } := by decide
/-- The memories of reset are canonical, and it has a next state. -/
theorem witness_MemoriesStayCanonical : State.reset.memoriesWf ∧ ∃ t, step State.reset = .next t :=
  ⟨⟨rfl, rfl, rfl, rfl, fun _ _ h => (by cases h), fun _ _ h => (by cases h), by decide⟩, _, rfl⟩

/-! Witnesses: the events. Reset with the event's operands and just the records that the statement names. -/

/-- Event operands, in a machine with the given wave in slot 0. -/
def evWave (ev : List Nat) (f : Wave → Wave) : State := let s := given .ia 0 0 0; { s with cur := none, ev := ev, waves := [(0, f (s.wave 0))] }
/-- An access of lane 0 with one line. -/
def access (kind : AccKind) (sp : Bool) (u : List LineUse) : Access :=
  { id := 3, sp := sp, kind := kind, en := 1, lanes := 1, addr := [(0, 4)], pa := [(0, 0x10004)], data := [(0, 7)], data2 := [], lines := u, vals := [], win := false, tl := 0, issued := 0, arrived := false, done := false,
    wbs := 0, poison := 0, stalled := false }
def scrLine : LineUse := { place := .scratch 0 0, line := 0, coh := 0, hb := false, lanes := 1, done := false, ready := true, due := 0 }
def memLine : LineUse := { scrLine with place := .mem 512, line := 512 }
def accessing (ev : List Nat) (a : Access) : State := { evWave ev (fun x => { x with accs := [(3, a)] }) with lines := [(512, { Line.reset with holder := some 1, dirty := true })] }
theorem atPart (a : Access) (u : LineUse) (h : a.lines = [u]) (d : u.done = false) : AtPart (accessing [0, 3, 0] a) 0 3 0 ((accessing [0, 3, 0] a).wave 0) a u :=
  ⟨rfl, rfl, rfl, by simp [h], d, by simp [accessing, evWave, State.wave, State.wave?, Map.find?], (by decide : (0 : Mask) ≠ BitVec.allOnes 32)⟩
/-- The same access behind an older one that is yet to be performed. -/
def behind (k : AccKind) : State := evWave [0, 3, 0] fun x => { x with accs := [(2, { access (.load 4 false) true [scrLine] with id := 2 }), (3, access k true [scrLine])] }
theorem accessing_wf (ev : List Nat) (a : Access) : (accessing ev a).memoriesWf := by
  refine ⟨rfl, rfl, rfl, rfl, fun _ _ h => (by cases h), fun k t h => ?_, (by simp [accessing, evWave, given, machine])⟩
  simp only [accessing, evWave, given, machine, State.team?, Map.find?] at h
  split at h <;> simp_all [programTeam] <;> subst h <;> rfl
theorem accessing_accs (ev : List Nat) (a : Access) : ((accessing ev a).wave 0).accs = [(3, a)] := rfl
theorem at_turn (ev : List Nat) (a : Access) : ¬WaitsTurn ((accessing ev a).wave 0) { a with id := 3 } 0 := by
  rintro ⟨-, ⟨p, hp, hl, -⟩ | ⟨j, hj, -⟩ | ⟨j, r, hj, -⟩⟩
  · simp [accessing_accs] at hp; subst hp; simp at hl
  · cases hj
  · omega
/-- A write of main memory, of a line of which the die may take hold at once. -/
theorem partFree (a : Access) (hs : a.sp = false) (u : LineUse) (hu : u = memLine) : PartFree (accessing [0, 3, 0] a) 0 ((accessing [0, 3, 0] a).wave 0) a u := by
  subst hu
  refine ⟨accessing_wf _ _, fun h => by simp [hs] at h, fun line h => ?_⟩
  obtain rfl : line = 512 := by simpa [memLine, eq_comm] using h
  exact ⟨rfl, fun h => (by cases h), rfl, .inl rfl, (by show 0 < 16; omega), fun v h => nomatch h⟩
/-- Of a scratchpad's line, and of main memory's: a load, a store and an atomic whose turn it is. -/
theorem witness_AccessEvents :
    (∀ k ∈ [AccKind.load 2 true, .store 2, .atomic 9], AtPart (accessing [0, 3, 0] (access k true [scrLine])) 0 3 0 ((accessing [0, 3, 0] (access k true [scrLine])).wave 0) (access k true [scrLine]) scrLine ∧
      AtPart (accessing [0, 3, 0] (access k false [memLine])) 0 3 0 ((accessing [0, 3, 0] (access k false [memLine])).wave 0) (access k false [memLine]) memLine ∧
      ¬WaitsTurn ((accessing [0, 3, 0] (access k false [memLine])).wave 0) (access k false [memLine]) 0 ∧
      PartFree (accessing [0, 3, 0] (access k false [memLine])) 0 ((accessing [0, 3, 0] (access k false [memLine])).wave 0) (access k false [memLine]) memLine) ∧
    ¬HeldBack ((accessing [0, 3, 0] (access (.load 2 true) false [memLine])).wave 0) 3 (.mem 512) ∧ ((accessing [0, 3, 0] (access (.load 2 true) false [memLine])).wave 0).win = none ∧
    ((accessing [0, 3, 1] (access (.load 4 false) true [scrLine])).ev = [0, 3, 1] ∧ (access (.load 4 false) true [scrLine]).lines.length ≤ 1 ∧ (access (.load 4 false) true [scrLine]).poison = 0 ∧
      ((accessing [0, 3, 1] (access (.load 4 false) true [scrLine])).wave 0).trap = none) ∧
    (∀ k ∈ [AccKind.store 2, .cwb, .cinvWb, .cinvDis], ((accessing [0, 3, 0] (access k false [memLine])).wave 0).nextStore = some (3, 0) ∧ memLine.hb = false ∧ memLine.place = .mem 512 ∧
      ((accessing [0, 3, 0] (access k false [memLine])).line 512).dirty = true ∧ ((accessing [0, 3, 0] (access k false [memLine])).line 512).holder = some 1) ∧
    (∀ l < 32, scrLine.lanes.getLsbD l = true → l = 0) ∧
    ((accessing [0, 3] (access (.fence 3) false [])).ev = [0, 3] ∧ Map.find? ((accessing [0, 3] (access (.fence 3) false [])).wave 0).accs 3 = some (access (.fence 3) false []) ∧
      ((accessing [0, 3] (access (.fence 3) false [])).wave 0).win = none) ∧
    (∀ k ∈ [AccKind.load 4 false, .store 2, .atomic 9], AtPart (behind k) 0 3 0 ((behind k).wave 0) (access k true [scrLine]) scrLine ∧ WaitsTurn ((behind k).wave 0) (access k true [scrLine]) 0) ∧
    ((behind (.store 2)).wave 0).nextStore = some (3, 0) := by
  refine ⟨fun k _ => ⟨atPart _ _ rfl rfl, atPart _ _ rfl rfl, at_turn [0, 3, 0] (access k false [memLine]), partFree _ rfl _ rfl⟩, ?_, rfl, ⟨rfl, by decide, rfl, rfl⟩,
   ?_, by decide, ⟨rfl, rfl, rfl⟩,
   fun k _ => ⟨⟨rfl, rfl, rfl, rfl, rfl, (by simp [behind, evWave, State.wave, State.wave?, Map.find?]), (by decide : (0 : Mask) ≠ BitVec.allOnes 32)⟩,
     ⟨rfl, .inl ⟨(2, { access (.load 4 false) true [scrLine] with id := 2 }), by simp [behind, evWave, State.wave, State.wave?, Map.find?], (by decide : 2 < 3), rfl, rfl⟩⟩⟩, by decide⟩
  · rintro ⟨q, hq, hl, -⟩
    simp [accessing_accs] at hq; subst hq; simp at hl
  · intro k h
    simp only [List.mem_cons, List.not_mem_nil, or_false] at h
    obtain rfl | rfl | rfl | rfl := h <;> exact ⟨by decide, rfl, rfl, rfl, rfl⟩
/-- Windows: one with a logged register; line 9 with a lease, a watch, a core's copy. -/
def windowWave (x : Wave) : Wave := { x with rollTill := 4, win := some { ckpt := x.ctx, firstOp := 1, logged := [5], count := 0, read := [], abn := 0, inject := [], lastPage := [] } }
def lined (ev : List Nat) (k : Line) : State :=
  { State.reset with ev := ev, now := 5, lines := [(9, k)], cores := [(0, { Core.reset with l1 := [(9, [{ line := 9, lease := some 4, spec := [] }])] })] }
theorem witness_LineAndWindowEvents :
    (AtPart (accessing [0, 3, 0] (access (.store 2) true [scrLine])) 0 3 0 ((accessing [0, 3, 0] (access (.store 2) true [scrLine])).wave 0) (access (.store 2) true [scrLine]) scrLine) ∧
    ((lined [9] { Line.reset with lease := 5 }).now ≤ ((lined [9] { Line.reset with lease := 5 }).line 9).lease ∧ ((lined [9] { Line.reset with lease := 4 }).line 9).lease < (lined [9] { Line.reset with lease := 4 }).now ∧
      ((lined [9] { Line.reset with lease := 4 }).cores.Pairwise fun p q => p.1 < q.1) ∧ (∀ p ∈ (lined [9] { Line.reset with lease := 4 }).cores, ∀ e ∈ Map.get [] p.2.l1 (9 % 128), e.line = 9 → e.spec = []) ∧
      ∀ p ∈ (lined [9] { Line.reset with lease := 4 }).cores, ((Map.get [] p.2.l1 (9 % 128)).filter fun e => e.line == 9).length ≤ 1) ∧
    (0 ∉ ((lined [0, 9] Line.reset).line 9).watch ∧ 0 ∈ ((lined [0, 9] { Line.reset with watch := [0] }).line 9).watch) ∧
    (((lined [9, 1, 0, 0, 3, 0] Line.reset).line 9).holder = none ∧ (Map.get [] ((lined [9, 1, 0, 0, 3, 0] Line.reset).die 0).cache (9 % 131072)).length < 16) ∧ ((lined [9] Line.reset).line 9).watch = [] ∧
    ((evWave [0, 1] windowWave).ev = [0, 1] ∧ ((evWave [0, 1] windowWave).wave 0).win.isSome = true) ∧ ((evWave [0] windowWave).wave 0).rollTill ≤ 4 ∧
    ((evWave [0, 0] id).ev = [0, ((evWave [0, 0] id).wave 0).escStamp] ∧ ((evWave [0, 0] id).wave 0).win = none) ∧
    ((evWave [0] windowWave).wave 0).mayCommit = true ∧ ((evWave [0] windowWave).wave 0).ctx.vac ≠ BitVec.allOnes 32 ∧ ((evWave [0] windowWave).wave 0).accs = [] :=
  ⟨atPart _ _ rfl rfl, ⟨by decide, by decide, by decide, by decide, by decide⟩, by decide, by decide, rfl, by decide, by decide, ⟨rfl, rfl⟩, by decide, by decide, rfl⟩
/-- A fragment with a bundle begun, and page tables at 0x20000, 0x30000 and 0x40000 whose entry for VA page 1 is `e`. -/
def begun (x : Wave) : Wave := { x with ctx := { x.ctx with seqs := x.ctx.seqs.map fun p => (p.1, { p.2 with part := some { cap := cap 1, first := 0, pages := [], due := 0 } }) } }
def walking (e : List (Nat × BitVec 8)) : State :=
  { evWave [0, 0, 1] begun with
    parts := [(0, { Part.reset with ptbase := 0x20000, mwbase := [(0, 0)], mwlim := [(0, 0xF0000)] })], mem := [(0x20000, 1), (0x20002, 3), (0x30000, 1), (0x30002, 4)] ++ e
    lines := [(1024, { Line.reset with holder := some 0 }), (1536, { Line.reset with holder := some 0 }), (2048, { Line.reset with holder := some 0 })] }
def spilling (seqs : Map Seq) : State := evWave [0] fun x => { x with ctx := { x.ctx with seqs := seqs, spill := [(0, Seq.start 0x10000 2 0)] } }
theorem witness_FragmentEvents :
    ((∀ a ∈ ((walking [(0x40008, 3), (0x4000A, 1)]).walk 0 0x10000).reads, ((walking [(0x40008, 3), (0x4000A, 1)]).line (a / 128)).holder.isSome = true) ∧
      (∃ p, ((walking [(0x40008, 3), (0x4000A, 1)]).walk 0 0x10000).out = .page p ∧ p.flip = false) ∧ ((walking []).walk 0 0x10000).out = .fault ∧ ((walking [(0x40008, 5)]).walk 0 0x10000).out = .pool ∧
      ((walking []).wave 0).ctx.seqs.map (fun p => p.2.part.isSome) = [true]) ∧
    ((Die.reset).tlbFind 0 0x10000 = none ∧ (({ Die.reset with tlb := [(1, [programPage])] } : Die).tlbFind 0 0x10000).map (·.1) = some programPage) ∧
    ((∃ c, (evWave [0, 0] id).instWord 0 [] 0x10000 = .error c) ∧ ((evWave [0, 0] id).wave 0).ctx.seqs.map (fun p => p.2.fetch) = [.need] ∧ ((evWave [0, 0] id).wave 0).win = none) ∧
    plainIssue { placed with ev := [0, 0], waves := placed.waves.map fun p => (p.1, { p.2 with traps := [{ cause := 0x0C, slot := 0, mask := 0, info := 0, pc := none }] }) } = true ∧
    ((spilling []).wave 0).ctx.freeSeq = some 0 ∧ ((spilling [(5, Seq.start 0x10000 1 0)]).wave 0).ctx.spill = [(0, Seq.start 0x10000 2 0)] ∧ (Seq.start 0x10000 1 0).parked = none ∧ (Seq.start 0x10000 1 0).part = none := by
  refine ⟨⟨by decide, ⟨_, rfl, rfl⟩, by decide, by decide, rfl⟩, ⟨by decide, by decide⟩, ⟨⟨_, rfl⟩, by decide, rfl⟩, by decide +kernel, by decide, rfl, rfl, rfl⟩
/-- Clover 0 with its records. -/
def clovered (ev : List Nat) (c : Clover) : State := { evWave ev id with clovers := [(0, c)] }
def request : MxReq := { wave := 0, op := 1, lanes := 1, prio := 1, entered := 0, since := 0 }
def msg (n : Nat) : Msg := { bytes := List.replicate 32 0, core := n }
def stopped (k : Stop) (ev : List Nat) : State :=
  { evWave ev fun x => { x with stop := k, tstate := 2048, trap := some { saved := x.ctx, seq := 0, cap := none, logged := [], firstOp := 1 } } with teams := [(0, programTeam)] }
theorem witness_MatrixAndManagerEvents :
    (request ∈ ((clovered [0] { Clover.reset with table := [request] }).clover 0).table ∧ ((clovered [0] { Clover.reset with table := [request] }).clover 0).baton = none ∧ (clovered [0] Clover.reset).wave? 0 = some ((clovered [0] Clover.reset).wave 0)) ∧
    (request.prio < 2 ∧ (clovered [0, 0, 0] { Clover.reset with table := [request] }).ev = [0, request.wave, request.since]) ∧
    (((clovered [0] Clover.reset).clover 0).releasing = false ∧ ((clovered [0] { Clover.reset with releasing := true }).clover 0).releasing = true) ∧
    (Map.find? ((clovered [0, 1] { Clover.reset with ops := [(1, mxOp)] }).clover 0).ops 1 = some mxOp ∧ mxOp.vals.Pairwise fun p q => p.1 < q.1) ∧ (15 < 16 ∧ 16 ≤ 16 ∧ 3 < 4 ∧ 4 ≤ 4) ∧ mxOp.status = 0 ∧ mxOp.check = none ∧
    (((clovered [0] { Clover.reset with mailWait := [msg 0] }).clover 0).freeSlot 0 = some 0 ∧ ((clovered [0] { Clover.reset with mailWait := [msg 0], mail := (List.range 32).map fun k => (k, msg 0) }).clover 0).freeSlot 0 = none) ∧
    ((clovered [0, 5] Clover.reset).clover 0).mailWait = [] ∧
    (∀ k ∈ [Stop.running, .trapfail, .timeout], ((stopped k [0, 0, 0]).wave 0).stop = k ∧ ((stopped k [0, 0, 0]).wave 0).trap.map (·.saved.join) = some []) ∧ (programTeam.slots = [(0, 0)]) ∧
    (let x := (accessing [] { access (.store 2) true [scrLine] with id := 0 }).wave 0; x.dead = false ∧ x.claims = [] ∧ ∃ p ∈ x.accs, p.2.open = true ∧ p.2.storing = true ∧ x.win = none ∧ p.2.id < x.nextOp) ∧
    ((clovered [0, 7] { Clover.reset with baton := some (0, 0, 7) }).clover 0).baton = some (0, 0, 7) ∧
    (({ evWave [0, 1, 9] id with teams := [(0, { programTeam with timing := [(1, 9)] })] } : State).team? 0).map (fun t => (t.state, Map.find? t.timing 1)) = some (.resident, some 9) := by
  refine ⟨by decide, by decide, by decide, by decide, by decide, rfl, rfl, by decide, rfl, ?_, rfl, by decide, rfl, by decide⟩
  intro k h
  simp only [List.mem_cons, List.not_mem_nil, or_false] at h
  obtain rfl | rfl | rfl := h <;> exact ⟨rfl, rfl⟩

/-- Link 0 of die 0 with its record and the requests of the machine. -/
def linked (ev : List Nat) (k : Link) (rs : Map Req) : State := { State.reset with ev := ev, links := [(0, k)], reqs := rs }
def running : Link := { Link.reset with state := .run }
def writing : Req := { line := 0, write := true, part := 0, die := 0, link := some 0, group := 0, far := false, bytes := [1, 2], waiters := [], core := none, swath := none, low := false }
def stalling : State := { accessing [0, 3, 4] (access (.load 4 false) false [memLine]) with links := [(0, { Link.reset with downSince := some 1 })], reqs := [(2, { writing with write := false, waiters := [.own 0 3 0] })] }
theorem witness_LinkEvents :
    ((linked [4] running [(4, writing)]).req? 4 = some writing ∧ writing.link = some 0 ∧ (linked [4] running [(4, writing)]).home 0 0 = 0 ∧ (linked [4] running [(4, { writing with line := 32 })]).home 0 (128 * 32) ≠ 0 ∧
      (Map.get [] ((linked [4] { running with queues := [(0, List.replicate 64 1)] } []).link 0).queues 0).length = 64) ∧
    ((linked [0] Link.reset []).link 0).up = false ∧
    (let k := { running with table := [(0, 0)], queues := [(0, [4])] }
     k.up = true ∧ k.swstat = 0 ∧ (∀ p ∈ k.sent, p.1 ≠ 0) ∧ swathFrom k 0 = 0 ∧ beatOf k (40 * 0) = 0 ∧ k.next ≤ 0 ∧ Map.get [] k.queues 0 = [4] ∧ (Map.get 0x60#32 k.table 0).toNat = 0) ∧
    (let s := linked [0, 2, 0] { running with sent := [(2, [4])] } [(4, { writing with swath := some 2 })]
     (s.link 0).sent = [(2, [4])] ∧ (s.req? 4).map (·.swath) = some (some 2) ∧ s.now < beatOf (s.link 0) (40 * (2 + 192) + 7) ∧
      beatOf (s.link 0) (40 * (2 + 192) + 7) ≤ ({ s with now := 971 } : State).now ∧ ¬beatOf (s.link 0) (40 * (2 + 192) + 7) ≤ 969) ∧
    (let s := { linked [0, 2, 1] { running with sent := [(2, [4])] } [(4, { writing with write := false, swath := some 2 })] with now := 975 }
     (s.req? 4).map (fun r => (r.write, r.swath)) = some (false, some 2) ∧ beatOf (s.link 0) (40 * (2 + 192) + 39) ≤ s.now) ∧
    (frameFrom running 0 = 0 ∧ frameFrom running 1 ≠ 1) ∧ (frameFrom { running with want := some 4, swstat := 1 } 0 = 0 ∧ (4 < 8)) ∧
    (running.state = .run ∧ running.width = 8 ∧ running.retrainTill = none ∧ running.crossings = [] ∧ running.berO.toNat % 2 ^ 24 ≠ 0 ∧ (15 < 16)) ∧ ({ running with retrainTill := some 9 } : Link).retrainTill.isSome = true ∧
    (({ running with state := .retrain, retrainTill := some 0 } : Link).retrainTill = some State.reset.now ∧ Link.reset.state = .down ∧ ({ running with wakeTill := some 0 } : Link).wakeTill = some State.reset.now) ∧
    (({ running with width := 4 } : Link).wakeTill = none ∧ ({ running with width := 4 } : Link).width ≠ 8) ∧
    ((stalling.wave 0).accs = [(3, access (.load 4 false) false [memLine])] ∧ (stalling.link 0).up = false ∧ (stalling.link 0).downSince = some 1 ∧ stalling.now ≤ 1 + 4 ∧ 1 + 4 < ({ stalling with now := 6 } : State).now ∧ (stalling.wave 0).traps = []) ∧
    (63 % 72 < 64 ∧ 64 ≤ 64 % 72) ∧ ((linked [0, 2 ^ 32 - 1] running []).link 0).wakeTill = none ∧
    (let k := (linked [0, 0, 1] { running with fecAge := [(9, 2 ^ 24)] } []).link 0
     k.carries 9 = true ∧ 2 ^ 24 ≤ Map.get 0 k.fecAge 9 + (State.reset.now - k.fecFrom) ∧ ∀ i < 16, running.carries i = true ∧ ¬2 ^ 24 ≤ Map.get 0 running.fecAge i + (State.reset.now - running.fecFrom)) := by
  refine ⟨⟨rfl, rfl, by decide, by decide, by decide⟩, rfl, by decide, by decide, by decide, by decide, by decide, by decide, rfl, by decide, by decide, ⟨rfl, rfl, rfl, by decide, by decide, rfl⟩, by decide, rfl, by decide⟩
/-- An engine command of clover 0, and its piece's line. -/
def command (op : Nat) : Cmd :=
  { launch := 0, wave := 0, alive := true, ident := 0, team := 0, part := 0, clover := 0, op := op, tag := 3, flags := 0x40, src := 0x20000, dst := 0x30000, a := 8, b := 0x11223344, c := 0, d := 0, complq := 5, row := 0, off := 0,
    seq := 0, out := 1, wrote := 0, started := some 0, code := 0, detail := 0, fault := 0, pages := [], sums := [], done := false, after := [] }
def commanded (ev : List Nat) (c : Cmd) (k : Line) : State := { evWave ev id with cmds := [(6, c)], lines := [(512, k)] }
def packet : Packet := { pkg := 1, op := none, cmd := some 6, link := 64, args := [] }
theorem witness_EngineEvents :
    ((commanded [5, 0] (command 6) Line.reset).cmd? 5 = none) ∧
    (let s := commanded [6, 0] (command 6) Line.reset
     s.cmd? 6 = some (command 6) ∧ (command 6).done = false ∧ (command 6).code = 0 ∧ (command 6).after = [] ∧ (command 6).started.isSome = true ∧ (command 6).peerD = false ∧ (s.piece (command 6)).isSome = true ∧
      Map.get 0 (s.clover 0).eng 0 ≤ s.now ∧ (s.clover 0).engOut < 1024) ∧
    (let s := commanded [6, 1, 0, 0x20000, 0x30000, 8, 0x10000] (command 0) { Line.reset with holder := some 0 }
     (command 0).hostSide 0x20000 0x10000 = false ∧ s.scratchAt 0x10000 = none ∧ (s.line (0x10000 / 128)).holder = some (command 0).die ∧ (s.line (0x10000 / 128)).fetching = none) ∧
    ((command 2).op ≠ 16 ∧ ((commanded [6, 3, 0, 0x20000, 0x30000, 8, 0x10000] (command 2) { Line.reset with poison := true }).line (0x10000 / 128)).poison = true ∧
      ((commanded [6, 3, 0, 0x20000, 0x30000, 8, 0x10000] (command 2) Line.reset).line (0x10000 / 128)).poison = false) ∧
    (let s := commanded [6, 7, 0, 0x20000, 0x30000, 8, 9, 0x10000] (command 0) Line.reset
     (command 0).hostSide 0x30000 0x10000 = false ∧ (∀ i < 8, s.scratchAt (0x10000 + i) = none) ∧ (s.line (0x10000 / 128)).fetching = none ∧ (s.line (0x10000 / 128)).lease = 0 ∧ (s.line (0x10000 / 128)).watch = [] ∧ (Map.get [] (s.die (command 0).die).cache (512 % 131072)).length < 16) ∧
    (({ command 0 with done := true } : Cmd).done = true ∧ (command 16).op = 16 ∧ (command 0).sums = [] ∧ (command 0).flags.getLsbD 6 = true ∧ ({ command 0 with code := 2 } : Cmd).alive = true ∧ ((commanded [6] (command 0) Line.reset).wave 0).traps = []) ∧
    (Map.find? ({ commanded [0, 4] (command 0) Line.reset with packets := [(4, packet)] } : State).packets 4 = some packet ∧ (State.reset.link 64).up = false ∧ Map.find? State.reset.packets 4 = none) ∧
    ({ packet with op := some 7, cmd := none } : Packet).op = some 7 ∧ (linked [0, 4] running [(4, { writing with link := none })]).req? 4 = some { writing with link := none } ∧
      writing.link = some ((linked [0, 4] running [(4, writing)]).linkOf 0 0) := by
  refine ⟨rfl, by decide, by decide, by decide, by decide, by decide, ⟨rfl, by decide, rfl⟩, rfl, rfl, by decide⟩
/-- Launch 1, accepted by die 0, with its completion queue; a record at VA and PA 0x10000; threads, bins, and an item that die 0 can place. -/
def launched (l : Launch) : State := { State.reset with launches := [(1, l)], teams := [(0, { programTeam with launch := 1 })] }
def records (m : List (Nat × BitVec 8)) : State := { State.reset with ev := [0, 3, 0x10000], parts := [(0, windowPart)], dies := [(0, { Die.reset with tlb := [(1, [programPage])] })], mem := m }
def good : List (Nat × BitVec 8) := [(0x10008, 1), (0x1000C, 16)]
def thread (flush : Bool) : Thread := { launch := 1, entry := 0x10000, words := [1, 2, 3, 4, 5, 6], flush := flush }
def item : Item := { launch := 1, prio := 0, next := 0, step := 4, count := 1, team := none, task := false, since := 0, first := true, ready := 0 }
def placing : State := { launched programLaunch with ev := [0], parts := [(0, { Part.reset with clovers := 1 })], dies := [(0, { Die.reset with items := [item] })] }
def roomy (ev : List Nat) (t : Team) (len : Dword) : State :=
  { given .ia 0 0 0 with ev := ev, teams := [(0, t)], dies := [(0, { Die.reset with tlb := [(0, [{ programPage with vpn := 0, pa := 0, big := true }])] })], parts := [(0, { Part.reset with ctxlen := len, clovers := 1, mwbase := [(0, 0)], mwlim := [(0, 0xF0000)] })] }
theorem witness_TeamEvents :
    (State.reset.featack.getLsbD 0 = false ∧ ({ State.reset with featack := 1 } : State).featack.getLsbD 0 = true) ∧
    (State.reset.devRead (State.reset.acceptor 0) 0 0x10000 256 = none ∧ ((records good).devRead ((records good).acceptor 0) 0 0x10000 256).isSome = true ∧
      (((records good).devRead 0 0 0x10000 256).map fun b => recordBad 0 0x10000 b (readRecord b)) = some false ∧ (((records good).devRead 0 0 0x10000 256).map fun b => (readRecord b).waves) = some 16 ∧
      (((records ((0x1000D, 1) :: good)).devRead 0 0 0x10000 256).map fun b => decide (16 < (readRecord b).waves)) = some true ∧
      (((records (good ++ [(0x10014, 4)])).devRead 0 0 0x10000 256).map fun b => (readRecord b).prio) = some 1) ∧
    ((launched programLaunch).launch? 1 = some programLaunch ∧ (programLaunch.lrec.teams + 3 - 0) / 4 = 1 ∧ (programLaunch.lrec.teams + 3 - 1) / 4 = 0 ∧ (State.reset.die 0).state = .run) ∧
    ((State.reset.die 1).frozen = 0 ∧ (State.reset.die 1).items = [] ∧ (({ State.reset with dies := [(1, { Die.reset with frozen := 1 })] } : State).die 1).frozen ≠ 0) ∧
    ((State.reset.die 0).items = [] ∧ (placing.die 0).items ≠ []) ∧
    (Map.find? (State.reset.die 0).bins 2 = none ∧ Map.find? ({ Die.reset with bins := [(2, { launch := 1, entry := 0, threads := [], stamp := 0 })] } : Die).bins 2 = some { launch := 1, entry := 0, threads := [], stamp := 0 }) ∧
    (∀ f, Map.get [] ({ Die.reset with threads := [(3, [thread f])] } : Die).threads 3 = [thread f] ∧ (thread f).flush = f ∧ ({ Die.reset with threads := [(3, [thread f])] } : Die).bins = []) ∧
    ((launched programLaunch).team? 0 = some { programTeam with launch := 1 } ∧ programLaunch.lrec.complq = 0 ∧ ({ programRecord with complq := 5 } : LaunchRec).complq ≠ 0 ∧ (State.reset.die programLaunch.die).failed = false) ∧
    ((State.reset.part 0).resize ≠ 1 ∧ (placing.part 0).clovers.getLsbD 0 = true ∧ (placing.part 0).clovers.getLsbD 1 = false ∧ (∀ d < 4, (placing.die d).frozen = 0) ∧ 0 ≠ 1 ∧ 95 < 96) ∧
    ((placing.canPlace 0 item).isSome = true ∧ (placing.die 0).items = [item]) ∧
    ((roomy [0, 0] programTeam 0x100000).takeFreeArea 0 programTeam programLaunch).isSome = true ∧ ((roomy [0, 0] programTeam 0).takeFreeArea 0 programTeam programLaunch).isSome = false ∧
    (roomy [0, 2] { programTeam with area := some 0 } 0).team? 0 = some { programTeam with area := some 0 } ∧ programTeam.scratch = 0 ∧ programTeam.state ≠ .moving ∧ ({ programTeam with state := .moving } : Team).state = .moving := by
  refine ⟨by decide, ⟨by decide +kernel, by decide +kernel, by decide +kernel, by decide +kernel, by decide +kernel, by decide +kernel⟩, ⟨rfl, by decide, by decide, rfl⟩, by decide, ⟨rfl, by decide⟩, ⟨rfl, rfl⟩,
    fun f => ⟨rfl, rfl, rfl⟩, ⟨rfl, rfl, by decide, rfl⟩, by decide, ⟨by decide +kernel, rfl⟩, by decide +kernel, by decide +kernel, rfl, rfl, by decide, rfl⟩
/-- A host access of eight bytes at 0x10000, and a partition whose first memory window is [0x10000, 0x1FFFF]. -/
def hostReq (wr : Bool) : HostReq := { die := 0, write := wr, addr := 0x10000, bytes := if wr then [1, 2, 3, 4, 5, 6, 7, 8] else [], len := 8, poison := false, answer := none }
def hosted (ev : List Nat) (wr : Bool) : State := { State.reset with ev := ev, host := [(2, hostReq wr)], parts := [(1, { Part.reset with mwbase := [(0, 0x10000)], mwlim := [(0, 0x10000)] })] }
def flipping (flip : BitVec 8) (fs : List Flip) : State := { walking [(0x40008, 3), (0x40009, flip), (0x4000A, 1)] with ev := [0, 1, 1, 0], flips := fs }
theorem witness_HostEvents :
    (Map.find? (hosted [2, 0, 0] false).host 2 = some (hostReq false) ∧ State.reset.partOf 0x10000 = none ∧ ((hosted [2, 0, 0] false).partOf 0x10000).isSome = true ∧ (hostReq false).bytes = [] ∧ (hostReq true).bytes.length = (hostReq true).len ∧
      PlainBytes (hosted [2, 2, 0] true) 0x10000 8 ∧ ((hosted [2, 2, 0] true).line (0x10000 / 128)).lease = 0) ∧
    ((∃ g, ((flipping 0 []).walk 0 (1 * 2 ^ 16)).out = .page g ∧ g.flip = false ∧ g.hb = false) ∧ (∃ g, ((flipping 8 []).walk 0 (1 * 2 ^ 16)).out = .page g ∧ g.flip = true) ∧
      ((flipping 0 []).walk 0 (1 * 2 ^ 16)).reads.getLast? = some 0x40008 ∧ (∀ i < 8, (flipping 0 []).scratchAt (0x40008 + i) = none) ∧ (∃ f ∈ (flipping 8 [{ part := 0, page := 1, toHost := true, stage := 1 }]).flips, f.part = 0 ∧ f.page = 1) ∧
      (State.reset.walk 0 (1 * 2 ^ 16)).out = .fault) ∧
    ((evWave [2, 0, 4, 31] id).wave? 0 = some ((evWave [2, 0, 4, 31] id).wave 0)) ∧ (State.reset.featSet = false ∧ ({ State.reset with featSet := true } : State).featSet = true) ∧
    (((hosted [] false).part 1).windowBase 0 ≤ ((hosted [] false).part 1).windowLim 0 ∧ 0x10000 ≤ ((hosted [] false).part 1).windowLim 0 + 65535 ∧ ((hosted [] false).part 1).windowBase 0 ≤ 0x10000 + 65535 ∧
      ¬((hosted [] false).part 1).windowBase 0 ≤ 0 + 65535) ∧
    ((State.reset.part 0).accepting = false ∧ State.reset.launches = [] ∧ (∃ l ∈ (launched programLaunch).launches, l.2.part = 0 ∧ l.2.done = false)) ∧
    (({ State.reset with ev := [511], msixPend := [511] } : State).msixPend = [511] ∧ ∀ b, ({ State.reset with msixMasked := b } : State).msixMasked = b) ∧
    (State.reset.bootstat ≠ 2 ∧ State.reset.bootstat ≠ 3 ∧ 0x10000 * (15 + 1) + 0x200 = 0x100200) := by
  refine ⟨⟨rfl, by decide, by decide, rfl, rfl, ⟨by decide, by decide, by decide⟩, by decide⟩, ⟨⟨_, rfl, rfl, rfl⟩, ⟨_, rfl, rfl⟩, by decide, by decide, by decide, by decide⟩, rfl, by decide, by decide, by decide, ⟨rfl, fun _ => rfl⟩, by decide⟩
def dieIn (k : DieState) (fail : Bool) : State := { State.reset with featack := 0x400, dies := [(1, { Die.reset with state := k, failed := fail })] }
theorem witness_PackageEvents :
    ((systemEvent [1, 1, 1, 180, 0, 0]).wave? 0 = some ((systemEvent [1, 1, 1, 180, 0, 0]).wave 0) ∧ (Map.find? ((systemEvent [1, 1, 1, 180, 0, 0]).wave 0).pend 1).isSome = true ∧ ((dieIn .run true).die 1).failed = true) ∧
    (((dieIn .run false).die 1).state = .run ∧ (dieIn .run false).featack.getLsbD 10 = true ∧ (∀ e < 4, e ≠ 1 → ((dieIn .run false).die e).state = .run) ∧ State.reset.featack.getLsbD 10 = false) ∧
    (∀ k, ((dieIn k false).die 1).state = k ∧ ((dieIn k false).die 1).failed = false) ∧ (1 < 4 ∧ 3 < 4) ∧ ((∀ p ∈ (dieIn .run false).waves, dieOf p.1 ≠ 1) ∧ (∀ i ∈ ((dieIn .run false).die 1).items, i.team = none ∧ i.step ≠ 0) ∧ ((dieIn .quiescing false).flushReady 1 none).1 = 0 ∧ (flushing.flushReady 0 none).1 = 17 ∧ (dieIn .run false).lines.Pairwise fun p q => p.1 < q.1) ∧
    (({ State.reset with ev := [1] } : State).ev = [1] ∧ ({ State.reset with stretch := 2, sag := 40 } : State).sag + 10 ≤ 50 ∧ 50 < ({ State.reset with stretch := 2, sag := 41 } : State).sag + 10) ∧ (114 < 115 ∧ 115 ≤ 115) :=
  ⟨⟨rfl, rfl, rfl⟩, ⟨rfl, rfl, by decide, rfl⟩, fun _ => ⟨rfl, rfl⟩, by decide, by decide, ⟨rfl, by decide, by decide⟩, by decide⟩
/-- The states of EventsComplete: a link with one queued write; the same one sent; a launch's team about to move or to swap. -/
def queueing : Link := { running with table := [(0, 0)], queues := [(0, [4])] }
def moving : Team := { programTeam with launch := 1, state := .moving }
theorem witness_EventsComplete :
    (let s := linked [4] running [(4, writing)]
     s.req? 4 = some writing ∧ writing.write = true ∧ s.home (0 / 72) (128 * writing.line) = 0 / 72 ∧ (Map.get [] (s.link 0).queues writing.group).length < 64) ∧
    (let s := linked [0] queueing [(4, writing)]
     s.link 0 = queueing ∧ queueing.state = .run ∧ queueing.swstat ≠ 1 ∧ swathFrom queueing s.now = 0 ∧ queueing.next ≤ 0 ∧ beatOf queueing (40 * 0) = s.now ∧ queueing.sent = [] ∧
      Map.get [] queueing.queues writing.group = [4] ∧ s.req? 4 = some writing ∧ (Map.get 0x60#32 queueing.table 0).toNat = 0 ∧ writing.part = 0 ∧ writing.far = false) ∧
    (let s := { linked [0, 2, 0] { running with sent := [(2, [4])] } [(4, { writing with swath := some 2 })] with now := 971 }
     (s.link 0).sent = [(2, [4])] ∧ (s.req? 4).map (fun r => (r.write, r.swath, r.waiters)) = some (true, some 2, []) ∧ beatOf (s.link 0) (40 * (2 + 192) + 7) ≤ s.now) ∧
    (frameFrom { running with swstat := 1 } State.reset.now = State.reset.now ∧ running.want = none ∧ running.commit ≤ swathFrom running State.reset.now ∧ running.crossings = [] ∧ running.wakeTill = none ∧
      ({ running with retrainTill := some 0 } : Link).retrainTill = some State.reset.now ∧ ({ running with wakeTill := some 0 } : Link).wakeTill = some State.reset.now ∧ running.berO.toNat % 2 ^ 24 ≠ 0 ∧
      running.berI.toNat % 2 ^ 24 ≠ 0 ∧ running.width = 8 ∧ ({ running with width := 4 } : Link).width ≠ 8) ∧
    (let s := { stalling with now := 6 }
     (s.wave 0).traps = [] ∧ s.reqs.length = 1 ∧ (s.link 0).state = .down ∧ (s.link 0).downSince = some 1 ∧ 1 + 4 < s.now ∧ (s.wave 0).accs.map (fun p => (p.1, p.2.stalled)) = [(3, false)]) ∧
    (({ State.reset with featack := 1 } : State).featack.getLsbD 0 = true ∧
      (((records good).devRead ((records good).acceptor 0) 0 0x10000 256).map fun b => (recordBad (records good).featack 0x10000 b (readRecord b), (readRecord b).prio, (readRecord b).cohort)) = some (false, 0, false)) ∧
    ((launched programLaunch).launch? 1 = some programLaunch ∧ (programLaunch.lrec.teams + 3 - 0) / 4 ≠ 0 ∧ (∀ d < 4, (State.reset.die d).state = .run ∧ (State.reset.die d).frozen = 0)) ∧
    (Map.find? ({ Die.reset with bins := [(2, { launch := 1, entry := 0, threads := [], stamp := 0 })] } : Die).bins 2 = some { launch := 1, entry := 0, threads := [], stamp := 0 } ∧
      Map.get [] ({ Die.reset with threads := [(3, [thread false])] } : Die).threads 3 = [thread false] ∧ (thread false).flush = false ∧ Die.reset.bins = []) ∧
    ((launched programLaunch).team? 0 = some { programTeam with launch := 1 } ∧ programLaunch.lrec.complq = 0) ∧
    ((placing.die 0).items = [item] ∧ item.team = none ∧ item.step ≠ 0 ∧ (placing.canPlace 0 item).isSome = true ∧ placing.launch? 1 = some programLaunch) ∧
    (let s := { roomy [0, 0] moving 0x100000 with launches := [(1, programLaunch)] }
     s.team? 0 = some moving ∧ s.launch? moving.launch = some programLaunch ∧ moving.window = [] ∧ moving.scratch ≤ 128 ∧ moving.state = .moving ∧
      s.devFlips (moving.core / 96) programLaunch.part (programLaunch.lrec.window moving.number.toNat) 128 = false ∧ (s.takeFreeArea 0 moving programLaunch).isSome = true ∧
      ({ moving with deadline := some 7 } : Team).deadline = some 7) ∧
    (Map.find? (hosted [2, 2, 0] false).host 2 = some (hostReq false) ∧ (hostReq false).write = false ∧ (hostReq false).bytes = [] ∧ PlainBytes (hosted [2, 2, 0] false) 0x10000 8) ∧
    ((∃ g, ((flipping 0 []).walk 0 (1 * 2 ^ 16)).out = .page g ∧ g.flip = false ∧ ¬(g.hb = true ↔ 1 = 1)) ∧ ((flipping 0 []).walk 0 (1 * 2 ^ 16)).reads.getLast? = some 0x40008 ∧
      (flipping 0 []).flips = [] ∧ ∀ i < 8, (flipping 0 []).scratchAt (0x40008 + i) = none) ∧
    (∀ q < 16, q ≠ 0 → ∀ j < 8, (State.reset.part q).windowLim j < (State.reset.part q).windowBase j) ∧
    ((State.reset.part 0).accepting = false ∧ State.reset.launches = [] ∧ (∀ d < 4, (State.reset.die d).failed = false) ∧ State.reset.featSet = false) ∧
    (({ State.reset with msixMasked := false } : State).msixMasked = false ∧ ({ State.reset with bootstat := 1 } : State).bootstat = 1) := by
  refine ⟨by decide, by decide, by decide, by decide, by decide, ⟨by decide, by decide +kernel⟩, ⟨rfl, by decide, by decide⟩, by decide, ⟨rfl, rfl⟩, ⟨rfl, rfl, by decide, by decide +kernel, rfl⟩,
    ⟨rfl, rfl, rfl, by decide, rfl, by decide +kernel, by decide +kernel, rfl⟩, ⟨rfl, rfl, rfl, ⟨by decide, by decide, by decide⟩⟩, ⟨⟨_, rfl, rfl, by decide⟩, by decide, rfl, by decide⟩, by decide, by decide, by decide⟩

/-! Further witnesses, for the clauses that the ones above leave out. -/

theorem noLaterMove (m : MoveIn) (h : m.c.stop = 1) (l : Nat) : ¬decidesLater m l := by
  rintro ⟨k, -, -, -, h1, h2, -⟩
  omega
/-- Lane 16 as a shadow, a task wave, a loop level, a spread latch, and a FIFO with an entry for lane 0 alone. -/
def sourced : Wave :=
  let x := (loopAt 1 0 1).wave 0
  { x with ctx := { x.ctx with heads := [(1, { handle := 0, spread := true, bound := true, stale := false, pos := 0, recs := [[5]] })], lsFifo := [⟨3, 1, [(0, 9)], true⟩] } }
theorem witness_SourceValues_ports :
    ((paired.wave 0).ctx.shadows.getLsbD 16 = true ∧ 16 < 32) ∧ (sourced.ctx.seq 0).loops.length = 1 ∧ (sourced.ctx.wstat.getLsbD 10 = false ∧ sourced.index < 2 ^ 64) ∧
    (given .ia 0 0 0).team? sourced.team = some programTeam ∧ ((sourced.ctx.head 1).bound = true ∧ (sourced.ctx.head 1).stale = false ∧ (sourced.ctx.head 1).spread = true ∧ (sourced.ctx.head 0).bound = false) ∧
    sourced.ctx.spFifo = [] ∧ (∃ e r, sourced.ctx.lsFifo = e :: r ∧ e.mask.getLsbD 0 = true ∧ e.mask.getLsbD 1 = false) :=
  ⟨by decide, rfl, by decide, rfl, by decide, rfl, _, _, rfl, by decide, by decide⟩
/-- Core 0 with 64 requests on one bank group, a line operation of a window there, and a window that holds a discard of the line. -/
def crowded : State := { lsAt 0x10000 0 0 with reqs := (List.range 64).map fun k =>
  (k, { line := 2 ^ 20 + k, write := false, part := 0, die := 0, link := none, group := bankGroup 0x10000, far := false, bytes := [], waiters := [], core := some 0, swath := none, low := false }) }
def windowed_ (s : State) (accs : Map Access) : State :=
  { s with waves := s.waves.map fun p => (p.1, { p.2 with accs := accs, win := some { ckpt := p.2.ctx, firstOp := 1, logged := [], count := 0, read := [], abn := 0, inject := [], lastPage := [] } }) }
theorem witness_LsStarts_waits :
    (let us := groupLines (lanesOf (inp crowded).real) fun l => crowded.lineUse programPage 0x10000 l
     Runs crowded ∧ crowded.slotsFree (coreOf (inp crowded).w) us = false ∧ us.map crowded.takesSlot = [true]) ∧
    (let s := windowed_ crowded []
     Runs s ∧ (inp s).x.win.isSome = true ∧ s.slotsFree 0 ((groupLines (lanesOf (inp s).real) fun l => s.lineUse programPage 0x10000 l).filter s.takesSlot) = false) ∧
    (let b := { access .cinvDis false [{ scrLine with place := .mem 512, line := 512 }] with win := true }
     let s := windowed_ (lsAt 0x10000 0 0) [(3, b)]
     Runs s ∧ (s.scratchAt 0x10000).isSome = false ∧ (3, b) ∈ (inp s).x.accs ∧ b.kind = .cinvDis ∧ ∃ u ∈ b.lines, u.place = .mem (0x10000 / 128)) :=
  ⟨⟨⟨⟨rfl, rfl, rfl, rfl⟩, by decide, by decide⟩, by decide +kernel, by decide +kernel⟩, ⟨⟨⟨rfl, rfl, rfl, rfl⟩, by decide, by decide⟩, rfl, by decide +kernel⟩,
   ⟨⟨rfl, rfl, rfl, rfl⟩, by decide, by decide⟩, by decide, by decide, rfl, _, .head _, rfl⟩
/-- The last lane of a holder with a live accumulator leaves; the same lane, where no later slot decides it. -/
theorem witness_Exits_leaves : Runs holdingLive ∧ (∃ p, (holdingLive.clover (cloverOf (inp holdingLive).w)).baton = some ((inp holdingLive).w, p)) ∧
    ∀ l < 32, (inp holdingLive).x.ctx.vac.getLsbD l = true ∨ ¬decidesLater (inp holdingLive) l ∧ (inp holdingLive).real.getLsbD l = true := by
  refine ⟨⟨⟨rfl, rfl, rfl, rfl⟩, by decide, by decide⟩, ⟨_, rfl⟩, fun l h => ?_⟩
  have k : ∀ l < 32, (inp holdingLive).x.ctx.vac.getLsbD l = true ∨ (inp holdingLive).real.getLsbD l = true := by decide
  exact (k l h).imp id fun hr => ⟨noLaterMove _ rfl l, hr⟩
/-- A ct.loop that committed before a trap and has kept the length of the bundle at END. -/
def kept : State := { given .ct 0 0 8 with cur := some (Issue.start 0 0 0 1 { cap 1 with ends := [(0, 8)] } []) }
theorem witness_Loops_kept : Runs kept ∧ Map.find? (inp kept).c.cap.ends (inp kept).c.slot = some 8 ∧ (inp kept).latchW .ct .o1 (inp kept).low = 0 ∧
    (ctTarget (inp kept) (inp kept).low).toNat % 4 = 0 ∧ (ctNext (inp kept)).toNat ≤ (ctTarget (inp kept) (inp kept).low).toNat :=
  ⟨⟨⟨rfl, rfl, rfl, rfl⟩, by decide, by decide⟩, rfl, by decide, by decide, by decide⟩
/-- Barrier 0 of a team of one wave, all of whose lanes have arrived, with a fragment held there; barrier 1 of it, at which none has. -/
def meeting : State :=
  let s := given .ct 0 0 0
  { s with teams := [(0, { programTeam with arr := [(0, 0xFFFFFFFF)] })]
           waves := s.waves.map fun p => (p.1, { p.2 with ctx := { p.2.ctx with seqs := p.2.ctx.seqs.map fun q => (q.1, { q.2 with hold := .barrier 0 1 }) } }) }
theorem witness_Barriers_complete : (∃ t, meeting.team? 0 = some t ∧ t.state = .resident ∧ (∀ i < t.waves, Map.get 0 t.arr (4 * i) = BitVec.allOnes 32) ∧
      ¬(∀ i < t.waves, Map.get 0 t.arr (4 * i + 1) ||| (meeting.wave 0).ctx.vac = BitVec.allOnes 32) ∧ Map.find? t.slots 0 = some 0 ∧ ∀ j, Map.find? t.slots j = some 0 → j = 0) ∧
    ((Map.find? (meeting.wave 0).ctx.seqs 0).map (·.hold)) = some (.barrier 0 1) := by
  refine ⟨⟨_, rfl, rfl, by decide, by decide, rfl, fun j h => ?_⟩, rfl⟩
  exact (Decidable.em (j = 0)).elim id fun hj => (by simp [programTeam, Map.find?, Ne.symm hj] at h)
theorem witness_QueueTriggers_remote : Runs (queued 1 0 0x10000 0) ∧ (0x1000000000000 : Dword).getLsbD 48 = true ∧
    (∀ f : Bool, ({ queued 1 0 0x10000 0 with featack := if f then 0x20 else 0 } : State).featack.getLsbD 5 = f) :=
  ⟨⟨⟨rfl, rfl, rfl, rfl⟩, by decide, by decide⟩, by decide, by decide⟩
/-- The operations at their controller, each on the context that it caches; and one held by an older store of its bundle. -/
def blankOp (k : QuKind) : QuOp := { QuOp.blank with kind := k, count := 1, wave := some 0, forms := if k = .enq then [[1, 7]] else [] }
def atQueue (k : QuKind) (o : QuOp) (c : QCtx) : State := { queueAt k 1 0 with ev := [7, 3], qops := [(7, o)], dies := [(0, { Die.reset with qctx := [(qkey 0 0, c)] })] }
theorem unheld (k : QuKind) (o : QuOp) (c : QCtx) (h : o.unit = .qu) : QueueUnheld (atQueue k o c) o := ⟨by simp [h], .inr fun w x _ h => by cases h⟩
theorem witness_QueueEvents_kinds :
    (∀ k ∈ [QuKind.enq, .claim, .pub, .avail, .bindU, .bindS, .destroy], QueueUnheld (atQueue k (blankOp k) (qctx 1)) (blankOp k) ∧
      QueueAtHand (atQueue k (blankOp k) (qctx 1)) 0 0 0 3 (qctx 1) ∧ (atQueue k (blankOp k) (qctx 1)).opReady (blankOp k) 0 (qctx 1) = (0, atQueue k (blankOp k) (qctx 1))) ∧
    ((qctx 1).ctl.getLsbD 8 = true ∧ (qctx 1).ctl.toNat / 2 ^ 13 % 2 ^ 12 = 0 ∧ (qctx 1).ctl.toNat / 2 ^ 25 % 4 = 0 ∧ (qctx 1).ctl.toNat / 2 ^ 9 % 16 = (blankOp .enq).part ∧ (blankOp .enq).handle = 0) ∧
    FormValid (qctx 1) 1 ∧ ¬FormValid (qctx 1) 255 ∧
    ((qctx 1).claim - (qctx 1).head + BitVec.ofNat 32 1).toNat ≤ 2 ^ ((qctx 1).ctl.toNat % 32) ∧ 2 ^ ((qctx 16).ctl.toNat % 32) < ((qctx 16).claim - (qctx 16).head + BitVec.ofNat 32 1).toNat ∧
    (let o := { blankOp .enq with kind := .device, forms := [[1, 2]] }
     QueueUnheld (atQueue .enq o (qctx 0)) o ∧ FormValid { qctx 0 with ctl := 0x164 } 0xFF ∧ (qctx 0).ctl.getLsbD 7 = false) ∧
    (let i := BitVec.ofNat 32 (blankOp .pub).arg
     (i - (qctx 1).tail).toNat + 1 ≤ ((qctx 1).claim - (qctx 1).tail).toNat ∧ (qctx 1).pmap.getLsbD 0 = false ∧ ((qctx 0).claim - (qctx 0).tail).toNat < (i - (qctx 0).tail).toNat + 1) ∧
    (let o := { blankOp .pop with kind := .pop }
     let c := { qctx 1 with tail := 1 }
     QueueUnheld (atQueue .pop o c) o ∧ (atQueue .pop o c).opReady o 0 c = (0, atQueue .pop o c) ∧ o.count ≠ 0 ∧ o.count < 2 ^ 32) ∧
    (let c := { qctx 0 with ctl := 4 }
     let o := { blankOp .create with kind := .create }
     QueueUnheld (atQueue .create o c) o ∧ c.ctl.getLsbD 8 = false ∧ c.ctl.toNat % 32 ≠ 0 ∧ c.ctl.toNat % 32 ≤ 20 ∧ c.ring.toNat % 128 = 0 ∧ c.ctl.toNat / 2 ^ 27 = 0) ∧
    (let o := { blankOp .enq with op := 9 }
     let s := { accessing [7, 0] (access (.store 2) true [scrLine]) with qops := [(7, o)] }
     o.unit ≠ .ls ∧ o.kind ≠ .avail ∧ s.wave? 0 = some (s.wave 0) ∧ (3, access (.store 2) true [scrLine]) ∈ (s.wave 0).accs ∧ 3 < o.op ∧ (access (.store 2) true [scrLine]).open = true) := by
  refine ⟨fun k h => ?_, by decide, ⟨by decide, by decide⟩, fun h => absurd h.1 (by decide), by decide, by decide, ⟨unheld _ _ _ rfl, ⟨by decide, by decide⟩, by decide⟩, by decide,
    ⟨unheld _ _ _ rfl, rfl, by decide, by decide⟩, ⟨unheld _ _ _ rfl, by decide, by decide, by decide, by decide, by decide⟩, ⟨by decide, by decide, rfl, .head _, by decide, rfl⟩⟩
  simp only [List.mem_cons, List.not_mem_nil, or_false] at h
  obtain rfl | rfl | rfl | rfl | rfl | rfl | rfl := h <;> exact ⟨unheld _ _ _ rfl, .inl rfl, rfl⟩
/-- The answers of a bind that its latch awaits, and of one that it no longer awaits. -/
theorem witness_QueueEvents_answers :
    (let x := refilling.wave 0
     let g := x.ctx.head 2
     g.bound = true ∧ g.handle = 0 ∧ g.wait = 0 ∧ (0, 0, 0, 2) ∈ refilling.bound ∧ min 32 (BitVec.ofNat 32 3 - BitVec.ofNat 32 0).toNat - (g.pos - BitVec.ofNat 32 0).toNat = 3 ∧ g.recs.length < 3 ∧
      (g.pos - (qctx 0).head).toNat = 0) ∧
    (∀ k ∈ [QuKind.bindU, .bindS], ∃ o : QuOp, o.kind = k ∧ o.arg = 2 ∧ o.op = 0 ∧ o.handle = ((refilling.wave 0).ctx.head 2).handle ∧ o.st = 0) :=
  ⟨by decide, fun k _ => ⟨{ blankOp k with arg := 2 }, rfl, rfl, rfl, rfl, rfl⟩⟩
/-- A supervisor whose base register 0 holds 0x10000, with the page in its die's TLB or not; page tables for sy.pmap; a full mailbox. -/
def injecting (hit : Bool) : State :=
  let s := super 4 1 0 0
  { s with dies := [(0, { Die.reset with tlb := if hit then [(1, [programPage])] else [] })], waves := s.waves.map fun p => (p.1, { p.2 with ctx := { p.2.ctx with base := [(0, 0x10000)] } }) }
def mapping : State := { super 0x1F 0x10000 0 3 with
  parts := [(0, { Part.reset with pcap := 0x1F, ptbase := 0x20000, mwbase := [(0, 0)], mwlim := [(0, 0xF0000)] })], mem := [(0x20000, 1), (0x20002, 3), (0x30000, 1), (0x30002, 4)]
  lines := [(1024, { Line.reset with holder := some 0 }), (1536, { Line.reset with holder := some 0 }), (2048, { Line.reset with holder := some 0 })] }
def posting (full : Bool) : State := { super 0 0 0 96 with clovers := [(0, { Clover.reset with mail := if full then (List.range 32).map fun k => (k, msg 0) else [] })] }
theorem witness_SystemTriggers_elsewhere :
    (∀ f, Runs (injecting f) ∧ ((inp (injecting f)).x.ctx.baseReg 0).toNat = 0x10000) ∧ (((injecting true).die 0).tlbFind 0 0x10000).map (·.1) = some programPage ∧
    (∀ h, (injecting true).pageAt programPage 0x10000 = .page h → h.flip = false) ∧ ((injecting false).die 0).tlbFind 0 0x10000 = none ∧ canonical (BitVec.ofNat 64 0x10000) = true ∧
    (Runs mapping ∧ mapping.pteAddr 0 0x10000 false = some 0x40008 ∧ (mapping.engCost 0 0x40008 2 (isHostPa 0x40008) true).isSome = true) ∧
    (∀ f, Runs (posting f) ∧ ((([0, 1, 2, 3] ++ (List.range 16).map (16 + ·)).find? fun n => (Map.find? ((posting f).clover 0).mail n).isNone).isNone = f)) := by
  refine ⟨fun f => ⟨⟨⟨rfl, rfl, rfl, rfl⟩, by revert f; decide, by revert f; decide⟩, by revert f; decide⟩, by decide, fun h e => ?_, by decide, by decide,
    ⟨⟨⟨rfl, rfl, rfl, rfl⟩, by decide, by decide⟩, by decide, by decide⟩, fun f => ⟨⟨⟨rfl, rfl, rfl, rfl⟩, by revert f; decide, by revert f; decide⟩, by revert f; decide⟩⟩
  have : (injecting true).pageAt programPage 0x10000 = .page programPage := by decide
  rw [this] at e
  cases e; rfl
theorem witness_SystemEffects_injection : (systemEvent [0, 1, 5, 1, 0x10000, 0]).ev = 0 :: 1 :: 5 :: 1 :: 0x10000 :: [0] ∧
    (Map.find? ((systemEvent [0, 1, 5, 1, 0x10000, 0]).wave 0).pend 1).isSome = true ∧ (systemEvent [0, 1, 1, 0, 0, 0x10000, 1]).ev = [0, 1, 1, 0, 0, 0x10000, 1] := ⟨rfl, rfl, rfl⟩
/-- The trap table's page stands in the die's TLB; and the fragment that waits for the table's entries. -/
theorem witness_TrapEntry_reads :
    (∀ i ∈ [15, 31], ∀ a ∈ pagesOf (((trapping id).part 0).ttbase.toNat + 8 * i) 8, ∃ g d, ((trapping id).die 0).tlbFind 0 a = some (g, d) ∧
      ∀ e, (trapping id).pageAt g a = .page e → e.flip = false) ∧
    (let s := { trapping (fun x => { x with tstate := 0x80F }) with ev := [0, 0, 2] }
     s.ev = 0 :: 0 :: 2 :: [] ∧ s.wave? 0 = some (s.wave 0) ∧ (Map.find? (s.wave 0).ctx.seqs 0).isSome = true ∧ (s.wave 0).tstate.toNat % 256 = 15 ∧ s.trapEntry 0 15 = some 0x4001 ∧ s.trapEntry 0 31 = some 0x9000) := by
  refine ⟨fun i hi a ha => ?_, rfl, rfl, rfl, by decide, by decide, by decide⟩
  simp only [List.mem_cons, List.not_mem_nil, or_false] at hi
  have e : (trapping id).pageAt programPage a = .page programPage ∧ (((trapping id).die 0).tlbFind 0 a).map (·.1) = some programPage := by
    obtain rfl | rfl := hi <;> (obtain rfl : a = _ := List.mem_singleton.1 ha; decide)
  obtain ⟨⟨g, d⟩, h, k⟩ := Option.map_eq_some_iff.1 e.2
  cases k
  exact ⟨programPage, d, h, fun h k => by rw [e.1] at k; cases k; rfl⟩

/-- A copy of line 9 whose lease has passed and that the window of wave 3 reads; a writer waits until cycle w. -/
def leased (w : Nat) : State := { lined [9] { Line.reset with lease := 4, waits := w } with
  cores := [(0, { Core.reset with l1 := [(9, [{ line := 9, lease := some 4, spec := [3] }])] })] }
/-- A held store of two bytes to line 512, which its die may take at once. -/
def held : LineUse := { memLine with ready := false }
def storing (x : Wave) : Wave := { windowWave x with accs := [(3, { access (.store 2) false [memLine] with win := true })] }
def committing : State := { evWave [0] storing with lines := [(512, { Line.reset with holder := some 0 })] }
/-- An atomic on line 512, of which the host's grant arrives. -/
def granting : State := { accessing [512, 1, 0, 0, 3, 0] (access (.atomic 9) false [memLine]) with lines := [] }
theorem committing_accs : (committing.wave 0).accs = [(3, { access (.store 2) false [memLine] with win := true })] := rfl
theorem untracked (s : State) (h : s.lines.all (fun p => p.2.watch.isEmpty) = true) (k : s.cores = []) (line : Nat) : Untracked s line := by
  refine ⟨?_, fun p hp => by rw [k] at hp; cases hp⟩
  show (Map.get Line.reset s.lines line).watch = []
  have : ∀ m : Map Line, m.all (fun p => p.2.watch.isEmpty) = true → (Map.get Line.reset m line).watch = [] := by
    intro m
    induction m with
    | nil => intro _; rfl
    | cons p m ih =>
      intro h
      simp only [List.all_cons, Bool.and_eq_true] at h
      simp only [Map.get] at ih ⊢
      split
      · simpa using h.1
      · exact ih h.2
  exact this _ h
theorem witness_LineAndWindowEvents_writers :
    (AtPart (accessing [0, 3, 0] (access (.store 2) false [held])) 0 3 0 ((accessing [0, 3, 0] (access (.store 2) false [held])).wave 0) (access (.store 2) false [held]) held ∧ held.hb = false ∧ held.ready = false ∧
      Writable (accessing [0, 3, 0] (access (.store 2) false [held])) (dieOf 0) 512 false 0 ∧ Untracked (accessing [0, 3, 0] (access (.store 2) false [held])) 512) ∧
    (∀ w, (leased w).ev = [9] ∧ (∀ p ∈ (leased w).cores, p.1 ≠ 0 → ∀ r ∈ Map.get [] p.2.l1 (9 % 128), r.line ≠ 9) ∧ ((leased w).cores.Pairwise fun p q => p.1 < q.1) ∧
      (Map.get [] ((leased w).core 0).l1 (9 % 128)).filter (·.line == 9) = [{ line := 9, lease := some 4, spec := [3] }] ∧ 4 < (leased w).now) ∧
    (¬WriterWaits (leased 0) 9 ∧ WriterWaits (leased 5) 9) ∧
    ((granting.line 512).holder = none ∧ granting.wave? 0 = some (granting.wave 0) ∧ Map.find? (granting.wave 0).accs 3 = some (access (.atomic 9) false [memLine]) ∧ (access (.atomic 9) false [memLine]).isAtomic = true) ∧
    ((lined [9] { Line.reset with watch := [0] }).line 9).watch = [0] ∧
    (let x := committing.wave 0
     let a : Access := { access (.store 2) false [memLine] with win := true }
     x.win.isSome = true ∧ x.mayCommit = true ∧ x.ctx.vac ≠ BitVec.allOnes 32 ∧ committing.memoriesWf ∧ (x.accs.Pairwise fun p q => p.1 < q.1) ∧ (3, a) ∈ x.accs ∧ 1 ≤ 3 ∧ a.kind = .store 2 ∧ a.lines = [memLine] ∧ a.wbs = 0 ∧
      (∀ p ∈ x.accs, p.2.poison = 0 ∧ (p.2.storing = true → p = (3, a))) ∧ Writable committing (dieOf 0) 512 memLine.hb 0 ∧ (committing.line 512).holder = some (dieOf 0) ∧ Untracked committing 512) := by
  refine ⟨⟨atPart _ _ rfl rfl, rfl, rfl, ⟨(fun h => nomatch h), rfl, .inl rfl, (by show 0 < 16; omega), fun v h => nomatch h⟩, untracked _ rfl rfl _⟩,
    fun w => ⟨rfl, by simp [leased], by simp [leased], rfl, (by decide : 4 < 5)⟩, ⟨?_, .inl ⟨by decide, by decide⟩⟩, ⟨rfl, rfl, rfl, rfl⟩, rfl,
    ⟨rfl, by decide, by decide, ⟨rfl, rfl, rfl, rfl, fun _ _ h => (by cases h), fun k t h => ?_, by simp [committing, evWave, given, machine]⟩, by decide, by rw [committing_accs]; exact .head _, by decide, rfl, rfl, rfl, ?_,
      ⟨(fun h => nomatch h), rfl, .inl rfl, by decide, fun v h => nomatch h⟩, rfl, untracked _ rfl rfl _⟩⟩
  · rintro (⟨h, -⟩ | ⟨p, h, -⟩)
    · exact h rfl
    · cases h
  · simp only [committing, evWave, given, machine, State.team?, Map.find?] at h
    split at h <;> simp_all [programTeam] <;> subst h <;> rfl
  · rw [committing_accs]
    intro p h
    obtain rfl := List.mem_singleton.1 h
    exact ⟨rfl, fun _ => rfl⟩

/-- A page walk of fragment 0's bundle, which has read n entries after the first. -/
def walkAt (n : Nat) (e : List (Nat × BitVec 8)) : State := { walking e with
  ev := [0, 7], walks := [(7, { die := 0, part := 0, va := 0x10000, busy := true, step := n, use := .bundle 0 0 })]
  waves := (walking e).waves.map fun p => (p.1, { p.2 with ctx := { p.2.ctx with seqs := p.2.ctx.seqs.map fun q => (q.1, { q.2 with part := q.2.part.map fun h => { h with look := [1] } }) } }) }
def asked (s : State) : Bool := ((Map.find? (s.wave 0).ctx.seqs 0).bind (·.part)).any fun h => h.look.contains 1
/-- A read of page-table entry 0x40008 that has reached its home, and a task with n lines to come. -/
def homeRead (ev : List Nat) (k : Line) : State := { State.reset with ev := ev, lines := [(2048, k)] }
def tasked (n : Nat) : State := { State.reset with ev := [2, 7], tasks := [(7, { left := n, first := none, go := .epiChunk, args := [0, 1, 0] })] }
theorem witness_FragmentEvents_walks :
    ((walking []).ev = [0, 0, 1] ∧ ((walking []).wave? 0).isSome = true ∧ ((walking []).die 0).tlbFind 0 (1 * 2 ^ 16) = none ∧
      ((({ walking [] with dies := [(0, { Die.reset with tlb := [(1, [programPage])] })] } : State).die 0).tlbFind 0 (1 * 2 ^ 16)).map (·.1) = some programPage) ∧
    (∀ n < 2, ∃ a, ((walkAt n [(0x40008, 3), (0x4000A, 1)]).walk 0 0x10000).reads[n + 1]? = some a ∧ (walkAt n []).scratchAt a = none ∧ a < 2 ^ 51 ∧ ((walkAt n []).line (a / 128)).holder = some 0 ∧ ((walkAt n []).line (a / 128)).fetching = none) ∧
    (∀ e, asked (walkAt 2 e) = true ∧ (walkAt 2 e).ev = [0, 7]) ∧
    ((∃ p, ((walkAt 2 [(0x40008, 3), (0x4000A, 1)]).walk 0 0x10000).out = .page p) ∧ ((walkAt 2 [(0x40008, 3), (0x4000A, 1)]).walk 0 0x10000).reads.length ≤ 2 + 1) ∧
    ((walkAt 2 []).walk 0 0x10000).out = .fault ∧ ((walkAt 2 [(0x40008, 5), (0x40009, 0x10)]).walk 0 0x10000).out = .claimed ∧
    (let s := walkAt 2 [(0x40008, 5)]
     (s.walk 0 0x10000).out = .pool ∧ (s.walk 0 0x10000).reads.getLast?.getD 0 = 0x40008 ∧ (s.wave 0).win = none ∧ (s.scratchAt (128 * (0x40008 / 128))).isNone = true ∧ (∀ j < 8, s.scratchAt (0x40008 + j) = none) ∧ Writable s 0 2048 false 0) ∧
    (let s := { walking [(0x40008, 5), (0x40009, 0x10)] with ev := [6, 0, 0, 0x40008, 1] }
     s.read 0x40008 8 % 2 = 1 ∧ s.read 0x40008 8 / 2 % 4 = 2 ∧ s.read 0x40008 8 / 2 ^ 12 % 2 = 1 ∧ (s.scratchAt (128 * (0x40008 / 128))).isNone = true ∧ (s.line 2048).watch = [] ∧ (∀ w, Writable s 0 2048 (decide (2 ^ 51 ≤ 0x40008)) w) ∧
      (walking [(0x40008, 5)]).read 0x40008 8 / 2 ^ 12 % 2 = 0) ∧
    (let ev := [1, 1, 0x40000, 0, 0, 0, 7]
     (homeRead ev Line.reset).ev = 1 :: 1 :: 0x40000 :: 0 :: 0 :: [0, 7] ∧ ([0, 7] : List Nat).head? ≠ some 5 ∧ (homeRead ev Line.reset).home 0 0x40000 = 0 ∧ ((homeRead ev Line.reset).line 2048).holder = none ∧
      ((homeRead ev { Line.reset with holder := some 2 }).line 2048).holder = some 2 ∧ (homeRead ev { Line.reset with holder := some 2 }).line 2048 = { Line.reset with holder := some 2 } ∧
      (homeRead [1, 1, 0x40000, 0, 1, 0, 7] Line.reset).home 1 0x40000 ≠ 1) ∧
    (∀ n, (Map.find? (tasked n).tasks 7).map (·.left) = some n) := by
  refine ⟨⟨rfl, rfl, by decide, by decide⟩, fun n h => ?_, fun e => ⟨rfl, rfl⟩, ⟨⟨_, rfl⟩, by decide⟩, by decide, by decide, ⟨by decide, by decide, rfl, by decide, by decide, ⟨(fun h => nomatch h), rfl, .inl rfl, by decide, (fun v h => nomatch h)⟩⟩,
    ⟨by decide, by decide, by decide, by decide, rfl, fun w => ⟨(fun h => nomatch h), rfl, .inl rfl, by decide, (fun v h => nomatch h)⟩, by decide⟩, by decide, fun n => rfl⟩
  obtain rfl | rfl : n = 0 ∨ n = 1 := by omega
  · exact ⟨0x30000, by decide, by decide, by decide, rfl, rfl⟩
  · exact ⟨0x40008, by decide, by decide, by decide, rfl, rfl⟩
/-- A fragment that is about to fetch its next bundle, with its page in the core TLB, and its lines in the instruction cache or not. -/
def fetching_ (tlb : List Page) (ic : List Nat) (t : Nat) : State := { evWave [0, 0] id with now := t, cores := [(0, { Core.reset with tlb := tlb, ic := [(0, ic)] })], waves := (evWave [0, 0] id).waves.map fun p => (p.1, { p.2 with ctx := { p.2.ctx with seqs := [(0, Seq.start 0x10000 1 4)] } }) }
def lined_ (ls : List Nat) : State := { evWave [4, 0, 512] fun x => { x with ctx := { x.ctx with seqs := x.ctx.seqs.map fun q => (q.1, { q.2 with fetch := .busy ls }) } } with cores := [(0, { Core.reset with icDue := ls })] }
theorem witness_FragmentEvents_fetch :
    (∀ tlb ic, ∀ t ≤ 5, (fetching_ tlb ic t).ev = [0, 0] ∧ (Map.find? ((fetching_ tlb ic t).wave 0).ctx.seqs 0).map (fun g => (g.fetch, g.due, g.pc)) = some (.need, 4, 0x10000)) ∧
    (fetching_ [] [] 3).instLook 0 [] 0x10000 = none ∧ (fetching_ [{ programPage with flip := true }] [] 4).instLook 0 [] 0x10000 = some (.page { programPage with flip := true }) ∧
    (fetching_ [{ programPage with x := false }] [] 4).instLook 0 [] 0x10000 = some (.page { programPage with x := false }) ∧ ({ programPage with x := false } : Page).runs false = false ∧
    (∀ ic ∈ [[512], []], ∀ t ∈ [3, 4], (fetching_ [programPage] ic t).instLook 0 [] 0x10000 = some (.page programPage) ∧ programPage.flip = false ∧ programPage.runs false = true ∧ (fetching_ [programPage] ic t).read 0x10000 4 = 0) ∧
    headerOk 0 = true ∧ headerWords 0 = 1 ∧ 0x10000 % 2 ^ 16 + 4 * 1 ≤ 2 ^ 16 ∧ programPage.addr 0x10000 / 128 = 512 ∧ 512 ∈ Map.get [] ((fetching_ [programPage] [512] 4).core 0).ic (512 % 128) ∧
      512 ∉ Map.get [] ((fetching_ [programPage] [] 4).core 0).ic (512 % 128) ∧
    (Die.reset.tlbFind 0 (1 * 2 ^ 16) = none ∧ (({ Die.reset with tlb := [(1, [programPage])] } : Die).tlbFind 0 (1 * 2 ^ 16)).map (·.1) = some programPage ∧ ({ fetching_ [] [] 4 with ev := [0, 0, 1, 1] } : State).ev = [0, 0, 1, 1]) ∧
    (∀ ls ∈ [[512], [512, 513], [513]], (lined_ ls).ev = [4, 0, 512] ∧ (Map.find? ((lined_ ls).wave 0).ctx.seqs 0).map (·.fetch) = some (.busy ls)) := by
  refine ⟨fun _ _ t _ => ⟨rfl, rfl⟩, by decide, by decide, by decide, by decide, by decide, by decide, by decide, by decide, by decide, by decide, by decide, ⟨by decide, by decide, rfl⟩, by decide⟩
/-- Lanes 0 and 1 at the end of a bundle: lane 1 goes elsewhere, and the wave's other sequencers hold `seqs`. -/
def splitting (seqs : Map Seq) : State :=
  let s := machine [] 3
  { s with waves := [(0, { s.wave 0 with ctx := { (s.wave 0).ctx with seqs := (0, Seq.start 0x10000 3 0) :: seqs } })], cur := s.cur.map fun i => { i with outs := [(1, some (0x10100, 0))] } }
def full (f : Seq → Seq) : Map Seq := (List.range 7).map fun k => (k + 1, f (Seq.start 0x20000 (BitVec.ofNat 32 (2 ^ (k + 2))) k))
/-- An iteration of the inner of two levels ends at the bundle; and one level is left in the last iteration of it. -/
def ending (n : Word) : List Level := [{ start := 0x8000, fin := 0x10000, count := n, index := 0 }, { start := 0x7000, fin := 0x10000, count := 3, index := 1 }]
def ends (s : State) : Bool := match s.cur with
  | none => false
  | some i => match Map.find? (s.wave i.wave).ctx.seqs i.seq with
    | none => false
    | some g => g.parked.isNone && !i.sret && i.wrsr.isNone && decide (i.hold = .none) && (List.range 32).all (fun l => decide (Map.find? i.outs l ≠ some none)) && (s.wave i.wave).ctx.join.isEmpty &&
        decide (g.mask &&& ~~~(s.wave i.wave).ctx.vac ≠ 0)
theorem witness_FragmentEvents_ends :
    (∀ q ∈ [[], full id, full fun g => { g with parked := some 1 }], ends (splitting q) = true ∧ ((splitting q).wave 0).ctx.seqs.Pairwise fun p q => p.1 < q.1) ∧
    ((List.range 8).filter fun k => (Map.find? ((splitting (full id)).wave 0).ctx.seqs k).isNone) = [] ∧ ((List.range 24).find? fun n => (Map.find? ((splitting (full id)).wave 0).ctx.spill n).isNone) = some 0 ∧
    ((∀ e ∈ ((splitting (full id)).wave 0).ctx.seqs, e.2.parked = none) ∧ ((1, { Seq.start 0x20000 4 0 with parked := some 1 }) ∈ ((splitting (full fun g => { g with parked := some 1 })).wave 0).ctx.seqs) ∧
      ∀ q ∈ ((splitting (full fun g => { g with parked := some 1 })).wave 0).ctx.seqs, q.2.parked.isSome = true → q.1 ≠ 1 → 0 < q.2.stamp) ∧
    (loopsAfter 0x10000 (ending 2)).2.1 = some 0x8000 ∧ (loopsAfter 0x10000 (ending 1)).2.1 = some 0x7000 ∧ (loopsAfter 0x10000 []).2.1 = none ∧
    ((given .ct 0 0 0).cur.map (fun i => (i.sret, i.wrsr)) = some (false, none) ∧ ((given .ct 0 0 0).wave 0).ctx.vac ||| 1 ≠ BitVec.allOnes 32) := by
  refine ⟨by decide, by decide, by decide, ⟨by decide, by decide, by decide⟩, by decide, by decide, by decide, ⟨rfl, by decide⟩⟩
/-- A bundle that reconverges on token 2, of a fragment of lanes 0 and 1, where the table expects `expect`; lane 2 may stand parked there already. -/
def joining (expect arrived : Mask) (others : Map Seq) : State :=
  let s := State.reset.withProgram [0x30408000, 0x00090005, 0, 0]
  { s with ev := [0, 0, 0], waves := s.waves.map fun p => (p.1, { p.2 with ctx := { p.2.ctx with join := [(2, { expect := expect, arrived := arrived })], seqs := (p.2.ctx.seqs.map fun q => (q.1, { q.2 with mask := 3 })) ++ others } }) }
def waits (n : Nat) : Seq := { Seq.start 0x10000 4 0 with parked := some 2, loops := ending 2 |>.take n }
theorem witness_FragmentEvents_joins :
    (∀ q ∈ [[], [(3, waits 0)], [(3, waits 1)]], (joining 7 0 q).parksAt 0 0 = some 2 ∧ (∀ t ∈ ((joining 7 0 q).wave 0).traps, t.cause ≠ 0x11) ∧ ((joining 7 0 q).wave 0).ctx.seqs.Pairwise fun p q => p.1 < q.1) ∧
    (Awaits ((joining 7 0 []).wave 0).ctx { expect := 7, arrived := 0 ||| 3 } ∧ ¬Awaits ((joining 7 4 [(3, waits 0)]).wave 0).ctx { expect := 7, arrived := 4 ||| 3 }) ∧
    ((joining 4 0 []).parksAt 0 0 = none) ∧
    (let s := joining 7 0 []
     let g := (Map.find? (s.wave 0).ctx.seqs 0).getD (waits 0)
     s.waveRuns (s.wave 0) = true ∧ s.atHand g = true ∧ g.part = none ∧ (s.wave 0).ctx.within g.hold = true ∧ s.stoppedAtSafe (s.wave 0) 0 g = false ∧ (match s.nextBundle 0 g with | .bundle b => b.head.rcv && decide (b.head.rtok.val = 2) | _ => false) = true) := by
  refine ⟨by decide +kernel, ⟨by unfold Awaits; decide +kernel, by unfold Awaits; decide +kernel⟩, by decide +kernel, by decide +kernel⟩
/-- A latch with three records, of which one or two lanes pop; none; and one that is stale. -/
def popping (h : Head) : State := let s := machine [] 3; { s with waves := s.waves.map fun p => (p.1, { p.2 with ctx := { p.2.ctx with heads := [(1, h)] } }) }
def latch_ : Head := { handle := 0x100000000, spread := true, bound := true, stale := false, pos := 4, recs := [[1], [2], [3]] }
theorem witness_FragmentEvents_pops :
    ((popping latch_).wave? 0).isSome = true ∧ ((popping latch_).wave 0).ctx.head 1 = latch_ ∧
    (let c : Capture := { cap 3 with avail := [0, 3, 0, 0] }
     min (c.avail.getD 1 0) ((List.range 32).countP fun l => c.mask.getLsbD l && !((popping latch_).wave 0).ctx.vac.getLsbD l) = 2 ∧ min (c.avail.getD 1 0) 1 = 1 ∧ ((cap 3).avail.getD 1 0) = 0) ∧
    (({ latch_ with stale := true } : Head).stale = true ∧ ({ latch_ with bound := false } : Head).bound = false) ∧ latch_.handle.toNat / 2 ^ 32 % 4 = 1 := by decide
/-- A spilled fragment whose time in the spill area is up, and one cycle before. -/
theorem witness_FragmentEvents_spills : ∀ t, ({ spilling [(5, Seq.start 0x10000 1 0)] with now := t } : State).ev = [0] ∧
    Map.find? (({ spilling [(5, Seq.start 0x10000 1 0)] with now := t } : State).wave 0).ctx.spill 0 = some (Seq.start 0x10000 2 0) ∧ (Seq.start 0x10000 2 0).parked = none ∧
      (Seq.start 0x10000 2 0).stamp + 1024 = 1024 := fun _ => ⟨rfl, rfl, rfl, rfl⟩

/-- An epilogue whose chunk k is to be stored at 0x10000, and its command, which knows the pages `ps`. -/
def epiOp : MxOp := { mxOp with kind := 2, cmd := 6 }
def epiCmd (ps : List (Nat × Xlate)) : Cmd := { command 16 with dst := 0x10000, pages := ps }
def epiAt (k : Nat) (ps : List (Nat × Xlate)) : State := { clovered [0, 1, k] { Clover.reset with ops := [(1, epiOp)] } with cmds := [(6, epiCmd ps)] }
def epiRuns (k : Nat) : List (Nat × List (BitVec 8)) := (epiOp.chunkBytes k).1.flatMap fun (p : Nat × List (BitVec 8)) => cutLines 64 (vaAdd 0x10000 p.1) p.2
/-- A wave whose walk has claimed a POOL entry. -/
def claiming : State := { stopped .watchdog [0, 0, 0] with waves := (stopped .watchdog [0, 0, 0]).waves.map fun p => (p.1, { p.2 with claims := [(0x40008, 1)] }) }
theorem witness_MatrixAndManagerEvents_chunks :
    (∀ k ∈ [0, 3], ∀ ps, (epiAt k ps).ev = [0, 1, k] ∧ Map.find? ((epiAt k ps).clover 0).ops 1 = some epiOp ∧ epiOp.status = 0 ∧ epiOp.check = none ∧ (epiAt k ps).cmd? epiOp.cmd = some (epiCmd ps)) ∧
    (∀ k ∈ [0, 3], ∀ p ∈ epiRuns k, ((epiCmd []).page p.1).isNone = true ∧ canonical (BitVec.ofNat 64 (p.1 / 2 ^ 16 * 2 ^ 16)) = true ∧ ((epiAt k []).die (epiCmd []).die).tlbFind (epiCmd []).part (p.1 / 2 ^ 16 * 2 ^ 16) = none) ∧
    (∀ k ∈ [0, 3], ∀ p ∈ epiRuns k, ((epiCmd [(1, .page programPage)]).page p.1).isSome = true ∧ (epiAt k []).cmdXlate (epiCmd [(1, .page programPage)]) p.1 = .page programPage ∧ ((epiCmd [(1, .fault)]).page p.1).isSome = true ∧
      (epiAt k []).cmdXlate (epiCmd [(1, .fault)]) p.1 = .fault) ∧
    (∀ k ∈ [0, 3], (epiAt k [(1, .page programPage)]).chunkFault (epiCmd [(1, .page programPage)]) (epiRuns k) = none ∧ (epiAt k [(1, .fault)]).chunkFault (epiCmd [(1, .fault)]) (epiRuns k) = some (3, 0x10000)) ∧
    (({ epiOp with status := 1 } : MxOp).status ≠ 0 ∧ ({ epiCmd [] with out := 0 } : Cmd).out = 0 ∧ epiOp.chunks < 4 ∧ 4 ≤ ({ epiOp with chunks := 4 } : MxOp).chunks) ∧
    ((claiming.wave 0).stop = .watchdog ∧ (claiming.wave 0).dead = false ∧ (0x40008, 1) ∈ (claiming.wave 0).claims) ∧
    (({ evWave [0, 1, 9] id with teams := [(0, { programTeam with timing := [(1, 9)] })], launches := [(0, programLaunch)] } : State).launch? 0).isSome = true ∧ programTeam.area = none ∧ ((evWave [] id).part 0).ctxlen = 0 := by
  refine ⟨fun k _ ps => ⟨rfl, rfl, rfl, rfl, rfl⟩, by decide +kernel, by decide +kernel, by decide +kernel, by decide, by decide, by decide⟩
/-- A read on the link, sent in swath 2; one answered from a write-back at the link in swath 2; and a queue of three, of which the entry allows the last two. -/
def reading : Req := { writing with write := false, swath := some 2 }
def answered : Req := { writing with write := false, swath := none, back := some 2 }
def three : Link := { running with table := [(0, 0)], queues := [(0, [3, 4, 5])] }
def threeRs : Map Req := [(3, { writing with part := 1 }), (4, writing), (5, { writing with write := false })]
/-- A write-back of line 0 that stands at the link, and a read of the line. -/
def readBehind : State := linked [5] running [(4, writing), (5, { writing with write := false })]
/-- The count of a codeword's errors, a run of 15, and an access that waits on a DOWN link since cycle 1, after 3 cycles before. -/
def badly (n : Nat) : Link := { running with sent := [(2, [4])], badRun := [(0, (16, n))] }
def downed (stall : Dword) (t : Nat) (others : Map Access) : State := { accessing [0, 3] { access (.load 4 false) false [memLine] with downFrom := some 1, downSum := 3 } with
  now := t, parts := [(0, { Part.reset with lnkstall := stall })]
  waves := (evWave [0, 3] id).waves.map fun p => (p.1, { p.2 with accs := others ++ [(3, { access (.load 4 false) false [memLine] with downFrom := some 1, downSum := 3 })] }) }
theorem lineComes_none (s : State) (l n : Nat) (h : (s.link l).sent = []) (k : ∀ p ∈ s.reqs, p.2.back = none) : ¬LineComes s l n := by
  rintro (⟨p, hp, -⟩ | ⟨p, hp, -, e⟩)
  · rw [h] at hp; cases hp
  · rw [k p hp] at e; cases e
theorem witness_LinkEvents_requests :
    (readBehind.req? 5 = some { writing with write := false } ∧ readBehind.home 0 0 = 0 ∧ (∃ p ∈ readBehind.reqs, p.1 ≠ 5 ∧ p.2.write = true ∧ p.2.line = 0) ∧ swathFrom (readBehind.link 0) readBehind.now = 0 ∧ ∀ n, ¬LineComes readBehind 0 n) ∧
    (let s := linked [0] three threeRs
     three.up = true ∧ three.next ≤ 0 + 1 ∧ beatOf three (40 * 0) = s.now ∧ three.sent = [] ∧ LiveEntry three 0 0 ∧ OldestAllowed s [3, 4, 5] 0 true (some 4) ∧ OldestAllowed s [3, 4, 5] 0 false (some 5) ∧
      OldestAllowed s [3, 4, 5] 0x20 true none ∧ (∀ p ∈ s.reqs, p.2.back = none ∧ ∀ w a i, Waiter.own w a i ∉ p.2.waiters)) ∧
    (LiveEntry { three with table := [], lent := [(1, 0, [(0, 0)])] } 0 0 ∧ LiveEntry Link.reset 0 0x60) ∧
    (let s := linked [0, 2, 1] { running with sent := [(2, [4])] } [(4, reading)]
     (s.link 0).sent = [(2, [4])] ∧ s.req? 4 = some reading ∧ s.now < beatOf (s.link 0) (40 * (2 + 192) + 39) ∧ beatOf (s.link 0) (40 * (2 + 192) + 39) ≤ ({ s with now := 975 } : State).now) ∧
    (let s := linked [0, 2, 2, 4] running [(4, answered)]
     s.req? 4 = some answered ∧ (s.link 0).up = true ∧ s.now < beatOf (s.link 0) (40 * 2 + 39) ∧ beatOf (s.link 0) (40 * 2 + 39) ≤ 15 ∧ (linked [] Link.reset []).link 0 = Link.reset ∧ Link.reset.up = false) ∧
    (let s := linked [0, 2, 4, 4] running [(4, reading)]
     s.req? 4 = some reading ∧ reading.waiters = [] ∧ reading.line < 2 ^ 45 ∧ (s.line 0).fetching ≠ some 4 ∧ (({ s with lines := [(0, { Line.reset with fetching := some 4 })] } : State).line 0).fetching = some 4 ∧
      (Map.get [] (s.die 0).cache 0).length < 16) ∧
    ((linked [0, 16, 3, 0] (badly 15) [(4, { writing with swath := some 2 })]).packets = [] ∧ (badly 15).up = true ∧ Map.get (0, 0) (badly 15).badRun 0 = (16, 15) ∧ Map.get (0, 0) (badly 3).badRun 0 ≠ (16, 15) ∧ (Map.get (0, 0) (badly 3).badRun 0).1 ≠ 0 ∧
      CodewordMeets 0 2 8 39 ∧ ¬CodewordMeets 16 2 8 39) ∧
    ((linked [0, 2, 5] { running with sent := [(2, [4])] } [(4, reading)]).req? 4 = some reading) ∧
    (∀ w ∈ [2, 4, 7, 8], ({ running with width := w } : Link).up = true ∧ ({ running with width := w } : Link).rtwl < 8) := by
  refine ⟨⟨rfl, by decide, ⟨(4, writing), .head _, by decide, rfl, rfl⟩, by decide, fun n => lineComes_none _ _ _ rfl (by decide)⟩,
    ⟨rfl, by decide, by decide, rfl, by unfold LiveEntry; rw [if_pos (by decide)]; rfl, .inr ⟨[3], 4, [5], writing, rfl, rfl, rfl, ⟨rfl, by unfold Gives; decide⟩, fun j hj x hx => ?_⟩, .inr ⟨[3, 4], 5, [], { writing with write := false }, rfl, rfl, rfl, ⟨rfl, by unfold Gives; decide⟩, fun j hj x hx => ?_⟩,
      .inl ⟨rfl, fun j hj x hx => ?_⟩, fun p hp => ?_⟩,
    ⟨by unfold LiveEntry; rw [if_neg (by decide)]; exact .inr ⟨1, 0, _, rfl, by decide⟩, by unfold LiveEntry; rw [if_neg (by decide)]; exact .inl ⟨rfl, by decide⟩⟩, by decide, by decide, ⟨rfl, rfl, by decide, by decide, rfl, by decide⟩, ⟨rfl, by decide, rfl, by decide, by decide, by unfold CodewordMeets; decide, by unfold CodewordMeets; decide⟩, rfl, by decide⟩
  · obtain rfl := List.mem_singleton.1 hj
    obtain rfl : x = { writing with part := 1 } := Option.some.inj (hx.symm.trans rfl)
    exact fun h => absurd h.2.1 (by decide)
  · simp only [List.mem_cons, List.not_mem_nil, or_false] at hj
    obtain rfl | rfl := hj
    · obtain rfl : x = { writing with part := 1 } := Option.some.inj (hx.symm.trans rfl)
      exact fun h => absurd h.1 (by decide)
    · obtain rfl : x = writing := Option.some.inj (hx.symm.trans rfl)
      exact fun h => absurd h.1 (by decide)
  · simp only [List.mem_cons, List.not_mem_nil, or_false] at hj
    obtain rfl | rfl | rfl := hj
    · obtain rfl : x = { writing with part := 1 } := Option.some.inj (hx.symm.trans rfl)
      exact fun h => absurd h.2.1 (by decide)
    · obtain rfl : x = writing := Option.some.inj (hx.symm.trans rfl)
      exact fun h => absurd h.2.2.2.2 (by decide)
    · obtain rfl : x = { writing with write := false } := Option.some.inj (hx.symm.trans rfl)
      exact fun h => absurd h.1 (by decide)
  · simp only [linked, threeRs, List.mem_cons, List.not_mem_nil, or_false] at hp
    obtain rfl | rfl | rfl := hp <;> exact ⟨rfl, fun w a i h => nomatch h⟩
/-- One crossing recorded, one pending retraining; a threshold below the count; a line code of symbols. -/
def crossed_ (c : List (Nat × Nat × Nat)) (r : Option Nat) : Link := { running with crossings := c, retrainTill := r, fecCnt := [(9, 4096)] }
theorem witness_LinkEvents_steps :
    (let s := linked [1, 0, 1] running []
     s.ev = [1, 0, 1] ∧ 0 < 1 ∧ 0 < 64) ∧
    ((linked [0] { running with swstat := 1, shadow := [(0, 0)], want := some 4, wakeTill := some 0 } []).now = 0 ∧ frameFrom { running with swstat := 1 } 0 = 0) ∧
    (let s := linked [0, 9] (crossed_ [] none) []
     9 < 16 ∧ (s.link 0).width ∈ [2, 4, 7, 8] ∧ (s.link 0).berI.toNat % 2 ^ 24 ≠ 0 ∧ 9 ∉ (s.link 0).crossed ∧ Carrying (s.link 0) 9 ∧ (s.link 0).state ≠ .offline ∧ ¬Carrying { s.link 0 with width := 7, rtwl := 1 } 9) ∧
    (let s := linked [0, 16] (crossed_ [(0, 1, 1)] (some 90000)) []
     (s.link 0).crossings = [(0, 1, 1)] ∧ (s.link 0).retrainTill = some (s.now + 90000) ∧ (s.link 0).width = 8 ∧ (s.link 0).state = .run) ∧
    ((linked [0] { running with state := .retrain, width := 7, retrainTill := some 0, crossings := [(5, 0, 3)] } []).ev = [0] ∧ (linked [0] { running with sent := [(2, [4])] } [(4, reading)]).req? 4 = some reading) ∧
    (let s := linked [0] Link.reset [(4, answered)]
     (s.link 0).state = .down ∧ (s.link 0).crossings = [] ∧ (s.link 0).sent = [] ∧ answered.link = some 0 ∧ answered.back = some 2) ∧
    (∀ a ∈ [0, 1], ({ running with width := 4, want := some 8 } : Link).wakeTill = none ∧ (∃ w, ({ running with width := 4, want := some 8 } : Link).want = some w ∧ 4 < w) ∧ (linked [0, a] running []).ev = [0, a]) ∧
    (∀ t, (downed 5 t []).ev = [0, 3] ∧ ((downed 5 t []).part 0).lnkstall.toNat = 5 ∧ Map.find? ((downed 5 t []).wave 0).accs 3 = some { access (.load 4 false) false [memLine] with downFrom := some 1, downSum := 3 } ∧ ((downed 5 t []).wave 0).traps = []) ∧
    (3 + (3 - 1) ≤ 5 ∧ 5 < 3 + (4 - 1)) ∧
    ((∀ p ∈ ((downed 5 4 []).wave 0).accs, p.1 < 3 → p.2.open = false) ∧ (∃ p ∈ ((downed 5 4 [(2, access (.load 4 false) false [memLine])]).wave 0).accs, p.1 < 3 ∧ p.2.open = true)) ∧
    (let s := linked [0] { running with shadow := [(7, 0x10)] } []
     TableRefused s 0) ∧
    (¬TableRefused (linked [0] running []) 0) ∧
    (let s := { linked [0, 1] running [] with featack := 128, agenda := [] }
     s.featack.getLsbD 7 = true ∧ 1 % 4 ≠ 3 ∧ (s.link 0).wakeTill = none ∧ ¬∃ p ∈ s.agenda, p.1 = s.now ∧ p.2.1 = Instr.autoWake ∧ p.2.2.headD 0 = 0) ∧
    (let s := { linked [0, 0] { running with width := 4 } [] with agenda := [(0, .autoWake, [0, 1])] }
     s.agenda = [(s.now, .autoWake, [0, 1])] ∧ (s.link 0).wakeTill = none ∧ (s.link 0).state = .run ∧ (s.link 0).width ≠ 8) ∧
    (∀ v ∈ [4096, 4097], (linked [0, 1, v] (crossed_ [] none) []).ev = [0, 1, v] ∧ v < 2 ^ 24 ∧ (v ≤ Map.get 0 (crossed_ [] none).fecCnt 9 ↔ v = 4096) ∧ Carrying (crossed_ [] none) 9) ∧
    (1024 ≤ (1024#32 : Word).toNat ∧ (3#32 : Word).toNat % 4 = 3 ∧ State.reset.featack.getLsbD 7 = false ∧ ¬2 ^ 24 ≤ (0xFFFFFF#32 : Word).toNat ∧ 16 ≤ (16#32 : Word).toNat) := by
  refine ⟨⟨rfl, by decide, by decide⟩, by decide, ⟨by decide, by decide, by decide, by decide, by unfold Carrying; decide, by decide, by unfold Carrying; decide⟩, by decide, ⟨rfl, rfl⟩, by decide, fun a _ => ⟨rfl, ⟨8, rfl, by decide⟩, rfl⟩,
    fun t => ⟨rfl, rfl, rfl, rfl⟩, by decide, by decide, .inr (.inl ⟨⟨7, by decide, by decide⟩, rfl⟩), ?_, ⟨by decide, by decide, rfl, fun ⟨p, hp, _⟩ => nomatch hp⟩, ⟨rfl, rfl, rfl, by decide⟩, fun v h => ?_, by decide⟩
  · rintro (h | ⟨⟨i, -, h⟩, -⟩ | ⟨p, hp, t, ⟨j, hj, h, -⟩, -⟩)
    · exact absurd h (by decide)
    · have k : decide ((0x60#32 : Word).toNat / 2 ^ 4 % 2 = 1) = true := h
      exact absurd k (by decide)
    · have e : ∀ j < 8, (Part.reset.windowLim j) < Part.reset.windowBase j := by decide
      have : (linked [0] running []).part p = Part.reset := rfl
      rw [this] at h
      exact absurd h (by have := e j hj; omega)
  · simp only [List.mem_cons, List.not_mem_nil, or_false] at h
    obtain rfl | rfl := h <;> exact ⟨rfl, by decide, by decide, by unfold Carrying; decide⟩
/-- Packet 4 of a wave's enqueue, of an engine's read, and of an answer to a peer, at peer link 0 of die 0. -/
def peered (ev : List Nat) (p : Packet) (t : Nat) : State := { accessing ev (access (.store 2) true [scrLine]) with
  now := t, packets := [(4, p)], links := [(64, { running with entry := [4] })], qops := [(7, { QuOp.blank with kind := .enq, wave := some 0, op := 9 })]
  cmds := [(6, { command 0 with src := 0x20000, dst := 0x10000 })] }
def enqPacket : Packet := { packet with op := some 7, cmd := none }
def readPacket : Packet := { packet with args := [6, 0, 0, 0x20000, 0x10000, 8] }
/-- A page of die 0's TLB; a peer's accesses to it. -/
def peering (ev : List Nat) (p : Page) : State := { evWave ev id with dies := [(0, { Die.reset with tlb := [(1, [p])] })], lines := [(512, { Line.reset with holder := some 0 })] }
theorem witness_EngineEvents_peers :
    ((peered [0, 4] enqPacket 0).ev = [0, 4] ∧ Map.find? (peered [0, 4] enqPacket 0).packets 4 = some enqPacket ∧ enqPacket.op = some 7 ∧ ((peered [0, 4] enqPacket 0).qop? 7).map (·.wave) = some (some 0) ∧
      ((peered [0, 4] enqPacket 0).wave 0).mustWait 9 = true ∧ ¬∃ q o w, readPacket.op = some q ∧ (peered [0, 4] readPacket 0).qop? q = some o ∧ o.wave = some w ∧ ((peered [0, 4] readPacket 0).wave w).mustWait o.op = true) ∧
    (∀ t < 2, ((peered [6, 64] enqPacket t).link 64).entry = 4 :: [] ∧ ((peered [6, 64] enqPacket t).link 64).up = true ∧ beatOf ((peered [] enqPacket t).link 64) (8 * max 0 (flitFrom ((peered [] enqPacket t).link 64) t)) = t) ∧
    (let k := { running with t0 := 1, entry := [4] }
     beatOf k (8 * max k.next (flitFrom k 0)) ≠ 0) ∧ (({ packet with reply := true } : Packet).reply = true ∧ readPacket.reply = false) ∧
    (∀ c d, (peered [1, 4, c, d] { enqPacket with flit := some 0, earliest := 9 } 8).ev = [1, 4, c, d] ∧ 8 < 9 ∧ enqPacket.flit = none) ∧
    (let s := peered [1, 4, 0, 5] { readPacket with flit := some 0 } 0
     s.cmd? 6 = some { command 0 with src := 0x20000, dst := 0x10000 } ∧ (command 0).code = 0 ∧ (command 0).op ≠ 16 ∧ (command 0).peerD = false ∧ readPacket.args = [6, 0, 0, 0x20000, 0x10000, 8] ∧ ({ readPacket with args := [6, 1] } : Packet).args.getD 1 0 = 1) ∧
    ((peered [4, 0] { enqPacket with flit := some 0 } 0).ev = [4, 0] ∧ Map.find? State.reset.packets 4 = none) ∧
    (let ws : List Word := [0x107, 5, 6, 7]
     ∃ w r, ws = w :: r ∧ r.length = popCount8 (w.toNat % 256) ∧ 0x100000000 < 2 ^ 38) ∧
    (∀ p ∈ [programPage, { programPage with w := false }, { programPage with coh := 3 }], (((peering [] p).die 0).tlbFind 0 0x10000).map (·.1) = some p ∧ (peering [] p).pageAt p 0x10000 = .page p ∧ p.flip = false) ∧
    (canonical (BitVec.ofNat 64 0x10000) = true ∧ 0x10000 % 2 ^ 16 + 8 ≤ 2 ^ 16) ∧
    (let s := peering [7, 0, 1, 3, 0, 0x10000, 8, 5] programPage
     (s.devReady 0 0 0x10000 8).1 = 0 ∧ programPage.w = true ∧ programPage.coh ≠ 3 ∧ ∀ j < 8, s.pageAt programPage (0x10000 + j) = .page programPage ∧ s.scratchAt (programPage.addr (0x10000 + j)) = none) ∧
    (programPage.r = true ∧ (({ peering [8, 0, 1, 3, 0, 0x10000, 8] programPage with lines := [(512, { Line.reset with poison := true })] } : State).line 512).poison = true) ∧
    (let s := commanded [6, 4, 0, 0x20000, 0x10000, 8, 0x10000] (command 0) Line.reset
     ∀ p ∈ [programPage, { programPage with flip := true }, { programPage with w := false }], let u := { s with dies := [(0, { Die.reset with tlb := [(1, [p])] })] }
       Map.get 0 (u.clover 0).eng 2 ≤ u.now ∧ (command 0).pages = [] ∧ ((u.die 0).tlbFind 0 0x10000).map (·.1) = some p ∧ u.pageAt p 0x10000 = .page p ∧ p.hb = false ∧ p.addr 0x10000 < 2 ^ 51) ∧
    (let s := commanded [6, 7, 0, 0x20000, 0x30000, 8, 9, 0x10000] (command 0) { Line.reset with holder := some 0 }
     PlainBytes s 0x10000 8 ∧ (∀ w, Writable s 0 512 false w) ∧ Untracked s 512) ∧
    (let s := commanded [2, 1, 6, 1, 0, 0x20000, 0x30000, 8, 0x10000] (command 0) Line.reset
     s.ev.getD (if 1 = 1 then 8 else 9) 0 = 0x10000 ∧ s.home 0 0x10000 = 0 ∧ ({ s with ev := [3, 0, 1, 0x10000, 0, 7] } : State).home 1 0x10000 = 0) := by
  refine ⟨⟨rfl, rfl, rfl, rfl, by decide, fun ⟨q, o, w, h, _⟩ => nomatch h⟩, by decide, by decide, by decide, fun c d => ⟨rfl, by decide, rfl⟩, ⟨rfl, rfl, by decide, rfl, rfl, rfl⟩, ⟨rfl, rfl⟩, ⟨_, _, rfl, by decide, by decide⟩,
    by decide, by decide, ⟨by decide, rfl, by decide, by decide⟩, by decide, by decide, ⟨⟨by decide, by decide, by decide⟩, fun w => ⟨(fun h => nomatch h), rfl, .inl rfl, by decide, (fun v h => nomatch h)⟩, untracked _ rfl rfl _⟩, by decide⟩

/-- The launch queue of partition 0 is queue 0 of die 0, cached, with or without an entry; a launch of a cohort of two teams in one clover of die 0. -/
def doored (st : Nat) (tail : Word) : State := { State.reset with ev := [0, st], dies := [(0, { Die.reset with qctx := [(qkey 0 0, { qctx 0 with tail := tail, claim := tail })] })] }
def cohortLaunch (s : State) : Launch := { programLaunch with lrec := { programRecord with cohort := true, teams := 1 }, reports := (List.range 4).map fun d => (d, s.loads 0 d), plan := [{ number := 0, die := 0, core := 1, granule := 0, team := none }] }
def clovered0 (is : List Item) (l : Launch) : State := { State.reset with ev := [0], launches := [(1, l)], parts := [(0, { Part.reset with clovers := 1 })], dies := [(0, { Die.reset with items := is, frozen := 1 })] }
theorem fitsAt0 (c : Nat) : FitsAt { core := c, used := 0, alloc := [] } 1 0 0 := ⟨(by decide : 0 + 1 ≤ 16), by rw [if_pos rfl]⟩
theorem witness_TeamEvents_launches :
    (∀ st ∈ [0, 9], (doored st 0).ev = [0, st] ∧ ((doored st 0).die 0).failed = false ∧ ((doored st 0).die 0).state = .run ∧ ((doored st 0).part 0).lqh = 0) ∧
    (∀ tail, Map.find? ((doored 9 tail).die 0).qctx (qkey (0 / 2 ^ 34 % 16) (0 % 2 ^ 20)) = some { qctx 0 with tail := tail, claim := tail }) ∧ ({ Die.reset with state := .quiescing, phase := 4 } : Die).phase = 4 ∧
    (0x10000 % 2 ^ 16 + 256 ≤ 2 ^ 16 ∧ canonical (BitVec.ofNat 64 0x10000) = true ∧ (∀ g e, (({ State.reset with ev := [0, 2, 0x10000] } : State).die 0).tlbFind 0 0x10000 = some (g, e) → ({ State.reset with ev := [0, 2, 0x10000] } : State).pageAt g 0x10000 ≠ .fault)) ∧
    (let s := { clovered0 [] programLaunch with ev := [0, 5, 1, 0] }
     s.launch? 1 = some programLaunch) ∧
    (let s := clovered0 [] (cohortLaunch { State.reset with parts := [(0, { Part.reset with clovers := 1 })] })
     let x := cohortLaunch { State.reset with parts := [(0, { Part.reset with clovers := 1 })] }
     s.launch? 1 = some x ∧ x.reports.map (fun p => p.2.map fun l => (l.core, l.used)) = [[(0, 0), (1, 0), (2, 0), (3, 0)], [], [], []] ∧ (∀ d < 4, (s.die d).rr < 96) ∧ 0 < x.lrec.teams ∧ (List.range x.lrec.teams) = [0]) ∧
    CohortAssigned 1 0 [(0, [{ core := 0, used := 0, alloc := [] }])] [] [0] (some [{ number := 0, die := 0, core := 0, granule := 0, team := none }]) ∧
    CohortAssigned 1 0 [(0, [{ core := 0, used := 16, alloc := [] }])] [] [0] none ∧
    (∀ b ∈ (cohortLaunch State.reset).plan, b.team = none) := by
  refine ⟨by decide, fun _ => rfl, rfl, ⟨by decide, by decide, fun g e h => nomatch h⟩, rfl, by decide, ?_, .inl ⟨fun k hk ⟨l, hl, g, h⟩ => ?_, rfl⟩, by decide⟩
  · refine .inr ⟨0, by decide, _, 0, some [], ⟨_, .head _, 0, fitsAt0 0⟩, fun j hj => absurd hj (Nat.not_lt_zero j), ⟨.head _, fitsAt0 0, fun m hm h _ => ?_⟩, rfl, rfl⟩
    obtain rfl := List.mem_singleton.1 hm
    exact .inr ⟨rfl, Nat.le_refl _⟩
  · obtain rfl | rfl | rfl | rfl : k = 0 ∨ k = 1 ∨ k = 2 ∨ k = 3 := by omega
    · obtain rfl := List.mem_singleton.1 hl
      exact absurd h.1 (by decide)
    all_goals nomatch hl
/-- The core of a partition with one clover that R345 chooses for a team of one wave: core 0, and no core where each has its sixteen slots in use. -/
theorem witness_TeamEvents_placing :
    (placing.parts = [(0, { Part.reset with clovers := 1 })] ∧ (placing.die 0).state = .run ∧ (placing.die 0).frozen = 0 ∧ (placing.die 0).items = [item] ∧ item.team = none ∧ item.step ≠ 0 ∧ item.task = false ∧ item.ready ≤ placing.now ∧
      placing.launch? 1 = some programLaunch ∧ programLaunch.lrec.scratch = 0 ∧ (placing.die 0).rr < 96) ∧
    (placing.loads 0 0 = (List.range 4).map fun k => { core := k, used := 0, alloc := [] }) ∧ ChosenCore (placing.loads 0 0) 0 1 0 { core := 0, used := 0, alloc := [] } 0 ∧
    (let s := { placing with waves := (List.range 64).map fun k => (k, Wave.blank) }
     ∀ ld ∈ s.loads 0 0, ld.used = 16) ∧ (Part.reset.psched.getLsbD 2 = false) ∧
    (let s := clovered0 [{ item with step := 0 }] (cohortLaunch State.reset)
     (s.die 0).items = [{ item with step := 0 }] ∧ s.launch? 1 = some (cohortLaunch State.reset) ∧ (cohortLaunch State.reset).plan.filter (·.die == 0) = [{ number := 0, die := 0, core := 1, granule := 0, team := none }]) ∧
    (let i : Item := { item with launch := 0, team := some 0 }
     let s := { roomy (0 :: i.code ++ [9]) { programTeam with area := some 0 } 0 with launches := [(0, programLaunch)] }
     (s.die 0).state = .run ∧ s.team? 0 = some { programTeam with area := some 0 } ∧ s.launch? programTeam.launch = some programLaunch ∧ programTeam.launch = i.launch ∧ s.partCores programLaunch.part 0 ≠ []) := by
  have h : placing.loads 0 0 = (List.range 4).map fun k => { core := k, used := 0, alloc := [] } := by decide +kernel
  refine ⟨by decide, h, ?_, by decide +kernel, by decide, by decide, by decide +kernel⟩
  rw [h]
  refine ⟨by decide, fitsAt0 0, fun m hm _ _ => .inr ?_⟩
  have : ∀ m ∈ (List.range 4).map fun k => ({ core := k, used := 0, alloc := [] } : Load), 0 = m.used := by decide
  exact ⟨this m hm, Nat.zero_le _⟩
/-- A distributor's list whose one item fits the room of another, and one that does not; a resident team on the clover of a resize. -/
theorem witness_TeamEvents_distributors :
    (let s := { launched programLaunch with dies := [(2, { Die.reset with items := [{ item with first := false, count := 3 }] })] }
     (s.die 2).frozen = 0 ∧ (s.die 2).state = .run ∧ (s.die 2).items = [{ item with first := false, count := 3 }] ∧ s.launch? 1 = some programLaunch ∧ programLaunch.lrec.cohort = false ∧ 0 < 3 ∧ 0 + 4 * 3 < 2 ^ 25 ∧
      (programLaunch.lrec.waves ≤ [1, 0].getD (2 * programLaunch.part) 0 ∧ programLaunch.lrec.scratch / 128 ≤ [1, 0].getD (2 * programLaunch.part + 1) 0) ∧ ¬programLaunch.lrec.waves ≤ [0, 0].getD (2 * programLaunch.part) 0) ∧
    (∀ i ∈ [item, { item with team := some 3, swap := 7 }], ([1, 2, 0] ++ i.code).length = 3 + i.code.length ∧ i.code ≠ []) ∧
    (∀ st ∈ [0, 1, 2, 3, 4, 5], (let s := { placing with ev := [0, 0, 1, st], dies := [], teams := [(0, { programTeam with launch := 1, core := 3 })] }
      s.ev = [0, 0, 1, st] ∧ (∀ d < 4, (s.die d).frozen = 0) ∧ (s.team? 0).map (fun t => (t.state, t.core / 4, t.deadline)) = some (.resident, 0, none) ∧ (s.part 0).resize ≠ 1 ∧ (s.part 0).clovers.getLsbD 0 = true)) := by
  refine ⟨by decide, by decide, by decide⟩
/-- A team with room for its context, one without, and the stages of its swap. -/
def saving (ev : List Nat) (t : Team) : State := { roomy ev t 0x100000 with launches := [(1, programLaunch)] }
theorem witness_TeamEvents_swaps :
    ((saving [0, 0] moving).team? 0 = some moving ∧ (saving [0, 0] moving).launch? moving.launch = some programLaunch ∧ FreeArea (saving [0, 0] moving) moving programLaunch 0x13400 0) ∧
    (∀ n c, ¬FreeArea ({ saving [0, 0] moving with parts := [] } : State) moving programLaunch n c) ∧
    (∀ f, (saving [0, 4, f] moving).ev = [0, 4, f]) ∧
    (let s := saving [0, 2] { moving with area := some 0 }
     (s.devReady 0 0 0 0x13400).1 = 0 ∧ ({ moving with area := some 0 } : Team).area = some 0 ∧ moving.scratch = 0) ∧
    (let t : Team := { moving with scratch := 128, window := [(0x40000, 0, 128)] }
     t.window = [(0x40000, 0, 128)] ∧ 128 * 0 < 128 ∧ 0x40000 % 128 = 0 ∧ 0x40000 + 128 * 1 ≤ 2 ^ 51 ∧ Memory.wf t.bytes = true ∧ (saving [0, 0] t).devFlips 0 0 (programLaunch.lrec.window 0 + 0) 128 = false ∧
      ∀ w, Writable (saving [0, 0] t) 0 (0x40000 / 128 + 0) false w) := by
  refine ⟨⟨rfl, rfl, by decide, ⟨⟨by decide, fun b h => nomatch h⟩, fun e h => absurd h (Nat.not_lt_zero e)⟩, by decide +kernel⟩, fun n c h => ?_, fun f => rfl, by decide +kernel,
    ⟨rfl, by decide, by decide, by decide, by decide, by decide +kernel, fun w => ⟨(fun h => nomatch h), rfl, .inl rfl, by decide, (fun v h => nomatch h)⟩⟩⟩
  obtain ⟨rfl, ⟨⟨h, -⟩, -⟩, -⟩ := h
  exact absurd h (by have : ({ saving [0, 0] moving with parts := [] } : State).part programLaunch.part = Part.reset := rfl
                     rw [this]; exact fun k => absurd (Nat.le_trans (Nat.le_add_left _ _) k) (by decide))

/-- A host access at its home: a scratch window there, a holder, none, and a read under way. -/
def hostAt (k : Line) (rs : Map Req) (ts : Map Team) : State := { hosted [2, 1, 0, 0] false with lines := [(512, k)], reqs := rs, teams := ts }
/-- A partition that is given the clover of another. -/
def taking : State := { State.reset with ev := [0, 1], clovers := [(0, { Clover.reset with owner := some 1 })] }
theorem witness_HostEvents_home :
    ((hostAt Line.reset [] []).ev = [2, 1, 0, 0] ∧ (hostAt Line.reset [] []).home 0 0x10000 = 0 ∧ (hosted [2, 1, 0, 1] false).home 0 0x10000 ≠ 1 ∧ (hostAt Line.reset [] []).scratchAt 0x10000 = none ∧
      ((hostAt Line.reset [] []).line 512).grant = none ∧ ((hostAt Line.reset [] []).line 512).holder = none ∧ ((hostAt { Line.reset with holder := some 2 } [] []).line 512).holder = some 2) ∧
    ((hostAt Line.reset [] [(3, { team with window := [(0x10000, 0, 128)] })]).scratchAt 0x10000 = some (3, 0)) ∧
    (let s := hostAt { Line.reset with fetching := some 4 } [(4, reading)] []
     (s.line 512).fetching = some 4 ∧ s.req? 4 = some reading) ∧
    ((∀ w, Writable (hosted [2, 2, 0] true) 0 512 false w) ∧ Untracked (hosted [2, 2, 0] true) 512) ∧
    ((∀ w, Writable (flipping 0 []) 0 2048 false w) ∧ Untracked (flipping 0 []) 2048 ∧ (flipping 0 []).home 0 0x40008 = 0) ∧
    (∀ s : State, s.reqs = [] → ∀ q ∈ s.reqs, q.2.write = true → ({ programPage with flip := true } : Page).hasLine q.2.line = false) ∧
    ({ programPage with flip := true } : Page).hasLine ({ writing with line := 512 } : Req).line = true ∧
    ((taking.part 0).accepting = false ∧ taking.launches = [] ∧ (taking.clover 0).owner = some 1 ∧ taking.ev = [0, 1] ∧ (1 : Nat).testBit 0 = true) ∧
    (4 ≠ 8 ∧ ({ State.reset with ev := [8, 1, 0, 4] } : State).ev = [8, 1, 0, 4] ∧ 0x10000 * (15 + 1) + 0x010 = 0x100010) := by
  refine ⟨⟨rfl, by decide, by decide, by decide, rfl, rfl, rfl⟩, by decide, ⟨rfl, rfl⟩, ⟨fun w => ⟨(fun h => nomatch h), rfl, .inl rfl, by decide, (fun v h => nomatch h)⟩, untracked _ rfl rfl _⟩,
    ⟨fun w => ⟨(fun h => nomatch h), rfl, .inl rfl, by decide, (fun v h => nomatch h)⟩, untracked _ rfl rfl _, by decide⟩, fun s h q hq => by rw [h] at hq; (cases hq), by decide, ⟨rfl, rfl, rfl, rfl, rfl⟩, by decide⟩
/-- Die 1 quiescing, with a bin, a pending item and a launch of its own; a die with a wave, whose homes it had. -/
def leaving (k : DieState) (ev : List Nat) : State := { launched { programLaunch with die := 1 } with
  ev := ev, featack := 0x400, dies := [(1, { Die.reset with state := k, items := [{ item with team := some 0, launch := 1 }], bins := [(2, { launch := 1, entry := 0x10000, threads := [[1, 2, 3, 4, 5, 6]], stamp := 0 })] })] }
def losing : State := { State.reset with ev := [1], waves := [(96 * 16, Wave.blank)], launches := [(1, { programLaunch with die := 1, posting := true })] }
theorem witness_PackageEvents_dies :
    (∀ st, (leaving .quiescing [1, st]).ev = [1, st] ∧ ((leaving .quiescing [1, st]).die 1).state = .quiescing) ∧
    ((leaving .run [1, 0]).featack.getLsbD 10 = true ∧ (∀ e < 4, e ≠ 1 → ((leaving .run [1, 0]).die e).state = .run) ∧ ((Map.find? ((leaving .run [1, 0]).die 1).bins 2).map (·.launch)) = some 1 ∧
      ((leaving .run [1, 0]).launch? 1).map (·.die) = some 1 ∧ (({ leaving .run [1, 0] with teams := [(0, { programTeam with launch := 1, core := 96 })] } : State).team? 0).map (fun t => (t.state, t.core / 96, t.deadline)) = some (.resident, 1, none)) ∧
    (NextRunning (leaving .quiescing [1, 0]) 1 3 ∧ NextRunning ({ leaving .quiescing [1, 0] with dies := [(3, { Die.reset with state := .offline })] } : State) 1 2 ∧
      ∃ i ∈ ((leaving .quiescing [1, 0]).die 1).items, i.team = some 0) ∧
    ((leaving .quiescing [1, 2]).flushReady 1 none).1 = 0 ∧ (∀ p ∈ ((leaving .quiescing [1, 2]).die 1).qctx, p.1 = qkey p.2.part p.2.index) ∧
    (∀ k ∈ [DieState.selftest, .resetting, .offline], ((leaving k [1, 0]).die 1).state = k) ∧
    (let s := { leaving .selftest [1, 2] with links := [(0, { Link.reset with lent := [(1, 0, [(0, 0)])] })] }
     (s.link 0).lent.find? (fun y => y.1 == 1) = some (1, 0, [(0, 0)]) ∧ (s.link 72).table = []) ∧
    ((∀ p ∈ (dieIn .run false).waves, dieOf p.1 ≠ 1) ∧ (losing.die 1).failed = false ∧ losing.launches = [(1, { programLaunch with die := 1, posting := true })] ∧ losing.qops = [] ∧ (losing.die 1).items = [] ∧
      (losing.wave? (96 * 16)).isSome = true ∧ dieOf (96 * 16) = 1 ∧ (losing.die 0).failed = false ∧ ∀ c < 0, c = 1 ∨ (losing.die c).failed = true) ∧
    (∀ n, ({ State.reset with ev := [n], stretchStamp := n } : State).stretchStamp = n) := by
  refine ⟨fun st => ⟨rfl, rfl⟩, by decide, ⟨⟨rfl, .inl rfl⟩, ⟨rfl, .inr ⟨by decide, .inl rfl⟩⟩, by decide⟩, by decide, by decide, by decide, by decide, ⟨by decide, rfl, rfl, rfl, rfl, rfl, by decide, rfl, fun c h => absurd h (Nat.not_lt_zero c)⟩, fun _ => rfl⟩
/-- Where the statement on completion asks more than the events' own: the entry in force, the write it allows, the queue operations, the core and the context area. -/
theorem witness_EventsComplete_conditions :
    (let s := linked [0] queueing [(4, writing)]
     LiveEntry queueing 0 0 ∧ queueing.next ≤ 0 + 1 ∧ OldestAllowed s [4] 0 true (some 4) ∧ OldestAllowed s [4] 0 false none ∧ writing.line < 2 ^ 45 ∧ ∀ p ∈ s.reqs, p.2.back = none ∧ ∀ w a i, Waiter.own w a i ∉ p.2.waiters) ∧
    ¬TableRefused (linked [0] running []) 0 ∧
    ((linked [0, 16] (crossed_ [(0, 1, 1)] (some 90000)) []).ev = [0, 16] ∧ (crossed_ [(0, 1, 1)] (some 90000)).retrainTill = some (0 + 90000)) ∧
    (({ running with width := 4, want := some 8 } : Link).want = some 8 ∧ 4 < 8) ∧
    ((downed 5 5 []).now = 5 ∧ 5 < 3 + (5 - 1) ∧ (∀ p ∈ ((downed 5 5 []).wave 0).accs, p.1 < 3 → p.2.open = false)) ∧
    (let s := { linked [0, 1] running [] with featack := 128, agenda := [] }
     s.featack.getLsbD 7 = true ∧ ∀ p ∈ s.agenda, p.2.1 ≠ Instr.autoWake) ∧
    (∀ k ∈ [QuKind.avail, .claim, .enq], QueueUnheld (atQueue k (blankOp k) (qctx 1)) (blankOp k) ∧ (atQueue k (blankOp k) (qctx 1)).queuesOffline 0 = false ∧ 0 < ((atQueue k (blankOp k) (qctx 1)).part 0).qtlen.toNat ∧
      Map.find? ((atQueue k (blankOp k) (qctx 1)).die 0).qctx (qkey 0 0) = some (qctx 1) ∧ ((atQueue k (blankOp k) (qctx 1)).die 0).qctx.length < 1024 ∧ (atQueue k (blankOp k) (qctx 1)).opReady (blankOp k) 0 (qctx 1) = (0, atQueue k (blankOp k) (qctx 1))) ∧
    (((qctx 1).claim - (qctx 1).tail + 1#32).toNat ≤ 32 ∧ ∀ f ∈ (blankOp .enq).forms, FormValid (qctx 1) ((f.getD 0 0).toNat % 256)) ∧
    (answering.qops.map (fun p => p.2.peer) = [none]) ∧ (((refilling.wave 0).ctx.head 2).wait = 0 ∧ ((refilling.wave 0).ctx.head 2).pos = (qctx 0).head) ∧
    ChosenCore (placing.loads 0 0) 0 1 0 { core := 0, used := 0, alloc := [] } 0 ∧ FreeArea (saving [0] moving) moving programLaunch 0x13400 0 := by
  refine ⟨⟨by unfold LiveEntry; rw [if_pos (by decide)]; rfl, by decide, .inr ⟨[], 4, [], writing, rfl, rfl, rfl, ⟨rfl, by unfold Gives; decide⟩, fun j h => nomatch h⟩, .inl ⟨rfl, fun j hj x hx => ?_⟩, by decide, fun p hp => ?_⟩,
    witness_LinkEvents_steps.2.2.2.2.2.2.2.2.2.2.2.1, ⟨rfl, rfl⟩, ⟨rfl, by decide⟩, ⟨rfl, by decide, by decide⟩, ⟨rfl, fun p h => nomatch h⟩, fun k h => ?_, ⟨by decide, fun f hf => ?_⟩, rfl, ⟨rfl, rfl⟩, witness_TeamEvents_placing.2.2.1,
    ⟨by decide, ⟨⟨by decide, fun b h => nomatch h⟩, fun e h => absurd h (Nat.not_lt_zero e)⟩, by decide +kernel⟩⟩
  · obtain rfl := List.mem_singleton.1 hj
    obtain rfl : x = writing := Option.some.inj (hx.symm.trans rfl)
    exact fun h => absurd h.1 (by decide)
  · obtain rfl := List.mem_singleton.1 hp
    exact ⟨rfl, fun w a i h => nomatch h⟩
  · simp only [List.mem_cons, List.not_mem_nil, or_false] at h
    obtain rfl | rfl | rfl := h <;> exact ⟨unheld _ _ _ rfl, rfl, by decide, rfl, by decide, rfl⟩
  · obtain rfl := List.mem_singleton.1 hf
    exact ⟨by decide, by decide⟩

end Sys2Proof.Tests
end

section
/-! SUPPORT. Reads and writes at physical addresses: what they change, and that they keep the memories canonical (R5, R316). -/
namespace Sys2Proof.Machine

/-! Little-endian bytes (R5). -/

theorem toBytes_succ (n v : Nat) : toBytes (n + 1) v = BitVec.ofNat 8 v :: toBytes n (v / 256) := by
  simp only [toBytes, List.range_succ_eq_map, List.map_cons, List.map_map, pow_zero, Nat.div_one]
  refine congrArg _ (List.map_congr_left fun k _ => ?_)
  rw [Function.comp_apply, Nat.succ_eq_add_one, Nat.pow_succ', Nat.div_div_eq_div_mul]

/-- The number of the low `n` bytes of a number. -/
theorem ofBytes_toBytes (n v : Nat) : ofBytes (toBytes n v) = v % 256 ^ n := by
  induction n generalizing v with
  | zero => rw [pow_zero, Nat.mod_one]; rfl
  | succ n ih =>
    rw [toBytes_succ, ofBytes, ih, BitVec.toNat_ofNat, pow_succ' 256 n, Nat.mod_mul]

/-! A byte of a team's scratchpad. -/

theorem State.putScr_eq {s : State} {k : Nat} {x : Team} (h : s.team? k = some x) (o : Nat) (b : BitVec 8) :
    s.putScr k o b = s.setTeam k { x with bytes := Memory.write x.bytes o b } := by
  unfold State.putScr State.modTeam
  rw [h]

/-- A team may take the place of one, its scratchpad canonical. -/
theorem State.memoriesWf.setTeam {s : State} (h : s.memoriesWf) {x : Team} (hx : Memory.wf x.bytes = true) (k : Nat) : (s.setTeam k x).memoriesWf := by
  obtain ⟨hmem, hdrawer, hnonce, hrep, hclovers, hteams, hsorted⟩ := h
  refine ⟨hmem, hdrawer, hnonce, hrep, hclovers, fun j t hj => ?_, Map.sorted_put hsorted k x⟩
  rw [State.team?_setTeam] at hj
  split at hj
  · obtain rfl := Option.some.inj hj
    exact hx
  · exact hteams j t hj

theorem State.memoriesWf.putScr {s : State} (h : s.memoriesWf) (k o : Nat) (b : BitVec 8) : (s.putScr k o b).memoriesWf := by
  obtain ⟨-, -, -, -, -, hteams, -⟩ := id h
  cases hk : s.team? k with
  | none => unfold State.putScr State.modTeam; rw [hk]; exact h
  | some x => rw [State.putScr_eq hk]; exact h.setTeam (Memory.wf_write (hteams k x hk) o b) k

/-! Bytes at a physical address. -/

theorem State.putByte_mem {s : State} {a : Nat} (h : s.scratchAt a = none) (b : BitVec 8) : s.putByte a b = { s with mem := Memory.write s.mem a b } := by
  unfold State.putByte; rw [h]

theorem State.putByte_scratch {s : State} {a k o : Nat} (h : s.scratchAt a = some (k, o)) (b : BitVec 8) : s.putByte a b = s.putScr k o b := by
  unfold State.putByte; rw [h]

theorem State.memoriesWf.putByte {s : State} (h : s.memoriesWf) (a : Nat) (b : BitVec 8) : (s.putByte a b).memoriesWf := by
  cases ha : s.scratchAt a with
  | none =>
    rw [State.putByte_mem ha]
    obtain ⟨hmem, hrest⟩ := h
    exact ⟨Memory.wf_write hmem a b, hrest⟩
  | some p => rw [State.putByte_scratch ha]; exact h.putScr p.1 p.2 b

theorem State.memoriesWf.write {s : State} (h : s.memoriesWf) (a : Nat) (bs : List (BitVec 8)) : (s.write a bs).memoriesWf := by
  induction bs generalizing s a with
  | nil => exact h
  | cons b bs ih => exact ih (h.putByte a b) (a + 1)

/-- Bytes that no scratch window covers go to memory, and nothing else changes. -/
theorem State.write_mem {s : State} {a : Nat} {bs : List (BitVec 8)} (h : ∀ i < bs.length, s.scratchAt (a + i) = none) :
    s.write a bs = { s with mem := Memory.writeAll s.mem a bs } := by
  induction bs generalizing s a with
  | nil => rfl
  | cons b bs ih =>
    have tail : ∀ i < bs.length, s.scratchAt (a + 1 + i) = none := fun i hi => by
      rw [Nat.add_assoc, Nat.add_comm 1 i]
      exact h (i + 1) (Nat.succ_lt_succ hi)
    rw [State.write, State.putByte_mem (a := a) (h 0 (Nat.succ_pos _)), ih (s := { s with mem := Memory.write s.mem a b }) tail]
    rfl

/-- Settles O49: the laws of memory give the first three parts, and a store goes byte by byte to memory or to a scratchpad. -/
theorem memoryLaws : Obligations.MemoryLaws := by
  unfold Obligations.MemoryLaws
  refine ⟨Memory.read_writeAll, fun m a bs h => Memory.wf_writeAll h a bs, fun m n hm hn h => Memory.ext_of_read hm hn h, ofBytes_toBytes,
    fun s a bs h => h.write a bs, fun s a bs h => State.write_mem h, fun s a b k o x ha hk => ?_⟩
  refine ⟨_, { x with bytes := Memory.write x.bytes o b }, rfl, ?_⟩
  rw [State.putByte_scratch ha, State.putScr_eq hk]
  refine ⟨rfl, ?_, rfl, Memory.read_write x.bytes o b, fun j hj => ?_⟩
  · rw [State.team?_setTeam, if_pos rfl]
  · rw [State.team?_setTeam, if_neg hj]

end Sys2Proof.Machine
end

section
/-! SUPPORT. A context area's image and the order of its cells (R366, R367): the image of a handler's undo log does not list its cells in rising
order, so writing it leaves memory out of its canonical form. -/
namespace Sys2Proof.Machine

/-! Memory after a stretch of it has been replaced. -/

/-- The cells that take the place of a stretch stand in order where the memory is canonical. -/
theorem Memory.sorted_of_wf_splice {m : Memory} {pa n : Nat} {cells : List Host.Cell} (h : (Memory.splice m pa n cells).wf = true) : Map.sorted cells := by
  obtain ⟨hs, -⟩ := Map.wf_iff.mp h
  exact hs.sublist ((List.sublist_append_right _ _).trans (List.sublist_append_left _ _))

/-- Cells written to one stretch of memory: two of them in falling order, one behind the other, leave it without its canonical form. -/
theorem State.not_wf_scatter {s : State} {die pa off n : Nat} {bytes : List Host.Cell} {c d : Host.Cell} (hsub : [c, d].Sublist bytes)
    (hc : off ≤ c.1 ∧ c.1 < off + n) (hd : off ≤ d.1 ∧ d.1 < off + n) (hdc : d.1 ≤ c.1) : Memory.wf (s.scatter die [(pa, off, n)] bytes).mem ≠ true := by
  intro h
  have hsorted := Memory.sorted_of_wf_splice (show Memory.wf (Memory.splice _ _ _ _) = true from h)
  have hpair := List.Pairwise.sublist ((hsub.filter _).map _) hsorted
  simp [hc, hd] at hpair
  omega

/-! The image of an undo log. -/

/-- What a context area holds of a handler's undo log: each vector's values, and its tag. -/
def TrapArea.logCells (t : TrapArea) (off : Nat) : List Host.Cell :=
  t.logged.zipIdx.flatMap fun (v, i) =>
    cellsAt (off + 2480 + 128 * i) ((List.range 32).flatMap fun l => wordBytes (Map.get 0 t.saved.vec (32 * v + l))) ++ cellsAt (off + 6576 + 4 * i) (toBytes 4 (v + 1))

theorem TrapArea.logCells_sublist (t : TrapArea) (off : Nat) : (t.logCells off).Sublist (t.cells off) := List.sublist_append_right _ _

theorem Wave.trapCells_sublist {x : Wave} {t : TrapArea} (h : x.trap = some t) (off : Nat) : (t.cells (off + 0xCD18)).Sublist (x.image off) := by
  unfold Wave.image
  rw [h]
  exact (List.sublist_append_right _ _).trans (List.sublist_append_left _ _)

/-! TEAM_SWAP stage 2: the context is written. -/

/-- The context of a team whose scratchpad goes to the area too, once the lines of the area may be written. -/
theorem State.contextWritten_mem {s : State} {id : Nat} {t : Team} {l : Launch} {a : Dword} (ht : s.team? id = some t) (hl : s.launch? t.launch = some l)
    (ha : t.area = some a) (hb : l.lrec.backed = false) (hs : t.scratch ≠ 0) (hr : s.devReady (t.core / 96) l.part a.toNat (areaBytes t.waves) = (0, s)) :
    (s.contextWritten id).mem = (s.writeArea (t.core / 96) l.part a 0 (areaBytes t.waves)
      ((t.stopTimers s.now).header l false ++ t.saved.flatMap fun (i, x) => x.image (waveOffset i))).mem := by
  unfold State.contextWritten
  simp only [ht, hl, ha, hr, hb, Bool.false_and, Bool.false_or, beq_eq_false_iff_ne.mpr hs, Bool.false_eq_true, if_false]
  exact State.modTeam_mem _ _ _

/-- A line that nothing holds, leases or watches, in an empty set of the die's cache and under no scratch window, may be written at once. -/
theorem State.lineReady_quiet {s : State} {q line : Nat} (hw : s.scratchAt (linePa line) = none) (hl : s.line line = Line.reset)
    (hset : s.setLines q line = []) : s.lineReady q line false = (0, s) := by
  have room : (if isHostPa (linePa line) = true then (0, s) else s.makeRoom q line) = (0, s) := by simp [State.makeRoom, hset]
  have told : s.notify q line none = (0, s) := by simp [State.notify, State.watchers, hl, Line.reset]
  have wait : s.lineWait q line false none false = (some 0, s) := by simp [State.lineWait, hl, Line.reset, room, told]
  simp [State.lineReady, State.frameReady, hw, wait]

/-! A team whose context is to be written: its wave is in a handler that has logged two vectors, m0 with zeroes and m1 with a 1 in lane 0. -/

/-- The page of most of the area, VA and PA 0x20000; no other page of it translates. -/
def areaPage : Page := { programPage with vpn := 2, pa := 0x20000 }

/-- The area of the handler. -/
def loggedTwo : TrapArea := { saved := { Ctx.start with vec := [(32, 1)] }, seq := 0, cap := none, logged := [0, 1], firstOp := 1 }

def swappingTeam : Team :=
  { programTeam with state := .swapping, stage := 1, scratch := 128, area := some 0x18000, saved := [(0, { Wave.blank with trap := some loggedTwo })] }

/-- TEAM_SWAP stage 2 is being carried out for the team. -/
def contextDue : State :=
  { State.reset with
    bootstat := 1, agenda := [], ev := [0, 2], teams := [(0, swappingTeam)], launches := [(0, programLaunch)], dies := [(0, { Die.reset with tlb := [(2, [areaPage])] })]
    parts := [(0, { Part.reset with mwbase := [(0, 0x20000)], mwlim := [(0, 0x20000)] })] }

theorem contextDue_memoriesWf : contextDue.memoriesWf := by
  refine ⟨rfl, rfl, rfl, rfl, fun _ _ h => (nomatch h), fun k t h => ?_, List.pairwise_singleton _ _⟩
  obtain ⟨-, rfl⟩ : 0 = k ∧ swappingTeam = t := by simpa [contextDue, State.team?, Map.find?] using h
  rfl

theorem contextDue_lineReady (line : Nat) : contextDue.lineReady 0 line false = (0, contextDue) := State.lineReady_quiet rfl rfl rfl

theorem areaPage_addr_not_host (va : Nat) : isHostPa (areaPage.addr va) = false := by
  have h : areaPage.addr va = 0x20000 + va % 2 ^ 16 := rfl
  simp only [isHostPa, hostBit, h, decide_eq_false_iff_not]
  omega

theorem contextDue_devXlate_first : contextDue.devXlate 0 0 0x18000 = .fault := by rfl
theorem contextDue_devXlate_second : contextDue.devXlate 0 0 0x20000 = .page areaPage := by rfl

theorem contextDue_devReady : contextDue.devReady 0 0 0x18000 (areaBytes 1) = (0, contextDue) := by
  unfold State.devReady
  rw [show pagesOf 0x18000 (areaBytes 1) = [0x18000, 0x20000] by rfl, List.foldl_cons, List.foldl_cons, List.foldl_nil]
  simp only [contextDue_devXlate_first, contextDue_devXlate_second]
  refine List.foldl_fixed' (fun k => ?_) _
  simp only [areaPage_addr_not_host, show areaPage.hb = false from rfl, Bool.or_false, contextDue_lineReady]
  rfl

theorem contextDue_stretches : contextDue.stretches 0 0 0x18000 (areaBytes 1) = [(0x20000, 0x8000, 0xB400)] := by rfl

/-- The tag of the first vector stands before the values of the second, at a higher offset. -/
theorem loggedTwo_falls : [((0x10AC8, 1) : Host.Cell), (0xFB48, 1)].Sublist (loggedTwo.logCells 0xF118) := by decide

theorem contextDue_written_not_wf : Memory.wf (contextDue.contextWritten 0).mem ≠ true := by
  have image : [((0x10AC8, 1) : Host.Cell), (0xFB48, 1)].Sublist (Wave.image { Wave.blank with trap := some loggedTwo } 0x2400) :=
    (loggedTwo_falls.trans (loggedTwo.logCells_sublist 0xF118)).trans (Wave.trapCells_sublist rfl 0x2400)
  rw [State.contextWritten_mem (t := swappingTeam) (l := programLaunch) (a := 0x18000) rfl rfl rfl rfl (by decide) contextDue_devReady]
  unfold State.writeArea
  rw [show swappingTeam.core / 96 = 0 from rfl, show (0x18000 : Dword).toNat + 0 = 0x18000 from rfl, show swappingTeam.waves = 1 from rfl,
    show programLaunch.part = 0 from rfl, contextDue_stretches]
  refine State.not_wf_scatter (List.Sublist.trans image ?_) (by decide) (by decide) (by decide)
  exact (List.sublist_append_left _ _).trans (List.sublist_append_right _ _)

/-- Refutes O50: a wave whose handler has logged two vectors is swapped out. Its undo log lies in the context area as values, tag, values, tag, in
the order of the vectors, while every tag's offset is above all the values' (TrapArea.cells); TEAM_SWAP writes these cells to memory in that order. -/
theorem not_memoriesStayCanonical : ¬ Obligations.MemoriesStayCanonical := by
  unfold Obligations.MemoriesStayCanonical
  intro h
  obtain ⟨hmem, -⟩ := h { contextDue with agenda := [(0, .teamSwap, [0, 2])] } (contextDue.contextWritten 0) contextDue_memoriesWf rfl
  exact contextDue_written_not_wf hmem

end Sys2Proof.Machine
end

section
/-! SUPPORT. The records of an access: its lanes' tables, and the lines that its lanes name (R160). -/
namespace Sys2Proof.Map

/-! Tables filled lane by lane. -/

/-- What a table filled key by key reads at a key. -/
theorem get_foldl_set {α : Type} [DecidableEq α] (d : α) (ls : List Nat) (f : Nat → α) (m : Map α) (i : Nat) :
    Map.get d (ls.foldl (fun t l => Map.set d t l (f l)) m) i = if i ∈ ls then f i else Map.get d m i := by
  induction ls generalizing m with
  | nil => simp
  | cons l ls ih =>
    rw [List.foldl_cons, ih, get_set]
    by_cases hi : i ∈ ls
    · simp [hi]
    · by_cases hl : i = l
      · subst hl; simp
      · simp [hi, hl]

/-- What a table listed key by key gives for one of the keys. -/
theorem find?_map_pair {α : Type} (ls : List Nat) (f : Nat → α) {i : Nat} (hi : i ∈ ls) : Map.find? (ls.map fun l => (l, f l)) i = some (f i) := by
  induction ls with
  | nil => simp at hi
  | cons l ls ih =>
    rw [List.map_cons, find?_cons]
    by_cases hl : l = i
    · subst hl; simp
    · rw [if_neg hl]
      exact ih (List.mem_of_ne_of_mem (Ne.symm hl) hi)

end Sys2Proof.Map

namespace Sys2Proof.Machine

/-! The lines of an access. -/

/-- Two parts of accesses that name one line at one place. -/
def LineUse.Same (u v : LineUse) : Prop := v.place = u.place ∧ v.line = u.line

theorem LineUse.Same.refl (u : LineUse) : u.Same u := ⟨rfl, rfl⟩

/-- A lane's line joins the lines named so far. -/
def addUse (us : List LineUse) (u : LineUse) : List LineUse :=
  if us.any fun v => v.place == u.place && v.line == u.line then
    us.map fun v => if v.place == u.place && v.line == u.line then { v with lanes := v.lanes ||| u.lanes } else v
  else us ++ [u]

theorem groupLines_eq (ls : List Nat) (f : Nat → LineUse) : groupLines ls f = ls.foldl (fun us l => addUse us (f l)) [] := rfl

theorem groupLines_congr {ls : List Nat} {f g : Nat → LineUse} (h : ∀ l ∈ ls, f l = g l) : groupLines ls f = groupLines ls g := by
  rw [groupLines_eq, groupLines_eq]
  refine List.foldl_ext _ _ _ fun us l hl => ?_
  rw [h l hl]

/-- Every line after the joining was there before, or is the joining one. -/
theorem mem_addUse {us : List LineUse} {u v : LineUse} (h : v ∈ addUse us u) : u.Same v ∨ ∃ w ∈ us, w.Same v := by
  unfold addUse at h
  split at h
  · obtain ⟨w, hw, rfl⟩ := List.mem_map.mp h
    refine .inr ⟨w, hw, ?_⟩
    split <;> exact ⟨rfl, rfl⟩
  · rcases List.mem_append.mp h with h | h
    · exact .inr ⟨v, h, .refl v⟩
    · rw [List.mem_singleton.mp h]
      exact .inl (.refl u)

/-- Some part names `u`'s line, with `u`'s lanes among its own. -/
def Covers (us : List LineUse) (u : LineUse) : Prop := ∃ v ∈ us, u.Same v ∧ ∀ l, u.lanes.getLsbD l = true → v.lanes.getLsbD l = true

theorem covers_addUse_self (us : List LineUse) (u : LineUse) : Covers (addUse us u) u := by
  unfold addUse
  split
  · rename_i h
    obtain ⟨v, hv, hsame⟩ := List.any_eq_true.mp h
    refine ⟨_, List.mem_map_of_mem hv, ?_⟩
    rw [if_pos hsame]
    simp only [Bool.and_eq_true, beq_iff_eq] at hsame
    exact ⟨hsame, fun l hl => by simp [hl]⟩
  · exact ⟨u, by simp, .refl u, fun _ h => h⟩

theorem Covers.addUse {us : List LineUse} {u : LineUse} (h : Covers us u) (w : LineUse) : Covers (addUse us w) u := by
  obtain ⟨v, hv, hsame, hl⟩ := h
  unfold Machine.addUse
  split
  · refine ⟨_, List.mem_map_of_mem hv, ?_⟩
    split
    · exact ⟨hsame, fun l h => by simp [hl l h]⟩
    · exact ⟨hsame, hl⟩
  · exact ⟨v, List.mem_append_left _ hv, hsame, hl⟩

/-- A line of an access is some lane's. -/
theorem mem_groupLines {ls : List Nat} {f : Nat → LineUse} {u : LineUse} (h : u ∈ groupLines ls f) : ∃ l ∈ ls, (f l).Same u := by
  rw [groupLines_eq] at h
  induction ls using List.reverseRecOn generalizing u with
  | nil => simp at h
  | append_singleton ls l ih =>
    rw [List.foldl_concat] at h
    rcases mem_addUse h with h | ⟨w, hw, h⟩
    · exact ⟨l, by simp, h⟩
    · obtain ⟨k, hk, hsame⟩ := ih hw
      exact ⟨k, by simp [hk], h.1.trans hsame.1, h.2.trans hsame.2⟩

/-- Every lane's line is among an access's, the lane among that line's. -/
theorem covers_groupLines {ls : List Nat} (f : Nat → LineUse) {l : Nat} (h : l ∈ ls) : Covers (groupLines ls f) (f l) := by
  rw [groupLines_eq]
  induction ls using List.reverseRecOn with
  | nil => simp at h
  | append_singleton ls k ih =>
    rw [List.foldl_concat]
    rcases List.mem_append.mp h with h | h
    · exact (ih h).addUse _
    · rw [List.mem_singleton.mp h]
      exact covers_addUse_self _ _

end Sys2Proof.Machine
end

section
/-! SUPPORT. The requests of an access (R318): what sending its parts on their way changes, and that the access itself stays what it is. -/
namespace Sys2Proof.Machine

/-- Access `a` and its progress `b`: they differ in no more than how far their lines have come and since when they wait on a DOWN link. -/
structure Access.Progress (a b : Access) : Prop where
  same : b = { a with lines := b.lines, downFrom := b.downFrom }
  lines : b.lines.map (fun u => (u.place, u.line, u.lanes)) = a.lines.map fun u => (u.place, u.line, u.lanes)

theorem Access.Progress.refl (a : Access) : a.Progress a := ⟨rfl, rfl⟩

theorem Access.Progress.trans {a b c : Access} (h : a.Progress b) (h' : b.Progress c) : a.Progress c :=
  ⟨by rw [h'.same, h.same], h'.lines.trans h.lines⟩

/-- A line that takes a step keeps its place and its lanes. -/
theorem Access.progress_modLine (a : Access) (i : Nat) {f : LineUse → LineUse} (hf : ∀ u, ((f u).place, (f u).line, (f u).lanes) = (u.place, u.line, u.lanes)) :
    a.Progress (a.modLine i f) := by
  refine ⟨rfl, ?_⟩
  simp only [Access.modLine, List.map_map]
  calc
    _ = a.lines.zipIdx.map ((fun u : LineUse => (u.place, u.line, u.lanes)) ∘ Prod.fst) := by
      refine List.map_congr_left fun p _ => ?_
      by_cases h : p.2 = i <;> simp [h, hf]
    _ = a.lines.map fun u => (u.place, u.line, u.lanes) := by rw [← List.map_map, List.zipIdx_map_fst]

/-- The lines that an access still names, with their lanes. -/
theorem Access.Progress.covers {a b : Access} (h : a.Progress b) {u : LineUse} (hu : Covers a.lines u) : Covers b.lines u := by
  obtain ⟨v, hv, ⟨hplace, hline⟩, hlanes⟩ := hu
  have : (v.place, v.line, v.lanes) ∈ b.lines.map fun u => (u.place, u.line, u.lanes) := h.lines ▸ List.mem_map_of_mem hv
  obtain ⟨w, hw, heq⟩ := List.mem_map.mp this
  simp only [Prod.mk.injEq] at heq
  obtain ⟨hp, hl, hm⟩ := heq
  exact ⟨w, hw, ⟨hp.trans hplace, hl.trans hline⟩, fun l h => hm ▸ hlanes l h⟩

/-- From `s` to `t` parts of access `k` of wave `w` have been sent on their way: every store of bytes, every team and every other wave is as it was, and of
wave `w` the accesses alone have changed, where `k` is still the same access. -/
structure State.Sends (w k : Nat) (s t : State) : Prop where
  mem : t.mem = s.mem
  drawer : t.drawer = s.drawer
  clovers : t.clovers = s.clovers
  teams : t.teams = s.teams
  others : ∀ v, v ≠ w → t.wave? v = s.wave? v
  wave : ∀ x, s.wave? w = some x → ∃ y, t.wave? w = some y ∧ y = { x with accs := y.accs } ∧
    ∀ a, Map.find? x.accs k = some a → ∃ b, Map.find? y.accs k = some b ∧ a.Progress b

namespace State.Sends
variable {w k : Nat} {s t u : State}

theorem refl (w k : Nat) (s : State) : State.Sends w k s s :=
  ⟨rfl, rfl, rfl, rfl, fun _ _ => rfl, fun x h => ⟨x, h, rfl, fun a ha => ⟨a, ha, .refl a⟩⟩⟩

theorem trans (h : State.Sends w k s t) (h' : State.Sends w k t u) : State.Sends w k s u := by
  refine ⟨h'.mem.trans h.mem, h'.drawer.trans h.drawer, h'.clovers.trans h.clovers, h'.teams.trans h.teams,
    fun v hv => (h'.others v hv).trans (h.others v hv), fun x hx => ?_⟩
  obtain ⟨y, hy, hxy, hacc⟩ := h.wave x hx
  obtain ⟨z, hz, hyz, hacc'⟩ := h'.wave y hy
  refine ⟨z, hz, by rw [hyz, hxy], fun a ha => ?_⟩
  obtain ⟨b, hb, hab⟩ := hacc a ha
  obtain ⟨c, hc, hbc⟩ := hacc' b hb
  exact ⟨c, hc, hab.trans hbc⟩

/-- What changes no wave, no team and no bytes. -/
theorem quiet (hw : t.waves = s.waves) (hm : t.mem = s.mem) (hd : t.drawer = s.drawer) (hc : t.clovers = s.clovers) (ht : t.teams = s.teams) :
    State.Sends w k s t := by
  have hwave (v : Nat) : t.wave? v = s.wave? v := congrArg (Map.find? · v) hw
  exact ⟨hm, hd, hc, ht, fun v _ => hwave v, fun x h => ⟨x, (hwave w).trans h, rfl, fun a ha => ⟨a, ha, .refl a⟩⟩⟩

/-- The access itself takes a step. -/
theorem modAcc (w k : Nat) (s : State) {f : Access → Access} (hf : ∀ a : Access, a.Progress (f a)) : State.Sends w k s (s.modAcc w k f) := by
  refine ⟨State.modWave_mem .., State.modWave_drawer .., State.modWave_clovers .., State.modWave_teams .., fun v hv => ?_, fun x hx => ?_⟩
  · rw [State.modAcc, State.wave?_modWave, if_neg hv]
  · unfold State.modAcc
    rw [State.wave?_modWave, if_pos rfl, hx]
    refine ⟨_, rfl, ?_⟩
    dsimp only
    split
    · rename_i a ha
      refine ⟨rfl, fun a' h => ?_⟩
      obtain rfl := Option.some.inj (ha.symm.trans h)
      exact ⟨f a, by rw [Map.find?_put, if_pos rfl], hf a⟩
    · rename_i ha
      exact ⟨rfl, fun a h => nomatch ha.symm.trans h⟩

theorem after (h : State.Sends w k s t) (d : Nat) (i : Instr) (a : List Nat) : State.Sends w k s (t.after d i a) :=
  h.trans (.quiet rfl rfl rfl rfl rfl)

theorem modUse (w k : Nat) (s : State) (i : Nat) {f : LineUse → LineUse} (hf : ∀ u, ((f u).place, (f u).line, (f u).lanes) = (u.place, u.line, u.lanes)) :
    State.Sends w k s (s.modUse w k i f) := .modAcc w k s fun a => a.progress_modLine i hf

theorem stallArm (w k : Nat) (s : State) (v j : Nat) : State.Sends w k s (s.stallArm v j) := by
  unfold State.stallArm
  split
  · dsimp only
    split
    · exact .refl ..
    · exact .quiet rfl rfl rfl rfl rfl
  · exact .refl ..

/-- The access begins to wait on a DOWN link. -/
theorem stallFrom (w k : Nat) (s : State) : State.Sends w k s (s.stallFrom w k) := by
  refine State.Sends.trans (.modAcc w k s fun a => ?_) (.stallArm w k _ w k)
  split
  · exact .refl a
  · exact ⟨rfl, rfl⟩

/-- A part that joins a fetch of its line which is under way. -/
theorem joinFetch (w k i : Nat) (s : State) (id : Nat) : State.Sends w k s (s.joinFetch id (.lane w k i)) := by
  unfold State.joinFetch
  split
  · rename_i r _
    refine State.Sends.trans (t := s.setReq id { r with waiters := r.waiters ++ [.lane w k i] }) (.quiet rfl rfl rfl rfl rfl) ?_
    unfold State.stallJoin
    simp only [Waiter.access]
    split
    · rename_i h
      obtain ⟨rfl, rfl⟩ := Prod.mk.inj (Option.some.inj h)
      split
      · exact .stallFrom ..
      · exact .refl ..
    · exact .refl ..
  · exact .refl ..

theorem drawerSend (w k : Nat) (s : State) (q line : Nat) (write : Bool) (bytes : List (BitVec 8)) (ws : List Waiter) (core : Option Nat) (low : Bool) (d : Nat) :
    State.Sends w k s (s.drawerSend q line write bytes ws core low d) := by
  cases write <;> exact .quiet rfl rfl rfl rfl rfl

theorem ite {c : Prop} [Decidable c] (ht : State.Sends w k s t) (hu : State.Sends w k s u) : State.Sends w k s (if c then t else u) := by
  split
  · exact ht
  · exact hu

/-- A step of the agenda for a later cycle. -/
theorem waits (w k : Nat) (s : State) (d : Nat) (j : Instr) (b : List Nat) : State.Sends w k s (s.after d j b) := (State.Sends.refl w k s).after d j b

/-- A part whose event and whose result are known by their cycles. -/
theorem carried (w k i : Nat) (s : State) (n d : Nat) (j : Instr) (b : List Nat) :
    State.Sends w k s ((s.modUse w k i fun u => { u with due := n }).after d j b) :=
  (State.Sends.modUse w k s i (f := fun u => { u with due := n }) fun _ => rfl).after d j b

/-- A part is sent on its way: to a live scratchpad, or to its line, along the paths of R318. -/
theorem request (w k i : Nat) (s : State) : State.Sends w k s (s.request w k i) := by
  unfold State.request State.requestAt
  split
  · exact .refl ..
  · split
    · exact .refl ..
    · simp only [Option.isNone_none, if_true, Option.getD_none, Nat.sub_zero, Bool.true_and]
      split
      · exact .ite (.waits ..) (.ite (.waits ..) (.carried ..))
      · refine .ite (.waits ..) (.ite (.waits ..) (.ite (.carried ..) (.ite (.carried ..) ?_)))
        split
        · exact .ite (.waits ..) (.joinFetch ..)
        · split
          · exact .ite (.carried ..) (.ite (.waits ..) (.carried ..))
          · exact .ite (.ite (.waits ..) (.carried ..)) (.ite (.waits ..)
              (.ite ((State.Sends.modUse w k s i (f := fun u => { u with slot := true }) fun _ => rfl).after ..) (.drawerSend ..)))

/-- Every part is. -/
theorem requestAll (w k : Nat) (s : State) : State.Sends w k s (s.requestAll w k) := by
  unfold State.requestAll
  induction List.range _ generalizing s with
  | nil => exact .refl ..
  | cons i is ih => exact (State.Sends.request w k i s).trans (ih _)

end State.Sends
end Sys2Proof.Machine
end

section
/-! SUPPORT. An access enters its unit (R150, R171): what of the wave changes. -/
namespace Sys2Proof.Machine

/-! Logging changes the window or the handler's area alone, and of them the log alone. -/

theorem Wave.log_eq (x : Wave) (vs : List Nat) : x.log vs = { x with win := (x.log vs).win, trap := (x.log vs).trap } := by
  unfold Wave.log
  split
  · rfl
  · split <;> rfl

/-- What a reading of the window that the log does not show gives after logging. -/
theorem Wave.log_win_map {α : Type} (x : Wave) (vs : List Nat) (f : Window → α) (hf : ∀ v l, f { v with logged := l } = f v) :
    (x.log vs).win.map f = x.win.map f := by
  unfold Wave.log
  split
  · rename_i h; simp [h, hf]
  · split <;> simp_all

theorem Wave.log_trap_saved (x : Wave) (vs : List Nat) : (x.log vs).trap.map (·.saved) = x.trap.map (·.saved) := by
  unfold Wave.log
  split
  · rfl
  · split
    · rename_i h; simp [h]
    · rfl

/-- The wave at the start of an operation: its context, the number of its next operation and the undo log change. -/
theorem Wave.begin_eq (x : Wave) (u : FuncUnit) (ps : List PortNo) (en : Mask) :
    x.begin u ps en = { x with ctx := (x.begin u ps en).ctx, nextOp := x.nextOp + 1, win := (x.begin u ps en).win, trap := (x.begin u ps en).trap } := by
  unfold Wave.begin
  dsimp only
  rw [Wave.log_eq]

/-! The wave after an access of ls has entered. -/

/-- Whether an access is held in an open window. -/
def heldIn (x : Wave) (a : Access) : Bool := x.win.isSome && (a.isLoad || a.storing)

/-- The access as it stands in the wave's table. -/
def Access.entered (a : Access) (k : Nat) (held : Bool) (now : Nat) : Access := { a with id := k, win := held, issued := now }

/-- The context: an entry of the FIFO where the access answers into it, and its counter. -/
def Ctx.enterLs (c : Ctx) (k : Nat) (en : Mask) (fifo : Bool) : Ctx :=
  { c with ldc := c.ldc + if fifo then 1 else 0, stc := c.stc + if fifo then 0 else 1, lsFifo := if fifo then c.lsFifo ++ [⟨k, en, [], false⟩] else c.lsFifo }

/-- The wave. -/
def Wave.enterLs (x : Wave) (en : Mask) (a : Access) (now : Nat) : Wave :=
  let y := x.begin .ls [.st] en
  { y with
    ctx := y.ctx.enterLs x.nextOp en (a.isLoad || a.isAtomic), accs := Map.put y.accs x.nextOp (a.entered x.nextOp (heldIn y a) now)
    win := y.win.map fun v => if heldIn y a then { v with count := v.count + 1 } else v }

/-- An access of ls enters: its number, and the wave that holds it (R150, R171). -/
theorem State.enter_ls (s : State) (m : MoveIn) {a : Access} (hsp : a.sp = false) (hk : a.storing = !(a.isLoad || a.isAtomic)) :
    s.enter m a = ((s.wave m.w).nextOp, s.setWave m.w ((s.wave m.w).enterLs m.en a s.now)) := by
  obtain ⟨id, sp, kind⟩ := a
  obtain rfl : sp = false := hsp
  cases kind with
  | fence n => exact Bool.noConfusion hk
  | _ => rfl

variable (x : Wave) (en : Mask) (a : Access) (now : Nat)

theorem Wave.enterLs_accs : (x.enterLs en a now).accs = Map.put x.accs x.nextOp (a.entered x.nextOp (heldIn (x.begin .ls [.st] en) a) now) := by
  rw [← Wave.begin_accs x .ls [.st] en]; rfl

theorem Wave.enterLs_eq : x.enterLs en a now =
    { x with ctx := (x.enterLs en a now).ctx, accs := (x.enterLs en a now).accs, nextOp := x.nextOp + 1, win := (x.enterLs en a now).win
             trap := (x.enterLs en a now).trap } := by
  unfold Wave.enterLs
  dsimp only
  rw [Wave.begin_eq]

/-- The context but for the ready bits and the last operations of the lanes. -/
theorem Wave.enterLs_ctx : (x.enterLs en a now).ctx =
    { x.ctx.enterLs x.nextOp en (a.isLoad || a.isAtomic) with busy := (x.enterLs en a now).ctx.busy, last := (x.enterLs en a now).ctx.last } := by
  unfold Wave.enterLs Ctx.enterLs
  dsimp only
  rw [Wave.begin_ctx]

/-- The ready bits: st is not ready in the enabled lanes, and every other port is as it was (R12). -/
theorem Wave.enterLs_busy (v : Nat) : Map.get 0 (x.enterLs en a now).ctx.busy v =
    if v = portVec .ls .st then Map.get 0 x.ctx.busy v ||| en else Map.get 0 x.ctx.busy v := by
  have h : (x.enterLs en a now).ctx.busy = (x.ctx.setBusy (portVec .ls .st) en).busy := by
    unfold Wave.enterLs Ctx.enterLs
    dsimp only
    rw [Wave.begin_ctx]
    rfl
  rw [h, Ctx.setBusy, Map.get_set]
  split
  · rename_i hv; rw [hv]
  · rfl

theorem Wave.enterLs_win : (x.enterLs en a now).win = (x.begin .ls [.st] en).win.map fun v =>
    if heldIn (x.begin .ls [.st] en) a then { v with count := v.count + 1 } else v := rfl

theorem Wave.enterLs_ckpt : (x.enterLs en a now).win.map (·.ckpt) = x.win.map (·.ckpt) := by
  calc
    _ = (x.begin .ls [.st] en).win.map (·.ckpt) := by
      rw [Wave.enterLs_win, Option.map_map]
      refine congrArg (Option.map · _) (funext fun v => ?_)
      rw [Function.comp_apply]
      split <;> rfl
    _ = x.win.map (·.ckpt) := Wave.log_win_map _ _ _ fun _ _ => rfl

theorem Wave.enterLs_count : (x.enterLs en a now).win.map (·.count) = x.win.map fun v => v.count + if a.isLoad || a.storing then 1 else 0 := by
  calc
    _ = (x.begin .ls [.st] en).win.map fun v => v.count + if a.isLoad || a.storing then 1 else 0 := by
      rw [Wave.enterLs_win]
      unfold heldIn
      cases (x.begin .ls [.st] en).win with
      | none => rfl
      | some v => cases a.isLoad || a.storing <;> rfl
    _ = x.win.map fun v => v.count + if a.isLoad || a.storing then 1 else 0 := Wave.log_win_map _ _ _ fun _ _ => rfl

theorem Wave.enterLs_saved : (x.enterLs en a now).trap.map (·.saved) = x.trap.map (·.saved) := by
  unfold Wave.enterLs Wave.begin
  exact Wave.log_trap_saved _ _

end Sys2Proof.Machine
end

section
/-! SUPPORT. The checks of an ls trigger (R153), and when an access waits in place (R171, R319). -/
namespace Sys2Proof.Machine

theorem lanesWhere_eq_zero {k : Mask} {p : Nat → Bool} (h : ∀ l ∈ lanesOf k, p l = false) : lanesWhere k p = 0 := by
  unfold lanesWhere
  rw [List.filter_eq_nil_iff.mpr fun l hl => by simp [h l hl]]
  rfl

/-- The pages of the lanes that a move enables. -/
def MoveIn.pages (m : MoveIn) (page : Nat → Page) : Map Page := (lanesOf m.real).map fun l => (l, page l)

/-- TL (R155): whether the look-up of some lane goes beyond its last-page register. -/
def MoveIn.missTl (m : MoveIn) (addr : Nat → Dword) : Nat := if (lanesOf m.real).any fun l => !m.x.lastHit l (addr l) then 1 else 0

/-- What the checks read for a lane: its page, or a fault for a lane that the move does not enable. -/
def MoveIn.laneOut (m : MoveIn) (page : Nat → Page) (l : Nat) : Xlate := if l ∈ lanesOf m.real then .page (page l) else .fault

theorem MoveIn.laneOut_of_mem {m : MoveIn} {page : Nat → Page} {l : Nat} (h : l ∈ lanesOf m.real) : m.laneOut page l = .page (page l) := if_pos h

/-- The first entry for a key in a table listed key by key. -/
theorem find?_lane {α : Type} (ls : List Nat) (f : Nat → α) (l : Nat) :
    (ls.map fun k => (k, f k)).find? (fun (k, _) => k == l) = if l ∈ ls then some (l, f l) else none := by
  induction ls with
  | nil => rfl
  | cons k ls ih =>
    rw [List.map_cons, List.find?_cons, ih]
    by_cases hk : k = l
    · subst hk; simp
    · have hl : l ≠ k := Ne.symm hk
      simp [beq_false_of_ne hk, hl]

theorem MoveIn.filterMap_pages {m : MoveIn} {page : Nat → Page} {f : Nat → Option (Nat × Page)} (h : ∀ l ∈ lanesOf m.real, f l = some (l, page l)) :
    (lanesOf m.real).filterMap f = m.pages page := by
  rw [MoveIn.pages, ← List.filterMap_eq_map]
  exact List.filterMap_congr h

/-- Every check passes where each lane's address is aligned and translates to a page that permits the access and whose bias is not changing. -/
theorem State.lsCheck_go {s : State} {m : MoveIn} {addr : Nat → Dword} {align : Nat} {need : Need} {page : Nat → Page}
    (h : ∀ l ∈ lanesOf m.real, (addr l).toNat % align = 0 ∧ s.laneXlate m.c m.x l (addr l) = some (.page (page l)) ∧
      (page l).allows need m.x.ctx.sup = true ∧ (page l).flip = false) :
    s.lsCheck m addr align need = .go (m.pages page) (m.missTl addr) (s.usePages m addr (m.pages page)) := by
  have halign : (lanesWhere m.real fun l => (addr l).toNat % align != 0) = 0 := lanesWhere_eq_zero fun l hl => by simp [(h l hl).1]
  have houts : ((lanesOf m.real).map fun l => (l, s.laneXlate m.c m.x l (addr l))) = (lanesOf m.real).map fun l => (l, some (Xlate.page (page l))) :=
    List.map_congr_left fun l hl => by rw [(h l hl).2.1]
  have hknown : (((lanesOf m.real).map fun l => (l, some (Xlate.page (page l)))).filter fun (_, o) => o.isNone) = [] := by simp
  have hout (l : Nat) : ((((lanesOf m.real).map fun l => (l, some (Xlate.page (page l)))).find? fun (k, _) => k == l).bind (·.2)).getD .fault = m.laneOut page l := by
    rw [find?_lane, MoveIn.laneOut]
    split <;> rfl
  have hwaits : ((lanesOf m.real).any fun l => (m.laneOut page l).waits) = false :=
    List.any_eq_false.mpr fun l hl => by simp [MoveIn.laneOut_of_mem hl, Xlate.waits, (h l hl).2.2.2]
  have hfault : (lanesWhere m.real fun l => m.laneOut page l == .fault) = 0 := lanesWhere_eq_zero fun l hl => by simp [MoveIn.laneOut_of_mem hl]
  have hpool : (lanesWhere m.real fun l => m.laneOut page l == .pool) = 0 := lanesWhere_eq_zero fun l hl => by simp [MoveIn.laneOut_of_mem hl]
  unfold State.lsCheck
  simp only [halign, houts, hknown, hout, hwaits, hfault, hpool, List.map_nil, List.isEmpty_nil, bne_self_eq_false, Bool.not_true,
    Bool.false_eq_true, if_false]
  rw [lanesWhere_eq_zero (k := m.real) fun l hl => ?prot, MoveIn.filterMap_pages (page := page) fun l hl => ?listed]
  case prot => simp [MoveIn.laneOut_of_mem hl, (h l hl).2.2.1]
  case listed => rw [MoveIn.laneOut_of_mem hl]
  rfl

/-- Whether the miss slots have no room for an access of ls, or, of a line operation in a window, for its drawer requests (R319). -/
theorem State.accessWaits_iff {s : State} {m : MoveIn} {a : Access} {us : List LineUse} (hx : s.wave? m.w = some m.x) :
    s.accessWaits m a us = true ↔
      (if a.isLineOp then m.x.win.isSome = true ∧ s.slotsFree (coreOf m.w) (us.filter s.takesSlot) = false else s.slotsFree (coreOf m.w) us = false) ∨
      (a.isLoad = true ∧ ∃ u ∈ us, ∃ line, u.place = .mem line ∧ ∃ j b, (j, b) ∈ m.x.accs ∧ b.win = true ∧ b.kind = .cinvDis ∧ ∃ v ∈ b.lines, v.place = .mem line) := by
  unfold State.accessWaits
  rw [Bool.or_eq_true]
  refine or_congr ?_ ?_
  · rw [State.wave_of_wave? hx]
    split <;> simp
  · rw [List.any_eq_true]
    constructor
    · rintro ⟨u, hu, h⟩
      split at h
      · exact absurd h Bool.false_ne_true
      · rename_i line hline
        simp only [Bool.and_eq_true, List.any_eq_true, beq_iff_eq, hline] at h
        obtain ⟨hload, ⟨j, b⟩, hb, ⟨hwin, hkind⟩, v, hv, hplace⟩ := h
        exact ⟨hload, u, hu, line, hline, j, b, hb, hwin, hkind, v, hv, hplace⟩
    · rintro ⟨hload, u, hu, line, hline, j, b, hb, hwin, hkind, v, hv, hplace⟩
      refine ⟨u, hu, ?_⟩
      simp only [hline, hload, Bool.true_and, List.any_eq_true, Bool.and_eq_true, beq_iff_eq]
      exact ⟨(j, b), hb, ⟨hwin, hkind⟩, v, hv, hplace⟩

end Sys2Proof.Machine
end

section
/-! SUPPORT. The access that an ls trigger makes (R150 to R153), and what the machine is after it has entered. -/
namespace Sys2Proof.Machine

/-! The forms of ls as accesses. -/

/-- The permissions an access needs (R154). -/
def accNeed (k : AccKind) : Need := ⟨accReads k, match k with | .load _ _ => false | _ => true, k == .cinvDis⟩

/-- Its data: T, or o3 for at.cas, whose T is the second (R157, R158). -/
def accData (m : MoveIn) (k : AccKind) (l : Nat) : Word := if accWrites k then (if k = .atomic 9 then m.latchW .ls .o3 l else m.tw l) else 0
def accData2 (m : MoveIn) (k : AccKind) (l : Nat) : Word := if k = .atomic 9 then m.tw l else 0

/-- The access of a kind. -/
def lsOf (k : AccKind) (m : MoveIn) : Slot := lsAccess k (accAlign k) (accNeed k) (accAddr · k) (accData · k) (accData2 · k) m

theorem accPermits_eq (k : AccKind) (p : Page) (sup : Bool) : accPermits k p sup = p.allows (accNeed k) sup := by
  have hcoh : (p.coh != 3) = decide (p.coh ≠ 3) := by simp [bne, Bool.beq_eq_decide_eq]
  unfold accPermits Page.allows
  rw [hcoh]
  cases k <;> rfl

theorem getLsbD_shadows {c : Ctx} {l : Nat} (hl : l < 32) : c.shadows.getLsbD l = (c.shd && c.vac.getLsbD l && !c.vac.getLsbD (l ^^^ 16)) := by
  unfold Ctx.shadows
  cases c.shd
  · simp
  · rw [if_pos rfl, getLsbD_maskWhere, decide_eq_true hl, Bool.true_and, Bool.true_and]

/-- The shadow compare, told from the shadow lane and told from its partner. -/
theorem MoveIn.shadowDiff_eq (m : MoveIn) (f : Nat → List Dword) : m.shadowDiff f = shadowMismatch m f := by
  unfold MoveIn.shadowDiff shadowMismatch maskWhere
  refine congrArg maskOf (List.filter_congr fun p hp => ?_)
  have hp : p < 2 ^ 5 := List.mem_range.mp hp
  have hl : p ^^^ 16 < 32 := Nat.xor_lt_two_pow hp (by decide)
  have hback : p ^^^ 16 ^^^ 16 = p := by rw [Nat.xor_assoc, Nat.xor_self, Nat.xor_zero]
  have hf : (f p != f (p ^^^ 16)) = (f (p ^^^ 16) != f p) := bne_comm
  dsimp only
  rw [getLsbD_shadows hl, hback, hf, show m.x.ctx.shd = m.x.ctx.wstat.getLsbD 3 from rfl]
  generalize m.x.ctx.wstat.getLsbD 3 = shd, m.x.ctx.vac.getLsbD p = vac, m.x.ctx.vac.getLsbD (p ^^^ 16) = vac', m.c.cap.mask.getLsbD p = mask,
    m.en.getLsbD p = en, m.en.getLsbD (p ^^^ 16) = en', (f (p ^^^ 16) != f p) = differ
  revert shd vac vac' mask en en' differ
  decide

/-! Each form of ls with its kind is the access of that kind. -/
namespace State.Issues
variable {s : State} {gd : Guard} {src : Src} {m : MoveIn}

theorem lsLoad (h : s.Issues gd src m) (hr : m.real ≠ 0) (w : Nat) (signed : Bool) : Machine.lsLoad w signed gd src s = lsOf (.load w signed) m s :=
  h.withReal hr _

/-- A move at which shadow pairs are compared, without a difference and with an enabled lane that is no shadow. -/
theorem withPairs_real (h : s.Issues gd src m) (hr : m.real ≠ 0) {f : MoveIn → Nat → List Dword} (go : MoveIn → Slot) (hd : shadowMismatch m (f m) = 0) :
    Machine.withPairs gd src f go s = go m s := by
  rw [h.withPairs (en_of_real hr) f go (m.shadowDiff_eq (f m) ▸ hd), if_neg hr]

theorem lsStore (h : s.Issues gd src m) (hr : m.real ≠ 0) {w : Nat} (hd : lsMismatch m (.store w) = 0) :
    Machine.lsStore w gd src s = lsOf (.store w) m s := h.withPairs_real hr _ hd

theorem lsAtomic (h : s.Issues gd src m) (hr : m.real ≠ 0) {op : Nat} (hop : op ≠ 9) (hd : lsMismatch m (.atomic op) = 0) :
    Machine.lsAtomic op gd src s = lsOf (.atomic op) m s := by
  have hne : AccKind.atomic op ≠ .atomic 9 := fun e => hop (AccKind.atomic.inj e)
  have hdata : (accData · (.atomic op)) = (·.tw) := funext fun m => funext fun l => if_neg hne
  have hdata2 : (accData2 · (.atomic op)) = noData := funext fun m => funext fun l => if_neg hne
  have hdiff : shadowMismatch m (lsPair m) = 0 := by
    rw [← hd]
    simp only [lsMismatch, if_neg hne]
    rfl
  unfold lsOf
  rw [hdata, hdata2]
  exact h.withPairs_real hr _ hdiff

theorem lsCas (h : s.Issues gd src m) (hr : m.real ≠ 0) (hd : lsMismatch m (.atomic 9) = 0) : slotLsAtCas gd src s = lsOf (.atomic 9) m s :=
  h.withPairs_real hr _ hd

theorem lsLineOp (h : s.Issues gd src m) (hr : m.real ≠ 0) : Machine.lsLineOp .cwb false gd src s = lsOf .cwb m s ∧
    Machine.lsLineOp .cinvWb false gd src s = lsOf .cinvWb m s ∧ Machine.lsLineOp .cinvDis true gd src s = lsOf .cinvDis m s :=
  ⟨h.withReal hr _, h.withReal hr _, h.withReal hr _⟩

/-- A form of ls without a shadow mismatch is the access of its kind (R150). -/
theorem exec_lsForm (h : s.Issues gd src m) (hr : m.real ≠ 0) {i : Instr} {k : AccKind} (hi : (i, k) ∈ lsForms gd src) (hd : lsMismatch m k = 0) :
    exec i s = asStep (lsOf k m s) s := by
  have load (w : Nat) (signed : Bool) := congrArg (asStep · s) (h.lsLoad hr w signed)
  have store {w : Nat} (hd : lsMismatch m (.store w) = 0) := congrArg (asStep · s) (h.lsStore hr hd)
  have atomic {op : Nat} (hop : op ≠ 9) (hd : lsMismatch m (.atomic op) = 0) := congrArg (asStep · s) (h.lsAtomic hr hop hd)
  obtain ⟨cwb, cinvWb, cinvDis⟩ := h.lsLineOp hr
  simp only [lsForms, List.mem_append, List.mem_cons, List.not_mem_nil, or_false, Prod.mk.injEq, or_assoc] at hi
  rcases hi with ⟨rfl, rfl⟩ | ⟨rfl, rfl⟩ | ⟨rfl, rfl⟩ | ⟨rfl, rfl⟩ | ⟨rfl, rfl⟩ | ⟨rfl, rfl⟩ | ⟨rfl, rfl⟩ | ⟨rfl, rfl⟩ | ⟨rfl, rfl⟩ | ⟨rfl, rfl⟩ | ⟨rfl, rfl⟩ |
    ⟨rfl, rfl⟩ | ⟨rfl, rfl⟩ | ⟨rfl, rfl⟩ | ⟨rfl, rfl⟩ | ⟨rfl, rfl⟩ | ⟨rfl, rfl⟩ | ⟨rfl, rfl⟩ | ⟨rfl, rfl⟩ | ⟨rfl, rfl⟩ | ⟨rfl, rfl⟩ | ⟨rfl, rfl⟩
  iterate 5 exact load _ _
  iterate 3 exact store hd
  iterate 9 exact atomic (by decide) hd
  · exact congrArg (asStep · s) (h.lsCas hr hd)
  · exact atomic (by decide) hd
  · exact congrArg (asStep · s) cwb
  · exact congrArg (asStep · s) cinvWb
  · exact congrArg (asStep · s) cinvDis

end State.Issues

/-- No form of ls is a fence: its access answers into the FIFO, or counts as a store. -/
theorem kind_of_lsForm {gd : Guard} {src : Src} {i : Instr} {k : AccKind} (hi : (i, k) ∈ lsForms gd src) (n : Nat) : k ≠ .fence n := by
  rintro rfl
  simp [lsForms] at hi

end Sys2Proof.Machine
end

section
/-! SUPPORT. An access of ls enters and its parts are sent on their way (R150 to R158, R171, R318, R319). -/
namespace Sys2Proof.Machine

/-! What an access is, told by its kind (R150). -/
section
variable {a : Access}

theorem Access.answers_eq (a : Access) : (a.isLoad || a.isAtomic) = accReads a.kind := by
  unfold Access.isLoad Access.isAtomic
  cases a.kind <;> rfl

theorem Access.isLoad_eq (a : Access) : a.isLoad = (accReads a.kind && !accWrites a.kind) := by
  unfold Access.isLoad
  cases a.kind <;> rfl

theorem Access.storing_eq (h : ∀ n, a.kind ≠ .fence n) : a.storing = !accReads a.kind := by
  unfold Access.storing
  cases hk : a.kind with
  | fence n => exact absurd hk (h n)
  | _ => rfl

theorem Access.isLineOp_eq (h : ∀ n, a.kind ≠ .fence n) : a.isLineOp = !(accReads a.kind || accWrites a.kind) := by
  unfold Access.isLineOp
  cases hk : a.kind with
  | fence n => exact absurd hk (h n)
  | _ => rfl
end

/-! Before the access enters: the look-ups and the count of reserved policy bits (R165, R324). -/

theorem State.countPolign_eq (s : State) (w : Nat) : s.countPolign w = { s with cores := (s.countPolign w).cores } := by
  unfold State.countPolign
  split <;> rfl

theorem State.usePages_eq (s : State) (m : MoveIn) (addr : Nat → Dword) (ps : Map Page) :
    s.usePages m addr ps = { s with cores := (s.usePages m addr ps).cores, waves := (s.usePages m addr ps).waves } := by
  unfold State.usePages State.modWave
  dsimp only
  split <;> rfl

/-- The state that an access enters. -/
def State.lookedUp (s : State) (m : MoveIn) (addr : Nat → Dword) (ps : Map Page) : State := (s.usePages m addr ps).countPolign m.w

theorem State.lookedUp_eq (s : State) (m : MoveIn) (addr : Nat → Dword) (ps : Map Page) :
    s.lookedUp m addr ps = { s with cores := (s.lookedUp m addr ps).cores, waves := (s.usePages m addr ps).waves } := by
  unfold State.lookedUp
  rw [State.countPolign_eq, State.usePages_eq]

theorem State.lookedUp_others {s : State} {m : MoveIn} {addr : Nat → Dword} {ps : Map Page} {v : Nat} (hv : v ≠ m.w) :
    (s.lookedUp m addr ps).wave? v = s.wave? v := by
  rw [State.lookedUp_eq]
  show (s.usePages m addr ps).wave? v = _
  rw [State.usePages, State.wave?_modWave, if_neg hv]
  rfl

/-- The issuing wave: its last-page registers alone have changed. -/
theorem State.lookedUp_wave {s : State} {m : MoveIn} {addr : Nat → Dword} {ps : Map Page} (hx : s.wave? m.w = some m.x) :
    ∃ last, (s.lookedUp m addr ps).wave? m.w = some { m.x with lastPage := last } := by
  rw [State.lookedUp_eq]
  show ∃ last, (s.usePages m addr ps).wave? m.w = _
  rw [State.usePages, State.wave?_modWave, if_pos rfl, State.wave?_modCore, hx]
  exact ⟨_, rfl⟩

/-- Where the bytes and the teams are the same, so is all memory. -/
theorem State.SameMemory.of_eq {s t : State} (hm : t.mem = s.mem) (hd : t.drawer = s.drawer) (hc : t.clovers = s.clovers) (ht : t.teams = s.teams) :
    s.SameMemory t := by
  have hscr (k a : Nat) : t.scrByte k a = s.scrByte k a := by unfold State.scrByte State.team?; rw [ht]
  refine ⟨fun a => by rw [hm], hscr, fun a => by rw [hd], fun c a => by unfold State.clover; rw [hc], fun _ a => ?_⟩
  have hat : t.scratchAt a = s.scratchAt a := by unfold State.scratchAt; rw [ht]
  unfold State.byte
  rw [hat, hm]
  split
  · exact hscr _ _
  · rfl

/-! The access. -/

/-- The physical address of a lane. -/
def lsPa (m : MoveIn) (k : AccKind) (page : Nat → Page) (l : Nat) : Nat := (page l).addr (accAddr m k l).toNat

/-- The lines that the lanes name. -/
def State.lsLines (s : State) (m : MoveIn) (k : AccKind) (page : Nat → Page) : List LineUse :=
  groupLines (lanesOf m.real) fun l => s.lineUse (page l) (lsPa m k page l) l

/-- The access of a kind, its pages known. -/
def State.lsRecord (s : State) (m : MoveIn) (k : AccKind) (page : Nat → Page) : Access :=
  { m.newAccess false k (accAddr m k) (accData m k) (accData2 m k) with
    pa := (lanesOf m.real).map fun l => (l, lsPa m k page l), lines := s.lsLines m k page, tl := m.missTl (accAddr m k) }

/-- The lanes pass their checks: aligned addresses in pages that permit the access, none of them in a bias flip. -/
def State.LsPasses (s : State) (m : MoveIn) (k : AccKind) (page : Nat → Page) : Prop :=
  ∀ l < 32, m.real.getLsbD l = true → (accAddr m k l).toNat % accAlign k = 0 ∧ s.laneXlate m.c m.x l (accAddr m k l) = some (.page (page l)) ∧
    accPermits k (page l) (m.x.ctx.wstat.getLsbD 4) = true ∧ (page l).flip = false

/-- An access whose lanes pass their checks waits in place, or it enters and its parts are sent on their way. -/
theorem State.lsOf_eq {s : State} {m : MoveIn} {k : AccKind} {page : Nat → Page} (h : s.LsPasses m k page) :
    lsOf k m s = if s.accessWaits m (s.lsRecord m k page) (s.lsLines m k page) then .hold [] else
      let r := (s.lookedUp m (accAddr m k) (m.pages page)).enter m (s.lsRecord m k page)
      .ok (r.2.requestAll m.w r.1) := by
  have hgo : s.lsCheck m (accAddr m k) (accAlign k) (accNeed k) = .go (m.pages page) (m.missTl (accAddr m k)) (s.usePages m (accAddr m k) (m.pages page)) :=
    State.lsCheck_go fun l hl => by
      obtain ⟨hl, hreal⟩ := mem_lanesOf.mp hl
      obtain ⟨halign, hpage, hpermits, hflip⟩ := h l hl hreal
      exact ⟨halign, hpage, accPermits_eq k _ _ ▸ hpermits, hflip⟩
  have hpa : ((m.pages page).map fun (l, p) => (l, p.addr (accAddr m k l).toNat)) = (lanesOf m.real).map fun l => (l, lsPa m k page l) := by
    rw [MoveIn.pages, List.map_map]
    rfl
  have hlines : (groupLines (lanesOf m.real) fun l => s.lineUse ((Map.find? (m.pages page) l).getD (pageOf 0 0 0 false))
      (Map.get 0 ((lanesOf m.real).map fun l => (l, lsPa m k page l)) l) l) = s.lsLines m k page :=
    groupLines_congr fun l hl => by rw [MoveIn.pages, Map.find?_map_pair _ _ hl, Map.get_eq_find?, Map.find?_map_pair _ _ hl]; rfl
  unfold lsOf lsAccess
  simp only [hgo, hpa, hlines]
  rfl

end Sys2Proof.Machine
end

section
/-! O28. An ls trigger that passes its checks waits in place or enters its access (R15, R21, R150 to R158, R163, R171, R319). -/
namespace Sys2Proof.Machine

/-! When it waits. -/

/-- The line of memory that a lane names, where no scratch window covers its address. -/
theorem State.lineUse_place_iff (s : State) (p : Page) (pa l line : Nat) :
    (s.lineUse p pa l).place = .mem line ↔ (s.scratchAt pa).isSome = false ∧ pa / 128 = line := by
  unfold State.lineUse
  cases s.scratchAt pa <;> simp

section
variable {s : State} {m : MoveIn} {k : AccKind} {page : Nat → Page}

/-- The lines of memory that the access names are those of its lanes. -/
theorem State.mem_lsLines_iff {line : Nat} : (∃ u ∈ s.lsLines m k page, u.place = .mem line) ↔
    ∃ l < 32, m.real.getLsbD l = true ∧ (s.scratchAt (lsPa m k page l)).isSome = false ∧ lsPa m k page l / 128 = line := by
  constructor
  · rintro ⟨u, hu, hplace⟩
    obtain ⟨l, hl, hsame, -⟩ := mem_groupLines hu
    obtain ⟨hlt, hreal⟩ := mem_lanesOf.mp hl
    exact ⟨l, hlt, hreal, (s.lineUse_place_iff _ _ l line).mp (hsame.symm.trans hplace)⟩
  · rintro ⟨l, hlt, hreal, hline⟩
    obtain ⟨u, hu, hsame, -⟩ := covers_groupLines (fun l => s.lineUse (page l) (lsPa m k page l) l) (mem_lanesOf.mpr ⟨hlt, hreal⟩)
    exact ⟨u, hu, hsame.1.trans ((s.lineUse_place_iff _ _ l line).mpr hline)⟩

/-- The miss slots have no room for the access's lines, or, for a line operation in a window, for its drawer requests (R319). -/
def State.LsFull (s : State) (m : MoveIn) (k : AccKind) (page : Nat → Page) : Prop :=
  if (accReads k || accWrites k) = true then s.slotsFree (coreOf m.w) (s.lsLines m k page) = false
  else m.x.win.isSome = true ∧ s.slotsFree (coreOf m.w) ((s.lsLines m k page).filter s.takesSlot) = false

/-- It loads a line whose discard the wave's window holds (R171). -/
def State.LsHeld (s : State) (m : MoveIn) (k : AccKind) (page : Nat → Page) : Prop :=
  (accReads k && !accWrites k) = true ∧ ∃ l < 32, m.real.getLsbD l = true ∧ (s.scratchAt (lsPa m k page l)).isSome = false ∧
    ∃ j b, (j, b) ∈ m.x.accs ∧ b.win = true ∧ b.kind = .cinvDis ∧ ∃ u ∈ b.lines, u.place = .mem (lsPa m k page l / 128)

theorem State.lsWaits_iff (hx : s.wave? m.w = some m.x) (hk : ∀ n, k ≠ .fence n) :
    s.accessWaits m (s.lsRecord m k page) (s.lsLines m k page) = true ↔ s.LsFull m k page ∨ s.LsHeld m k page := by
  have hop : (s.lsRecord m k page).isLineOp = !(accReads k || accWrites k) := Access.isLineOp_eq hk
  rw [State.accessWaits_iff hx, Access.isLoad_eq, hop]
  refine or_congr ?_ (and_congr_right fun _ => ⟨?_, ?_⟩)
  · unfold State.LsFull
    cases accReads k || accWrites k <;> rfl
  · rintro ⟨u, hu, line, hline, hdiscard⟩
    obtain ⟨l, hl, hreal, hscr, rfl⟩ := State.mem_lsLines_iff.mp ⟨u, hu, hline⟩
    exact ⟨l, hl, hreal, hscr, hdiscard⟩
  · rintro ⟨l, hl, hreal, hscr, hdiscard⟩
    obtain ⟨u, hu, hline⟩ := State.mem_lsLines_iff.mpr ⟨l, hl, hreal, hscr, rfl⟩
    exact ⟨u, hu, _, hline, hdiscard⟩

/-! The access once it has entered. -/

/-- `b` has in lane `l` the address, the data and the line of the access of kind `k`. -/
structure Access.LsLane (b : Access) (m : MoveIn) (k : AccKind) (page : Nat → Page) (l : Nat) : Prop where
  addr : Map.get 0 b.addr l = accAddr m k l
  pa : Map.get 0 b.pa l = lsPa m k page l
  data : Map.get 0 b.data l = accData m k l
  data2 : Map.get 0 b.data2 l = accData2 m k l
  line : ∃ u ∈ b.lines, u.line = lsPa m k page l / 128 ∧ u.lanes.getLsbD l = true

theorem lsRecord_lane {l : Nat} (hl : l < 32) (hreal : m.real.getLsbD l = true) : (s.lsRecord m k page).LsLane m k page l := by
  have hmem : l ∈ lanesOf m.real := mem_lanesOf.mpr ⟨hl, hreal⟩
  have htab {α : Type} [DecidableEq α] (d : α) (f : Nat → α) : Map.get d ((lanesOf m.real).foldl (fun t l => Map.set d t l (f l)) []) l = f l := by
    rw [Map.get_foldl_set, if_pos hmem]
  refine ⟨htab 0 _, ?_, htab 0 _, htab 0 _, ?_⟩
  · show Map.get 0 ((lanesOf m.real).map fun l => (l, lsPa m k page l)) l = _
    rw [Map.get_eq_find?, Map.find?_map_pair _ _ hmem]
    rfl
  · obtain ⟨u, hu, hsame, hlanes⟩ := covers_groupLines (fun l => s.lineUse (page l) (lsPa m k page l) l) hmem
    refine ⟨u, hu, hsame.2, hlanes l ?_⟩
    show (BitVec.ofNat 32 (2 ^ l)).getLsbD l = true
    rw [BitVec.getLsbD_ofNat, Nat.testBit_two_pow_self, decide_eq_true hl]
    rfl

/-- Its parts sent on their way, the access is the same in every lane. -/
theorem Access.LsLane.progress {a b : Access} {l : Nat} (h : a.LsLane m k page l) (hab : a.Progress b) : b.LsLane m k page l := by
  obtain ⟨u, hu, hline, hlane⟩ := h.line
  obtain ⟨v, hv, hsame, hlanes⟩ := hab.covers ⟨u, hu, .refl u, fun _ h => h⟩
  have hb := hab.same
  refine ⟨?_, ?_, ?_, ?_, v, hv, hsame.2.trans hline, hlanes l hlane⟩
  · rw [hb]; exact h.addr
  · rw [hb]; exact h.pa
  · rw [hb]; exact h.data
  · rw [hb]; exact h.data2

/-- The state in which the access has entered and its parts have been sent on their way. -/
def State.lsEntered (s : State) (m : MoveIn) (k : AccKind) (page : Nat → Page) : State :=
  let r := (s.lookedUp m (accAddr m k) (m.pages page)).enter m (s.lsRecord m k page)
  r.2.requestAll m.w r.1

/-- The step of an ls trigger that passes its checks (R153, R171). -/
theorem State.Issues.exec_ls {gd : Guard} {src : Src} {i : Instr} (h : s.Issues gd src m) (hr : m.real ≠ 0) (hi : (i, k) ∈ lsForms gd src)
    (hd : lsMismatch m k = 0) (hp : s.LsPasses m k page) :
    exec i s = .next (if s.accessWaits m (s.lsRecord m k page) (s.lsLines m k page) then s.lookPages m.c.wave m.c.seq [] else s.lsEntered m k page) := by
  rw [h.exec_lsForm hr hi hd, State.lsOf_eq hp]
  split
  · exact asStep_hold h.cur []
  · rfl

/-- What the entry leaves as it was, and the wave and the access it leaves behind. -/
theorem State.lsEntered_spec (hx : s.wave? m.w = some m.x) (hk : ∀ n, k ≠ .fence n) :
    (∀ v, v ≠ m.w → (s.lsEntered m k page).wave? v = s.wave? v) ∧ s.SameMemory (s.lsEntered m k page) ∧
    ∃ x y b held, (∃ last, x = { m.x with lastPage := last }) ∧ (s.lsEntered m k page).wave? m.w = some y ∧
      y = { x.enterLs m.en (s.lsRecord m k page) s.now with accs := y.accs } ∧ Map.find? y.accs m.x.nextOp = some b ∧
      ((s.lsRecord m k page).entered m.x.nextOp held s.now).Progress b := by
  obtain ⟨last, hlast⟩ := State.lookedUp_wave (addr := accAddr m k) (ps := m.pages page) hx
  have hstore : (s.lsRecord m k page).storing = !((s.lsRecord m k page).isLoad || (s.lsRecord m k page).isAtomic) := by
    rw [Access.answers_eq, Access.storing_eq hk]
  have heq := State.lookedUp_eq s m (accAddr m k) (m.pages page)
  have hothers (v : Nat) (hv : v ≠ m.w) := State.lookedUp_others (s := s) (addr := accAddr m k) (ps := m.pages page) hv
  unfold State.lsEntered
  rw [State.enter_ls _ m (a := s.lsRecord m k page) rfl hstore, State.wave_of_wave? hlast]
  generalize s.lookedUp m (accAddr m k) (m.pages page) = s0 at *
  have hnow : s0.now = s.now := by rw [heq]
  rw [hnow]
  dsimp only
  generalize hx' : ({ m.x with lastPage := last } : Wave) = x
  have hop : x.nextOp = m.x.nextOp := by rw [← hx']
  have hsend := State.Sends.requestAll m.w m.x.nextOp (s0.setWave m.w (x.enterLs m.en (s.lsRecord m k page) s.now))
  refine ⟨fun v hv => ?_, ?_, ?_⟩
  · rw [hsend.others v hv, State.wave?_setWave, if_neg hv, hothers v hv]
  · refine .of_eq (hsend.mem.trans ?_) (hsend.drawer.trans ?_) (hsend.clovers.trans ?_) (hsend.teams.trans ?_) <;> rw [heq] <;> rfl
  · obtain ⟨y, hy, hxy, hacc⟩ := hsend.wave _ (by rw [State.wave?_setWave, if_pos rfl])
    obtain ⟨b, hb, hab⟩ := hacc _ (by rw [Wave.enterLs_accs, hop, Map.find?_put, if_pos rfl])
    exact ⟨x, y, b, _, ⟨last, hx'.symm⟩, hy, hxy, hb, hab⟩

/-- The wave that the access leaves behind, its accesses apart: no register changes, and st alone is not ready. -/
theorem Wave.enterLs_lsRecord {x y : Wave} {last : Map Page} {now : Nat} (hk : ∀ n, k ≠ .fence n) (hx : x = { m.x with lastPage := last })
    (hy : y = { x.enterLs m.en (s.lsRecord m k page) now with accs := y.accs }) :
    y.ctx = { m.x.ctx with busy := y.ctx.busy, last := y.ctx.last, ldc := m.x.ctx.ldc + (if accReads k then 1 else 0)
                           stc := m.x.ctx.stc + (if accReads k then 0 else 1),
                           lsFifo := m.x.ctx.lsFifo ++ (if accReads k then [⟨m.x.nextOp, m.en, [], false⟩] else []) } ∧
      (∀ l < 32, m.en.getLsbD l = true → (Map.get 0 y.ctx.busy (portVec .ls .st)).getLsbD l = true) ∧
      (∀ v, v ≠ portVec .ls .st → Map.get 0 y.ctx.busy v = Map.get 0 m.x.ctx.busy v) ∧
      y = { m.x with ctx := y.ctx, accs := y.accs, nextOp := m.x.nextOp + 1, win := y.win, trap := y.trap, lastPage := y.lastPage } ∧
      y.win.map (·.ckpt) = m.x.win.map (·.ckpt) ∧
      y.win.map (·.count) = m.x.win.map (fun v => v.count + if (accReads k && !accWrites k || !accReads k) = true then 1 else 0) ∧
      y.trap.map (·.saved) = m.x.trap.map (·.saved) := by
  have hctx := x.enterLs_ctx m.en (s.lsRecord m k page) now
  have hbusy := x.enterLs_busy m.en (s.lsRecord m k page) now
  have heq := x.enterLs_eq m.en (s.lsRecord m k page) now
  have hckpt := x.enterLs_ckpt m.en (s.lsRecord m k page) now
  have hcount := x.enterLs_count m.en (s.lsRecord m k page) now
  have hsaved := x.enterLs_saved m.en (s.lsRecord m k page) now
  have hkind : (s.lsRecord m k page).kind = k := rfl
  rw [Access.answers_eq, hkind] at hctx
  rw [Access.isLoad_eq, Access.storing_eq hk, hkind] at hcount
  generalize x.enterLs m.en (s.lsRecord m k page) now = e at *
  generalize y.accs = accs at *
  subst hy hx
  refine ⟨?_, fun l _ hl => ?_, fun v hv => ?_, ?_, hckpt, hcount, hsaved⟩
  · show e.ctx = _
    rw [hctx]
    unfold Ctx.enterLs
    cases accReads k
    · simp
    · rfl
  · show (Map.get 0 e.ctx.busy _).getLsbD l = true
    rw [hbusy, if_pos rfl, BitVec.getLsbD_or, hl, Bool.or_true]
  · show Map.get 0 e.ctx.busy v = _
    rw [hbusy, if_neg hv]
  · rw [heq]
end

/-- Settles O28: the checks passed, the step is `State.lsEntered` but where the access waits; what the entry leaves is told by `State.lsEntered_spec` and
`Wave.enterLs_lsRecord`, and the requests of its lines change no bytes and nothing of the access but how far its lines have come (`State.Sends`). -/
theorem lsStarts : Obligations.LsStarts := by
  intro s gd src m i k page h hr hi a pa fifo loads hd hp us full held
  have hk := kind_of_lsForm hi
  have hx : s.wave? m.w = some m.x := h.wave
  have hexec := h.exec_ls hr hi hd hp
  have hwaits : s.accessWaits m (s.lsRecord m k page) (s.lsLines m k page) = true ↔ full ∨ held := State.lsWaits_iff hx hk
  refine ⟨fun hw => ?_, fun hfull hheld => ?_⟩
  · rw [hexec, if_pos (hwaits.mpr hw)]
    rfl
  rw [if_neg fun hw => (hwaits.mp hw).elim hfull hheld] at hexec
  obtain ⟨hothers, hmem, x, y, b, inWindow, ⟨last, hlast⟩, hy, hxy, hb, hab⟩ := State.lsEntered_spec (s := s) (page := page) hx hk
  have hsame := hab.same
  refine ⟨_, y, b, hexec, hothers, hmem, hy, hb, by rw [hsame]; rfl, by rw [hsame]; rfl, by rw [hsame]; rfl, by rw [hsame]; rfl, fun l hl hreal => ?_,
    Wave.enterLs_lsRecord hk hlast hxy⟩
  have hentered : ((s.lsRecord m k page).entered m.x.nextOp inWindow s.now).LsLane m k page l :=
    have ⟨ha, hpa, hdata, hdata2, hline⟩ := lsRecord_lane (s := s) hl hreal
    ⟨ha, hpa, hdata, hdata2, hline⟩
  obtain ⟨haddr, hpa, hdata, hdata2, hline⟩ := hentered.progress hab
  exact ⟨haddr, hpa, fun hw => hdata.trans (if_pos hw), fun hcas => hdata2.trans (if_pos hcas), hline⟩

end Sys2Proof.Machine
end

section
/-! SUPPORT. Refusals of the decoder's checks, and the numbers of units, latches and ports (R14, R48, R64). -/
namespace Sys2Proof

/-! When a check refuses. -/
section
variable {ε α : Type} {r : ε} {a : α} {p : Prop} [Decidable p]

theorem dite_else_error_iff {f : p → Except ε α} : (∃ e, (if h : p then f h else .error r) = .error e) ↔ ∀ h : p, ∃ e, f h = .error e := by
  by_cases h : p <;> simp [h]

theorem ite_else_error_iff {x : Except ε α} : (∃ e, (if p then x else .error r) = .error e) ↔ (p → ∃ e, x = .error e) := by
  by_cases h : p <;> simp [h]

theorem ite_then_error_iff {x : Except ε α} : (∃ e, (if p then .error r else x) = .error e) ↔ p ∨ ∃ e, x = .error e := by
  by_cases h : p <;> simp [h]

theorem ite_then_ok_iff {x : Except ε α} : (∃ e, (if p then .ok a else x) = .error e) ↔ ¬p ∧ ∃ e, x = .error e := by
  by_cases h : p <;> simp [h]
end

/-! Fields of a word. -/

theorem field_eq {n v : Nat} {i : Fin n} (hn : 0 < n) (h : v % n = i.val) : field n hn v = i := Fin.ext h

theorem field_val {n : Nat} (hn : 0 < n) (i : Fin n) : field n hn i.val = i := field_eq hn (Nat.mod_eq_of_lt i.isLt)

@[simp] theorem toNat_beq_one (b : Bool) : (b.toNat == 1) = b := by cases b <;> rfl

theorem toNat_bit (v : Nat) : (v % 2 == 1).toNat = v % 2 := by
  rcases Nat.mod_two_eq_zero_or_one v with h | h <;> rw [h] <;> rfl

end Sys2Proof

namespace Sys2Proof.Machine

@[simp] theorem unitOf_unitCode (u : FuncUnit) : unitOf (unitCode u) = some u := by cases u <;> rfl

theorem unitOf_eq_some_iff {n : Nat} {u : FuncUnit} : unitOf n = some u ↔ n = unitCode u := by
  refine ⟨fun h => ?_, fun h => h ▸ unitOf_unitCode u⟩
  unfold unitOf at h
  split at h <;> cases h <;> rfl

theorem unitCode_range (u : FuncUnit) : 3 ≤ unitCode u ∧ unitCode u < 23 := by cases u <;> decide

/-- A unit field names a register file, a function unit, or nothing (R48). -/
theorem unit_cases (n : Nat) : n = 0 ∨ n = 1 ∨ n = 2 ∨ (∃ u, n = unitCode u) ∨ 23 ≤ n := by
  rcases Nat.lt_or_ge n 3 with h | h
  · interval_cases n <;> simp
  · rcases Nat.lt_or_ge n 23 with h' | h'
    · have hn : (unitOf n).isSome = true := by interval_cases n <;> rfl
      obtain ⟨u, hu⟩ := Option.isSome_iff_exists.mp hn
      exact .inr <| .inr <| .inr <| .inl ⟨u, unitOf_eq_some_iff.mp hu⟩
    · exact .inr <| .inr <| .inr <| .inr h'

theorem portCode_lt (p : PortNo) : portCode p < 3 := by cases p <;> decide

theorem latchCode_lt (k : LatchNo) : latchCode k < 4 := by cases k <;> decide

theorem latchCode_ne_two (k : LatchNo) : latchCode k ≠ 2 := by cases k <;> decide

theorem latchCode_inj {k l : LatchNo} : latchCode k = latchCode l ↔ k = l := by cases k <;> cases l <;> decide

/-- A port field means a trigger or a latch (R48). -/
theorem port_cases {p : Nat} (h : p < 4) : p = 2 ∨ ∃ k, p = latchCode k := by
  interval_cases p
  · exact .inr ⟨.o1, rfl⟩
  · exact .inr ⟨.o2, rfl⟩
  · exact .inl rfl
  · exact .inr ⟨.o3, rfl⟩

theorem PortNo.exists_iff {P : PortNo → Prop} : (∃ p, P p) ↔ P .res ∨ P .hi ∨ P .st :=
  ⟨fun ⟨p, h⟩ => by cases p <;> simp [h], fun h => by rcases h with h | h | h <;> exact ⟨_, h⟩⟩

end Sys2Proof.Machine
end

section
/-! SUPPORT. The source field of a move word (R51, R53): decode and encode agree, and what is refused. -/
namespace Sys2Proof
open Machine

theorem encodeSrc_lt (s : Src) : encodeSrc s < 2 ^ 16 := by
  cases s with
  | port u p =>
    have hu := unitCode_range u
    have hp := portCode_lt p
    simp only [encodeSrc]
    omega
  | _ => simp only [encodeSrc]; omega

/-! Decoding by class. -/

/-- The source of a class, by the value within it (R51). -/
def classSrc (c v : Nat) : Except Reject Src :=
  match c with
  | 0 => if h : v < 192 then .ok (.main ⟨v, h⟩) else .error .mainSource
  | 1 => decodeLaneSrc (v / 256) (v % 256)
  | 2 => if v < 128 then decodePortSrc (v / 4) (v % 4) else .error .portSource
  | 3 => .ok (.imm (field 8192 (by decide) v))
  | 4 => if h : v < 2 then .ok (.long ⟨v, h⟩) else .error .longSource
  | _ => .error .sourceClass

theorem decodeSrc_eq (n : Nat) : decodeSrc n = classSrc (n / 2 ^ 13 % 8) (n % 2 ^ 13) := rfl

theorem decodeSrc_class {n c v : Nat} (hc : c < 8) (hv : v < 2 ^ 13) (hn : n = c * 2 ^ 13 + v) : decodeSrc n = classSrc c v := by
  rw [decodeSrc_eq]
  congr 1 <;> omega

theorem decodeSrc_lane {n g it : Nat} (hg : g < 32) (hit : it < 256) (hn : n = 2 ^ 13 + 256 * g + it) : decodeSrc n = decodeLaneSrc g it := by
  rw [decodeSrc_class (c := 1) (v := 256 * g + it) (by omega) (by omega) (by omega)]
  show decodeLaneSrc _ _ = _
  congr 1 <;> omega

theorem decodeSrc_port {n u p : Nat} (hu : u < 32) (hp : p < 4) (hn : n = 2 * 2 ^ 13 + 4 * u + p) : decodeSrc n = decodePortSrc u p := by
  rw [decodeSrc_class (c := 2) (v := 4 * u + p) (by omega) (by omega) (by omega)]
  refine (if_pos (by omega)).trans ?_
  congr 1 <;> omega

/-! Decode after encode. -/

theorem decodePortSrc_code {u : FuncUnit} {p : PortNo} (h : hasPort u p = true) : decodePortSrc (unitCode u) (portCode p) = .ok (.port u p) := by
  unfold decodePortSrc
  rw [unitOf_unitCode]
  cases p <;> exact if_pos h

theorem decodeLaneSrc_head (q : Fin 4) (f : Fin 8) : decodeLaneSrc 5 (8 * q.val + f.val) = .ok (.head q f) := by
  fin_cases q <;> fin_cases f <;> rfl

theorem decodeSrc_encodeSrc {s : Src} (h : s.wellFormed = true) : decodeSrc (encodeSrc s) = .ok s := by
  have lane {g it : Nat} (hg : g < 8) (hit : it < 256) (hn : encodeSrc s = 2 ^ 13 + 256 * g + it) : decodeSrc (encodeSrc s) = decodeLaneSrc g it :=
    decodeSrc_lane (Nat.lt_trans hg (by decide)) hit hn
  cases s with
  | main i => exact (decodeSrc_class (c := 0) (v := i.val) (by decide) (by omega) (Nat.zero_add _).symm).trans (dif_pos i.isLt)
  | opnd i => exact (lane (g := 0) (by decide) (by omega) rfl).trans (dif_pos i.isLt)
  | guard i => exact (lane (g := 1) (by decide) (by omega) rfl).trans (dif_pos i.isLt)
  | base i => exact (lane (g := 2) (by decide) (by omega) rfl).trans (dif_pos i.isLt)
  | baseHi i => exact (lane (g := 3) (by decide) (by omega) rfl).trans (dif_pos i.isLt)
  | pair i => exact (lane (g := 4) (by decide) (by omega) rfl).trans (dif_pos i.isLt)
  | head q f => exact (lane (g := 5) (by decide) (by omega) (Nat.add_assoc ..)).trans (decodeLaneSrc_head q f)
  | index i => exact (lane (g := 6) (by decide) (by omega) rfl).trans (dif_pos i.isLt)
  | lane => rfl
  | wave => rfl
  | team => rfl
  | port u p =>
    have hu := unitCode_range u
    have hp := portCode_lt p
    exact (decodeSrc_port (by omega) (by omega) rfl).trans (decodePortSrc_code h)
  | imm v => exact (decodeSrc_class (c := 3) (by decide) (by omega) rfl).trans (congrArg (Except.ok <| Src.imm ·) (field_val _ v))
  | long i => exact (decodeSrc_class (c := 4) (by decide) (by omega) rfl).trans (dif_pos i.isLt)

/-! Encode after decode. -/

theorem decodeLaneSrc_ok {g it : Nat} {s : Src} (h : decodeLaneSrc g it = .ok s) : s.wellFormed = true ∧ encodeSrc s = 2 ^ 13 + 256 * g + it := by
  unfold decodeLaneSrc at h
  split at h
  case h_6 =>
    split at h <;> cases h
    refine ⟨rfl, ?_⟩
    simp only [encodeSrc, field]
    omega
  case h_8 =>
    split_ifs at h <;> cases h <;> subst it <;> exact ⟨rfl, rfl⟩
  case h_9 => cases h
  all_goals
    split at h <;> cases h
    exact ⟨rfl, rfl⟩

theorem decodePortSrc_ok {u p : Nat} {s : Src} (h : decodePortSrc u p = .ok s) : s.wellFormed = true ∧ encodeSrc s = 2 * 2 ^ 13 + 4 * u + p := by
  unfold decodePortSrc at h
  split at h
  case h_1 => cases h
  case h_2 f hf =>
    obtain rfl := unitOf_eq_some_iff.mp hf
    split at h
    case h_4 => cases h
    all_goals
      split at h <;> cases h
      exact ⟨‹_›, rfl⟩

theorem classSrc_ok {c v : Nat} {s : Src} (hv : v < 2 ^ 13) (h : classSrc c v = .ok s) : s.wellFormed = true ∧ encodeSrc s = c * 2 ^ 13 + v := by
  unfold classSrc at h
  split at h
  · split at h <;> cases h
    exact ⟨rfl, (Nat.zero_add v).symm⟩
  · obtain ⟨hs, he⟩ := decodeLaneSrc_ok h
    exact ⟨hs, by omega⟩
  · split at h
    · obtain ⟨hs, he⟩ := decodePortSrc_ok h
      exact ⟨hs, by omega⟩
    · cases h
  · cases h
    exact ⟨rfl, congrArg (0x6000 + ·) (Nat.mod_eq_of_lt hv)⟩
  · split at h <;> cases h
    exact ⟨rfl, rfl⟩
  · cases h

theorem decodeSrc_ok {n : Nat} {s : Src} (hn : n < 2 ^ 16) (h : decodeSrc n = .ok s) : s.wellFormed = true ∧ encodeSrc s = n := by
  obtain ⟨hs, he⟩ := classSrc_ok (Nat.mod_lt n (by decide)) h
  exact ⟨hs, by omega⟩

/-! What is refused (R64). -/

theorem decodeLaneSrc_error_iff {g it : Nat} : (∃ e, decodeLaneSrc g it = .error e) ↔
    8 ≤ g ∨ g ≤ 1 ∧ 8 ≤ it ∨ 2 ≤ g ∧ g ≤ 3 ∧ 16 ≤ it ∨ g = 4 ∧ 96 ≤ it ∨ g = 5 ∧ 32 ≤ it ∨ g = 6 ∧ 6 ≤ it ∨ g = 7 ∧ 3 ≤ it := by
  rcases Nat.lt_or_ge g 8 with hg | hg
  · interval_cases g <;> simp [decodeLaneSrc, dite_else_error_iff, ite_else_error_iff, ite_then_ok_iff]
    omega
  · obtain ⟨k, rfl⟩ := Nat.exists_eq_add_of_le' hg
    exact iff_of_true ⟨_, rfl⟩ (.inl hg)

theorem decodePortSrc_error_iff {u p : Nat} : (∃ e, decodePortSrc u p = .error e) ↔
    3 ≤ p ∨ unitOf u = none ∨ ∃ f q, unitOf u = some f ∧ p = portCode q ∧ hasPort f q = false := by
  unfold decodePortSrc
  cases hu : unitOf u with
  | none => simp
  | some f =>
    rcases Nat.lt_or_ge p 3 with hp | hp
    · interval_cases p <;> simp [ite_else_error_iff, PortNo.exists_iff, portCode]
    · obtain ⟨k, rfl⟩ := Nat.exists_eq_add_of_le' hp
      exact iff_of_true ⟨_, rfl⟩ (.inl hp)

/-- The values of each class that name no source (R64). -/
def SrcReserved (c v : Nat) : Prop :=
  5 ≤ c ∨ (c = 0 ∧ 192 ≤ v) ∨ (c = 1 ∧ (8 ≤ v / 256 ∨ v / 256 ≤ 1 ∧ 8 ≤ v % 256 ∨ 2 ≤ v / 256 ∧ v / 256 ≤ 3 ∧ 16 ≤ v % 256 ∨
    v / 256 = 4 ∧ 96 ≤ v % 256 ∨ v / 256 = 5 ∧ 32 ≤ v % 256 ∨ v / 256 = 6 ∧ 6 ≤ v % 256 ∨ v / 256 = 7 ∧ 3 ≤ v % 256)) ∨
  (c = 2 ∧ (128 ≤ v ∨ v % 4 = 3 ∨ unitOf (v / 4) = none ∨ ∃ u p, unitOf (v / 4) = some u ∧ v % 4 = portCode p ∧ hasPort u p = false)) ∨ (c = 4 ∧ 2 ≤ v)

theorem classSrc_error_iff {c v : Nat} : (∃ e, classSrc c v = .error e) ↔ SrcReserved c v := by
  unfold SrcReserved
  rcases Nat.lt_or_ge c 5 with hc | hc
  · have hp : 3 ≤ v % 4 ↔ v % 4 = 3 := by omega
    interval_cases c
    · simp [classSrc, dite_else_error_iff]
    · simp [classSrc, decodeLaneSrc_error_iff]
    · simp [classSrc, ite_else_error_iff, decodePortSrc_error_iff, hp]
      rw [← not_lt]
      exact imp_iff_not_or
    · simp [classSrc]
    · simp [classSrc, dite_else_error_iff]
      rfl
  · obtain ⟨k, rfl⟩ := Nat.exists_eq_add_of_le' hc
    exact iff_of_true ⟨_, rfl⟩ (.inl hc)

end Sys2Proof
end

section
/-! SUPPORT. The operations of the units (R62): each unit's table read both ways, and the moves by their forms. -/
namespace Sys2Proof
open Machine

/-- An operation that decodes is the move of its row, and its row is one of its unit's. -/
theorem decodeOp_ok {gd : Guard} {s : Src} {op : Nat} {u : FuncUnit} {i : Instr} (h : decodeOp gd s op u = .ok i) :
    moveFields i = some (trigger gd u op s) ∧ i.wellFormed = s.wellFormed ∧ op < opCount u := by
  cases u
  all_goals
    simp only [decodeOp, decodeIa.eq_def, decodeMa.eq_def, decodeSa.eq_def, decodeFa.eq_def, decodeCk.eq_def, decodeXf.eq_def, decodeCv.eq_def, decodeCx.eq_def,
      decodeLs.eq_def, decodeSp.eq_def, decodeXl.eq_def, decodeQu.eq_def, decodeEn.eq_def, decodeMx.eq_def, decodeCt.eq_def, decodeSy.eq_def] at h
    split at h <;> cases h
    all_goals exact ⟨rfl, rfl, by decide⟩

/-- Every row of a unit's table decodes. -/
theorem decodeOp_ok_of_lt {u : FuncUnit} {op : Nat} (h : op < opCount u) (gd : Guard) (s : Src) : ∃ i, decodeOp gd s op u = .ok i := by
  cases u
  all_goals
    unfold opCount at h
    interval_cases op <;> exact ⟨_, rfl⟩

theorem decodeOp_error_iff {gd : Guard} {s : Src} {op : Nat} {u : FuncUnit} : (∃ e, decodeOp gd s op u = .error e) ↔ opCount u ≤ op := by
  rw [← not_lt]
  constructor
  · rintro ⟨e, h⟩ hop
    obtain ⟨i, hi⟩ := decodeOp_ok_of_lt hop gd s
    cases hi.symm.trans h
  · intro hop
    cases h : decodeOp gd s op u with
    | error e => exact ⟨e, rfl⟩
    | ok i => exact absurd (decodeOp_ok h).2.2 hop

theorem opCount_le (u : FuncUnit) : opCount u ≤ 32 := by cases u <;> decide

/-! Twin units share a table, and the rows of cv and mx that hold a format slot run together. -/
section
variable (gd : Guard) (s : Src) (op : Nat) (t : Twin) (n : Fin 8)

theorem decodeOp_ia : decodeOp gd s op (twin t .ia .ib) = decodeIa gd t s op := by cases t <;> rfl
theorem decodeOp_ma : decodeOp gd s op (twin t .ma .mb) = decodeMa gd t s op := by cases t <;> rfl
theorem decodeOp_sa : decodeOp gd s op (twin t .sa .sb) = decodeSa gd t s op := by cases t <;> rfl
theorem decodeOp_fa : decodeOp gd s op (twin t .fa .fb) = decodeFa gd t s op := by cases t <;> rfl

theorem decodeOp_cv : decodeOp gd s (0 + n.val) .cv = .ok (.cvUp gd n s) ∧ decodeOp gd s (8 + n.val) .cv = .ok (.cvDn gd n s) ∧
    decodeOp gd s (16 + n.val) .cv = .ok (.cvDot gd n s) ∧ decodeOp gd s (24 + n.val) .cv = .ok (.cvSc gd n s) := by
  fin_cases n <;> exact ⟨rfl, rfl, rfl, rfl⟩

theorem decodeOp_mx : decodeOp gd s (0 + n.val) .mx = .ok (.mxMma gd n s) ∧ decodeOp gd s (8 + n.val) .mx = .ok (.mxMms gd n s) ∧
    decodeOp gd s (16 + n.val) .mx = .ok (.mxEpi gd n s) := by
  fin_cases n <;> exact ⟨rfl, rfl, rfl⟩
end

/-- The forms of a move and their fields: a write to a register file or a latch, or a trigger of an operation that its unit's table gives back. -/
inductive MoveForm : Instr → MoveFields → Prop
  | m0 (gd : Guard) (r : Fin 128) (s : Src) : MoveForm (.moveM0 gd r s) ⟨gd, 0, r.val / 32, r.val % 32, s⟩
  | m1 (gd : Guard) (r : Fin 64) (s : Src) : MoveForm (.moveM1 gd r s) ⟨gd, 1, r.val / 32, r.val % 32, s⟩
  | lf (gd : Guard) (d : LfDest) (s : Src) : MoveForm (.moveLf gd d s) ⟨gd, 2, encodeLf d / 32, encodeLf d % 32, s⟩
  | latch (gd : Guard) (u : FuncUnit) (k : LatchNo) (s : Src) : MoveForm (.latchWrite gd u k s) ⟨gd, unitCode u, latchCode k, 0, s⟩
  | op {i : Instr} {gd : Guard} {u : FuncUnit} {op : Nat} {s : Src} (hi : decodeOp gd s op u = .ok i) : MoveForm i (trigger gd u op s)

/-- Every move has one of the forms; the rows are in the order of the constructors, and an event has no fields. -/
theorem moveForm {i : Instr} {f : MoveFields} (h : moveFields i = some f) : MoveForm i f := by
  cases i <;> cases h
  · exact .m0 ..
  · exact .m1 ..
  · exact .lf ..
  · exact .latch ..
  iterate 29 exact .op (decodeOp_ia ..)
  iterate 10 exact .op (decodeOp_ma ..)
  iterate 14 exact .op (decodeOp_sa ..)
  iterate 3 exact .op rfl
  iterate 20 exact .op (decodeOp_fa ..)
  iterate 10 exact .op rfl
  · exact .op (decodeOp_cv ..).1
  · exact .op (decodeOp_cv ..).2.1
  · exact .op (decodeOp_cv ..).2.2.1
  · exact .op (decodeOp_cv ..).2.2.2
  iterate 82 exact .op rfl
  · exact .op (decodeOp_mx ..).1
  · exact .op (decodeOp_mx ..).2.1
  · exact .op (decodeOp_mx ..).2.2
  all_goals exact .op rfl

/-- The fields of a move fit theirs in its word (R47). -/
theorem moveFields_lt {i : Instr} {f : MoveFields} (h : moveFields i = some f) : f.unit < 32 ∧ f.port < 4 ∧ f.op < 32 := by
  cases moveForm h with
  | m0 gd r s => dsimp only; omega
  | m1 gd r s => dsimp only; omega
  | lf gd d s =>
    have hd : encodeLf d < 72 := by cases d <;> simp only [encodeLf] <;> omega
    dsimp only
    omega
  | latch gd u k s => exact ⟨Nat.lt_trans (unitCode_range u).2 (by decide), latchCode_lt k, Nat.zero_lt_succ _⟩
  | op hi =>
    obtain ⟨-, -, hop⟩ := decodeOp_ok hi
    exact ⟨Nat.lt_trans (unitCode_range _).2 (by decide), show 2 < 4 by decide, Nat.lt_of_lt_of_le hop (opCount_le _)⟩

/-- The source of a well-formed move is well formed. -/
theorem moveFields_src {i : Instr} {f : MoveFields} (hi : i.wellFormed = true) (h : moveFields i = some f) : f.src.wellFormed = true := by
  cases moveForm h with
  | m0 | m1 | lf => exact hi
  | latch => exact (Bool.and_eq_true_iff.mp hi).2
  | op hop =>
    obtain ⟨-, hw, -⟩ := decodeOp_ok hop
    exact hw.symm.trans hi

end Sys2Proof
end

section
/-! SUPPORT. The destination part of a move word (R48, R49): decode and encode agree, and what is refused. -/
namespace Sys2Proof
open Machine

/-! The lane file. -/

theorem decodeLf_encodeLf (d : LfDest) : decodeLf (encodeLf d) = .ok d := by
  cases d with | _ i => fin_cases i <;> rfl

theorem decodeLf_ok_of_lt {n : Nat} (h : n < 72) : ∃ d, decodeLf n = .ok d ∧ encodeLf d = n := by
  interval_cases n <;> exact ⟨_, rfl, rfl⟩

theorem decodeLf_of_le {n : Nat} (h : 72 ≤ n) : decodeLf n = .error .reservedLaneDest := by
  unfold decodeLf
  rw [dif_neg (by omega), if_neg (by omega), if_neg (by omega), if_neg (by omega), if_neg (by omega), if_neg (by omega)]

theorem decodeLf_ok {n : Nat} {d : LfDest} (h : decodeLf n = .ok d) : encodeLf d = n := by
  rcases Nat.lt_or_ge n 72 with hn | hn
  · obtain ⟨d', hd, he⟩ := decodeLf_ok_of_lt hn
    obtain rfl := Except.ok.inj (hd.symm.trans h)
    exact he
  · cases (decodeLf_of_le hn).symm.trans h

theorem decodeLf_error_iff {n : Nat} : (∃ e, decodeLf n = .error e) ↔ 72 ≤ n := by
  refine ⟨fun ⟨e, h⟩ => ?_, fun h => ⟨_, decodeLf_of_le h⟩⟩
  by_contra hn
  obtain ⟨d, hd, -⟩ := decodeLf_ok_of_lt (Nat.lt_of_not_le hn)
  cases hd.symm.trans h

/-! The function units. -/

theorem decodeDest_latch (gd : Guard) (u : FuncUnit) (k : LatchNo) (op : Nat) (s : Src) :
    decodeDest gd (unitCode u) (latchCode k) op s = decodeLatch gd u k op s := by
  cases u <;> cases k <;> rfl

theorem decodeDest_trigger (gd : Guard) (u : FuncUnit) (op : Nat) (s : Src) : decodeDest gd (unitCode u) 2 op s = decodeOp gd s op u := by
  cases u <;> rfl

theorem decodeDest_reserved {unit : Nat} (h : 23 ≤ unit) (gd : Guard) (port op : Nat) (s : Src) :
    decodeDest gd unit port op s = .error .reservedUnit := by
  obtain ⟨k, rfl⟩ := Nat.exists_eq_add_of_le' h
  rfl

theorem decodeLatch_error_iff {gd : Guard} {u : FuncUnit} {k : LatchNo} {op : Nat} {s : Src} :
    (∃ e, decodeLatch gd u k op s = .error e) ↔ op ≠ 0 ∨ hasLatch u k = false := by
  unfold decodeLatch
  rw [ite_then_error_iff, ite_else_error_iff]
  simp

/-! Both ways, by the forms of a move. -/

theorem decodeDest_of_moveFields {i : Instr} {f : MoveFields} (hi : i.wellFormed = true) (h : moveFields i = some f) :
    decodeDest f.gd f.unit f.port f.op f.src = .ok i := by
  cases moveForm h with
  | m0 gd r s => simp only [decodeDest, Nat.div_add_mod', field_val]
  | m1 gd r s => simp only [decodeDest, Nat.div_add_mod', r.isLt, dite_true]
  | lf gd d s => simp only [decodeDest, Nat.div_add_mod', decodeLf_encodeLf]
  | latch gd u k s =>
    obtain ⟨hl, -⟩ := Bool.and_eq_true_iff.mp hi
    exact (decodeDest_latch ..).trans ((if_neg (not_not.mpr rfl)).trans (if_pos hl))
  | op hop => exact (decodeDest_trigger ..).trans hop

theorem decodeDest_ok {gd : Guard} {unit port op : Nat} {s : Src} {i : Instr} (hp : port < 4) (ho : op < 32) (hs : s.wellFormed = true)
    (h : decodeDest gd unit port op s = .ok i) : i.wellFormed = true ∧ moveFields i = some ⟨gd, unit, port, op, s⟩ := by
  have hdiv : (port * 32 + op) / 32 = port := by omega
  have hmod : (port * 32 + op) % 32 = op := by omega
  rcases unit_cases unit with rfl | rfl | rfl | ⟨u, rfl⟩ | hu
  · obtain rfl := Except.ok.inj h
    have hr : port * 32 + op < 128 := by omega
    exact ⟨hs, by simp only [moveFields, field, Nat.mod_eq_of_lt hr, hdiv, hmod]⟩
  · simp only [decodeDest] at h
    split at h <;> cases h
    exact ⟨hs, by simp only [moveFields, hdiv, hmod]⟩
  · simp only [decodeDest] at h
    split at h <;> cases h
    rename_i d hd
    exact ⟨hs, by simp only [moveFields, decodeLf_ok hd, hdiv, hmod]⟩
  · rcases port_cases hp with rfl | ⟨k, rfl⟩
    · rw [decodeDest_trigger] at h
      obtain ⟨hf, hw, -⟩ := decodeOp_ok h
      exact ⟨hw.trans hs, hf⟩
    · rw [decodeDest_latch, decodeLatch] at h
      split_ifs at h with hop hl
      obtain rfl := not_not.mp hop
      cases h
      exact ⟨Bool.and_eq_true_iff.mpr ⟨hl, hs⟩, rfl⟩
  · cases (decodeDest_reserved hu ..).symm.trans h

/-! What is refused (R64). -/

/-- The destinations that R64 names: units and registers that are none, latch writes with OP ≠ 0 or to a latch the unit lacks, and
operations that are none. -/
def DestReserved (unit port op : Nat) : Prop :=
  23 ≤ unit ∨ (unit = 1 ∧ 64 ≤ 32 * port + op) ∨ (unit = 2 ∧ 72 ≤ 32 * port + op) ∨ (3 ≤ unit ∧ port ≠ 2 ∧ op ≠ 0) ∨
    (∃ u k, unitOf unit = some u ∧ port = latchCode k ∧ hasLatch u k = false) ∨ ∃ u, unitOf unit = some u ∧ port = 2 ∧ opCount u ≤ op

theorem decodeDest_error_iff {gd : Guard} {unit port op : Nat} {s : Src} (hp : port < 4) :
    (∃ e, decodeDest gd unit port op s = .error e) ↔ DestReserved unit port op := by
  unfold DestReserved
  rcases unit_cases unit with rfl | rfl | rfl | ⟨u, rfl⟩ | h
  · simp [decodeDest, unitOf]
  · simp [decodeDest, unitOf, dite_else_error_iff, Nat.mul_comm]
  · have hlf : (∃ e, decodeDest gd 2 port op s = .error e) ↔ ∃ e, decodeLf (port * 32 + op) = .error e := by
      simp only [decodeDest]
      cases decodeLf (port * 32 + op) <;> simp
    simp [hlf, decodeLf_error_iff, unitOf, Nat.mul_comm]
  · obtain ⟨hlo, hhi⟩ := unitCode_range u
    have h23 : ¬ 23 ≤ unitCode u := by omega
    have h1 : unitCode u ≠ 1 := by omega
    have h2 : unitCode u ≠ 2 := by omega
    rcases port_cases hp with rfl | ⟨k, rfl⟩
    · simp [decodeDest_trigger, decodeOp_error_iff, h23, h1, h2, fun k => (latchCode_ne_two k).symm]
    · simp [decodeDest_latch, decodeLatch_error_iff, h23, h1, h2, hlo, latchCode_ne_two, latchCode_inj]
  · exact iff_of_true ⟨_, decodeDest_reserved h ..⟩ (.inl h)

end Sys2Proof
end

section
/-! O2. Move words (R47): decode and encode agree both ways. -/
namespace Sys2Proof
open Machine

/-! A word as the sum of its fields. -/

theorem packMove_eq (f : MoveFields) : packMove f =
    f.gd.neg.toNat * 2 ^ 31 + f.gd.g.val * 2 ^ 28 + f.unit * 2 ^ 23 + f.port * 2 ^ 21 + f.op * 2 ^ 16 + encodeSrc f.src := by
  unfold packMove
  cases f.gd.neg <;> simp

theorem packMove_fields {f : MoveFields} (hu : f.unit < 32) (hp : f.port < 4) (ho : f.op < 32) : packMove f < 2 ^ 32 ∧
    packMove f / 2 ^ 31 % 2 = f.gd.neg.toNat ∧ packMove f / 2 ^ 28 % 8 = f.gd.g.val ∧ packMove f / 2 ^ 23 % 32 = f.unit ∧
    packMove f / 2 ^ 21 % 4 = f.port ∧ packMove f / 2 ^ 16 % 32 = f.op ∧ packMove f % 2 ^ 16 = encodeSrc f.src := by
  have hn := Bool.toNat_lt f.gd.neg
  have hg := f.gd.g.isLt
  have hs := encodeSrc_lt f.src
  rw [packMove_eq]
  omega

theorem decodeGuard_eq {w : Nat} {gd : Guard} (hn : w / 2 ^ 31 % 2 = gd.neg.toNat) (hg : w / 2 ^ 28 % 8 = gd.g.val) : decodeGuard w = gd := by
  unfold decodeGuard
  rw [hn, toNat_beq_one, field_eq _ hg]

theorem decodeGuard_neg (w : Nat) : (decodeGuard w).neg.toNat = w / 2 ^ 31 % 2 := toNat_bit _

theorem decodeGuard_g (w : Nat) : (decodeGuard w).g.val = w / 2 ^ 28 % 8 := rfl

/-! Both ways. -/

theorem decodeMove_of_src {w : Nat} {s : Src} (hs : decodeSrc (w % 2 ^ 16) = .ok s) :
    decodeMove w = decodeDest (decodeGuard w) (w / 2 ^ 23 % 32) (w / 2 ^ 21 % 4) (w / 2 ^ 16 % 32) s := by
  unfold decodeMove
  rw [hs]

theorem decodeMove_of_src_error {w : Nat} {e : Reject} (hs : decodeSrc (w % 2 ^ 16) = .error e) : decodeMove w = .error e := by
  unfold decodeMove
  rw [hs]

theorem decodeMove_packMove {f : MoveFields} (hu : f.unit < 32) (hp : f.port < 4) (ho : f.op < 32) (hs : f.src.wellFormed = true) :
    decodeMove (packMove f) = decodeDest f.gd f.unit f.port f.op f.src := by
  obtain ⟨-, hneg, hg, hunit, hport, hop, hsrc⟩ := packMove_fields hu hp ho
  rw [decodeMove_of_src ((congrArg decodeSrc hsrc).trans (decodeSrc_encodeSrc hs)), hunit, hport, hop, decodeGuard_eq hneg hg]

theorem packMove_decoded {w : Nat} {s : Src} (hw : w < 2 ^ 32) (hs : encodeSrc s = w % 2 ^ 16) :
    packMove ⟨decodeGuard w, w / 2 ^ 23 % 32, w / 2 ^ 21 % 4, w / 2 ^ 16 % 32, s⟩ = w := by
  rw [packMove_eq, decodeGuard_neg, decodeGuard_g, hs]
  dsimp only
  omega

theorem decodeMove_ok {w : Nat} {i : Instr} (hw : w < 2 ^ 32) (h : decodeMove w = .ok i) :
    i.wellFormed = true ∧ ∃ f, moveFields i = some f ∧ packMove f = w := by
  cases hs : decodeSrc (w % 2 ^ 16) with
  | error e => cases (decodeMove_of_src_error hs).symm.trans h
  | ok s =>
    rw [decodeMove_of_src hs] at h
    obtain ⟨hwf, henc⟩ := decodeSrc_ok (Nat.mod_lt w (by decide)) hs
    obtain ⟨hi, hf⟩ := decodeDest_ok (Nat.mod_lt _ (by decide)) (Nat.mod_lt _ (by decide)) hwf h
    exact ⟨hi, _, hf, packMove_decoded hw henc⟩

/-- Settles O2: a word is the sum of its fields (`packMove_fields`), and source, destination and operation each decode to what encodes to them. -/
theorem decodeAndEncodeAgree : Obligations.DecodeAndEncodeAgree := by
  unfold Obligations.DecodeAndEncodeAgree
  refine ⟨fun i w hi he => ?_, fun w i hw h => ?_⟩
  · obtain ⟨f, hf, rfl⟩ := Option.map_eq_some_iff.mp he
    obtain ⟨hu, hp, ho⟩ := moveFields_lt hf
    obtain ⟨hlt, -⟩ := packMove_fields hu hp ho
    exact ⟨hlt, (decodeMove_packMove hu hp ho (moveFields_src hi hf)).trans (decodeDest_of_moveFields hi hf)⟩
  · obtain ⟨hi, f, hf, hp⟩ := decodeMove_ok hw h
    exact ⟨hi, Option.map_eq_some_iff.mpr ⟨f, hf, hp⟩⟩

end Sys2Proof
end

section
/-! O3. Headers (R44), and the refusal of headers and of move words (R64). -/
namespace Sys2Proof
open Machine

/-! A header as the sum of its fields. -/

theorem encodeHeader_eq (h : Header) : encodeHeader h = h.nmov.val * 2 ^ 29 + h.nlim.val * 2 ^ 27 + h.pop.val * 2 ^ 23 + h.rcv.toNat * 2 ^ 22 +
    h.jtok.val * 2 ^ 18 + h.rtok.val * 2 ^ 14 + h.region.toNat * 2 ^ 13 := by
  unfold encodeHeader
  cases h.rcv <;> cases h.region <;> simp

theorem encodeHeader_fields (h : Header) : encodeHeader h < 2 ^ 32 ∧ encodeHeader h / 2 ^ 29 % 8 = h.nmov.val ∧ encodeHeader h / 2 ^ 27 % 4 = h.nlim.val ∧
    encodeHeader h / 2 ^ 23 % 16 = h.pop.val ∧ encodeHeader h / 2 ^ 22 % 2 = h.rcv.toNat ∧ encodeHeader h / 2 ^ 18 % 16 = h.jtok.val ∧
    encodeHeader h / 2 ^ 14 % 16 = h.rtok.val ∧ encodeHeader h / 2 ^ 13 % 2 = h.region.toNat ∧ encodeHeader h % 2 ^ 13 = 0 := by
  have hr := Bool.toNat_lt h.rcv
  have hg := Bool.toNat_lt h.region
  rw [encodeHeader_eq]
  omega

theorem decodeHeader_encodeHeader {h : Header} (hr : h.rcv = false → h.rtok = 0) : decodeHeader (encodeHeader h) = .ok h := by
  obtain ⟨-, hnmov, hnlim, hpop, hrcv, hjtok, hrtok, hregion, hlow⟩ := encodeHeader_fields h
  have hlone : ¬(h.rcv.toNat = 0 ∧ h.rtok.val ≠ 0) := by
    rintro ⟨hz, ht⟩
    exact ht (congrArg Fin.val (hr (Bool.toNat_eq_zero.mp hz)))
  unfold decodeHeader
  simp only [hnmov, hnlim, hlow, hrcv, hrtok, hlone, hregion, h.nmov.isLt, h.nlim.isLt, dite_true, ne_eq, not_true_eq_false, if_false,
    field_eq _ hpop, field_eq _ hjtok, field_eq _ hrtok, toNat_beq_one]

theorem encodeHeader_of_decodeHeader {w : Nat} {h : Header} (hw : w < 2 ^ 32) (hd : decodeHeader w = .ok h) : encodeHeader h = w := by
  unfold decodeHeader at hd
  split_ifs at hd with hm hl hz ht
  cases hd
  rw [encodeHeader_eq]
  simp only [field, toNat_bit]
  omega

theorem decodeHeader_error_iff {w : Nat} : (∃ e, decodeHeader w = .error e) ↔
    w / 2 ^ 29 % 8 = 7 ∨ w / 2 ^ 27 % 4 = 3 ∨ w % 2 ^ 13 ≠ 0 ∨ (w / 2 ^ 22 % 2 = 0 ∧ w / 2 ^ 14 % 16 ≠ 0) := by
  have hnmov : w / 2 ^ 29 % 8 = 7 ↔ ¬ w / 2 ^ 29 % 8 < 7 := by omega
  have hnlim : w / 2 ^ 27 % 4 = 3 ↔ ¬ w / 2 ^ 27 % 4 < 3 := by omega
  unfold decodeHeader
  simp only [dite_else_error_iff, ite_then_error_iff, reduceCtorEq, exists_false, or_false, hnmov, hnlim]
  tauto

/-! Move words. -/

theorem decodeMove_error_iff {w : Nat} : (∃ e, decodeMove w = .error e) ↔
    DestReserved (w / 2 ^ 23 % 32) (w / 2 ^ 21 % 4) (w / 2 ^ 16 % 32) ∨ SrcReserved (w / 2 ^ 13 % 8) (w % 2 ^ 13) := by
  have hc : w % 2 ^ 16 / 2 ^ 13 % 8 = w / 2 ^ 13 % 8 := by omega
  have hv : w % 2 ^ 16 % 2 ^ 13 = w % 2 ^ 13 := by omega
  have hsrc : (∃ e, decodeSrc (w % 2 ^ 16) = .error e) ↔ SrcReserved (w / 2 ^ 13 % 8) (w % 2 ^ 13) := by
    rw [decodeSrc_eq, hc, hv, classSrc_error_iff]
  rw [← hsrc]
  cases hs : decodeSrc (w % 2 ^ 16) with
  | error e => simp [decodeMove_of_src_error hs]
  | ok s => simp [decodeMove_of_src hs, decodeDest_error_iff (Nat.mod_lt _ (show 0 < 4 by decide))]

/-- Settles O3: the header's fields are read back, and each part of a move word is refused exactly where R64 says. -/
theorem headersAndReservedEncodings : Obligations.HeadersAndReservedEncodings := by
  unfold Obligations.HeadersAndReservedEncodings
  refine ⟨⟨fun h hr => ⟨(encodeHeader_fields h).1, decodeHeader_encodeHeader hr⟩, fun w h => encodeHeader_of_decodeHeader, fun w hw => ?_⟩,
    fun w hw => ?_⟩
  · rw [decodeHeader_error_iff, Nat.mod_eq_of_lt (show w / 2 ^ 29 < 8 by omega)]
  · rw [decodeMove_error_iff, DestReserved, SrcReserved]
    simp only [or_assoc]

/-- Settles O1: every word decodes by computation. -/
theorem decodeWords : Obligations.DecodeWords := by
  unfold Obligations.DecodeWords
  refine ⟨?_, ?_, ?_, ?_, ?_, ?_, ?_, ?_, ?_, ?_, ?_, ?_, ?_, ?_, ?_, ?_, ?_, ?_, ?_, ?_, ?_, ?_, ?_, ?_, ?_, ?_, ?_⟩ <;> rfl

end Sys2Proof
end

section
/-! O11. A move to a register vector writes the enabled lanes, and what the undo log records of it is all else (R48, R50, R284, R362). -/
namespace Sys2Proof.Machine

theorem State.setWave_onlyWave (s : State) (w : Nat) (x : Wave) : s.OnlyWave (s.setWave w x) w :=
  ⟨rfl, fun v hv => by rw [State.wave?_setWave, if_neg hv]⟩

/-- `y` is wave `x` but for the undo log of an open window or a handler. -/
structure Wave.Logged (x y : Wave) : Prop where
  same : y = { x with win := y.win, trap := y.trap }
  ckpt : y.win.map (·.ckpt) = x.win.map (·.ckpt)
  saved : y.trap.map (·.saved) = x.trap.map (·.saved)

theorem Wave.Logged.refl (x : Wave) : x.Logged x := ⟨rfl, rfl, rfl⟩

theorem Wave.logged_log (x : Wave) (vs : List Nat) : x.Logged (x.log vs) :=
  ⟨Wave.log_eq .., Wave.log_win_map _ _ _ fun _ _ => rfl, Wave.log_trap_saved ..⟩

theorem Wave.Logged.vecWritten {x y : Wave} (h : x.Logged y) (v : Nat) (en : Mask) (f : Nat → Word) :
    VecWritten x { y with ctx := y.ctx.setLanes v (lanesOf en) f } v en f := by
  obtain ⟨hsame, hckpt, hsaved⟩ := h
  have hctx : y.ctx = x.ctx := by rw [hsame]
  refine ⟨fun v' l hl => ?_, ?_, ?_, hckpt, hsaved⟩
  · show (y.ctx.setLanes v (lanesOf en) f).reg v' l = _
    rw [Ctx.reg_setLanes_mask _ _ _ _ _ _ hl, hctx]
  · show y.ctx.setLanes v (lanesOf en) f = _
    rw [hctx, Ctx.setLanes_eq]
  · dsimp only
    rw [hsame]

/-- A register-vector write changes its own wave alone, and of it the vector's enabled lanes. -/
theorem State.writeVec_spec {s : State} {m : MoveIn} (hx : s.wave? m.w = some m.x) (v : Nat) :
    ∃ y, s.writeVec m v = s.setWave m.w y ∧ VecWritten m.x y v m.en m.tw := by
  unfold State.writeVec
  rw [State.wave_of_wave? hx]
  refine ⟨_, rfl, Wave.Logged.vecWritten ?_ v m.en m.tw⟩
  split
  · exact m.x.logged_log [v]
  · exact .refl m.x

/-- Settles O11: every form is one register-vector write (`State.writeVec_spec`), main registers at 0 and 128, operand registers at 192. -/
theorem movesToRegisters : Obligations.MovesToRegisters := by
  unfold Obligations.MovesToRegisters
  intro s gd src m h he
  have write (v : Nat) {i : Instr} (hi : exec i s = asStep (withMove gd src (fun m s => .ok (s.writeVec m v)) s) s) :
      ∃ t y, exec i s = .next t ∧ s.OnlyWave t m.w ∧ t.wave? m.w = some y ∧ VecWritten m.x y v m.en fun l => (m.t l).setWidth 32 := by
    obtain ⟨y, hy, hwritten⟩ := State.writeVec_spec h.wave v
    refine ⟨_, y, ?_, s.setWave_onlyWave m.w y, ?_, hwritten⟩
    · rw [hi, h.withMove he, hy, asStep_ok]
    · rw [State.wave?_setWave, if_pos rfl]
  exact ⟨fun r => write r.val rfl, fun r => write (128 + r.val) rfl, fun r => write (192 + r.val) rfl⟩

end Sys2Proof.Machine
end

section
/-! O32. What a later move decides, the exit as an outcome, and ct.exit (R29, R59, R179, R237). -/
namespace Sys2Proof.Map
/-- What a table filled key by key holds at a key. -/
theorem find?_foldl_put {α : Type} (ls : List Nat) (f : Nat → α) (m : Map α) (i : Nat) :
    Map.find? (ls.foldl (fun t l => Map.put t l (f l)) m) i = if i ∈ ls then some (f i) else Map.find? m i := by
  induction ls generalizing m with
  | nil => simp
  | cons l ls ih =>
    rw [List.foldl_cons, ih, find?_put]
    by_cases hi : i ∈ ls
    · simp [hi]
    · by_cases hl : i = l
      · subst hl; simp
      · simp [hi, hl]
end Sys2Proof.Map

namespace Sys2Proof.Machine

/-! Masks. -/

theorem eq_allOnes_iff_lanes {m : Mask} : m = BitVec.allOnes 32 ↔ ∀ l < 32, m.getLsbD l = true := by
  have hones (l : Nat) (hl : l < 32) : (BitVec.allOnes 32).getLsbD l = true := by rw [BitVec.getLsbD_allOnes, decide_eq_true hl]
  constructor
  · rintro rfl l hl
    exact hones l hl
  · intro h
    apply BitVec.eq_of_getLsbD_eq
    intro l hl
    rw [h l hl, hones l hl]

theorem getLsbD_foldl_or {α : Type} (es : List α) (g : α → Mask) (a : Mask) (l : Nat) :
    (es.foldl (fun a e => a ||| g e) a).getLsbD l = (a.getLsbD l || es.any fun e => (g e).getLsbD l) := by
  induction es generalizing a with
  | nil => simp
  | cons e es ih => rw [List.foldl_cons, ih, BitVec.getLsbD_or, List.any_cons, Bool.or_assoc]

/-! The lanes that later slots decide. -/

/-- The lanes that the move in slot `k`, its word `v`, decides after the slot of `m`. -/
def MoveIn.decidedBy (m : MoveIn) (e : Nat × Nat) : Mask :=
  if m.c.slot < e.2 ∧ e.2 < m.c.stop then (match decodeMove e.1 with
    | .ok i => if isOutcome i then Map.get 0 m.c.cap.en e.2 else 0
    | .error _ => 0) else 0

theorem MoveIn.decidedLater_eq (m : MoveIn) : m.decidedLater = (m.c.cap.words.drop 1).zipIdx.foldl (fun a e => a ||| m.decidedBy e) 0 := by
  unfold MoveIn.decidedLater
  congr 1
  funext a ⟨v, k⟩
  dsimp only [MoveIn.decidedBy]
  cases decodeMove v with
  | error e => simp
  | ok i => by_cases hk : m.c.slot < k ∧ k < m.c.stop <;> cases ho : isOutcome i <;> simp [hk, ho]

theorem MoveIn.getLsbD_decidedBy {m : MoveIn} {v k l : Nat} : (m.decidedBy (v, k)).getLsbD l = true ↔
    m.c.slot < k ∧ k < m.c.stop ∧ ∃ i, decodeMove v = .ok i ∧ isOutcome i = true ∧ (Map.get 0 m.c.cap.en k).getLsbD l = true := by
  unfold MoveIn.decidedBy
  by_cases hk : m.c.slot < k ∧ k < m.c.stop
  · rw [if_pos hk]
    cases decodeMove v with
    | error e => simp
    | ok i => cases ho : isOutcome i <;> simp [hk, ho]
  · rw [if_neg hk, ← and_assoc]
    simp [hk]

theorem isOutcome_iff {i : Instr} : isOutcome i = true ↔
    ∃ f, moveFields i = some f ∧ f.port = 2 ∧ unitOf f.unit = some .ct ∧ f.op ∈ [0, 1, 2, 4, 7] := by
  constructor
  · intro h
    unfold isOutcome at h
    split at h
    iterate 5 exact ⟨_, rfl, rfl, rfl, by simp [trigger]⟩
    cases h
  · rintro ⟨f, hf, hp, hu, ho⟩
    cases moveForm hf with
    | m0 | m1 | lf => cases hu
    | latch gd u k s => exact absurd hp (latchCode_ne_two k)
    | @op _ gd u op s hi =>
      obtain rfl : u = .ct := Option.some.inj ((unitOf_unitCode u).symm.trans hu)
      have hi' : decodeCt gd s op = .ok i := hi
      simp only [trigger, List.mem_cons, List.not_mem_nil, or_false] at ho
      rcases ho with rfl | rfl | rfl | rfl | rfl <;> cases hi' <;> rfl

theorem MoveIn.decidedLater_iff {m : MoveIn} {l : Nat} : m.decidedLater.getLsbD l = true ↔ decidesLater m l := by
  unfold decidesLater
  rw [MoveIn.decidedLater_eq, getLsbD_foldl_or, show (0 : Mask).getLsbD l = false by simp, Bool.false_or, List.any_eq_true]
  constructor
  · rintro ⟨⟨v, k⟩, he, h⟩
    obtain ⟨hlo, hhi, i, hi, ho, hen⟩ := MoveIn.getLsbD_decidedBy.mp h
    obtain ⟨f, hf, hp, hu, hop⟩ := isOutcome_iff.mp ho
    have hv : m.c.cap.words[k + 1]? = some v := by rw [← List.mem_zipIdx_iff_getElem?.mp he, List.getElem?_drop, Nat.add_comm]
    exact ⟨k, v, i, f, hlo, hhi, hv, hi, hf, hp, hu, hop, hen⟩
  · rintro ⟨k, v, i, f, hlo, hhi, hv, hi, hf, hp, hu, hop, hen⟩
    have ho : isOutcome i = true := isOutcome_iff.mpr ⟨f, hf, hp, hu, hop⟩
    refine ⟨(v, k), List.mem_zipIdx_iff_getElem?.mpr ?_, MoveIn.getLsbD_decidedBy.mpr ⟨hlo, hhi, i, hi, ho, hen⟩⟩
    rw [List.getElem?_drop, Nat.add_comm, hv]

/-! The exit. -/

theorem State.holdsBaton_iff {s : State} {w : Nat} : s.holdsBaton w = true ↔ ∃ p, (s.clover (cloverOf w)).baton = some (w, p) := by
  unfold State.holdsBaton
  split
  next v p q hb => simp [hb]
  next hb => simp [hb]

theorem State.outcomesSet_setOuts {s : State} {m : MoveIn} (hc : s.cur = some m.c) (f : Nat → Option (Dword × Nat)) :
    OutcomesSet s (s.setOuts m.real f) m f := by
  refine ⟨{ m.c with outs := (lanesOf m.real).foldl (fun t l => Map.put t l (f l)) m.c.outs }, ?_, rfl, fun l hl => ?_⟩
  · unfold State.setOuts State.modCur
    rw [hc]
    rfl
  · rw [Map.find?_foldl_put]
    exact if_congr (mem_lanesOf.trans (and_iff_right hl)) rfl rfl

/-- An outcome that is the exit. -/
def isExit : Option (Option (Dword × Nat)) → Bool
  | some none => true
  | _ => false

theorem isExit_iff {o : Option (Option (Dword × Nat))} : isExit o = true ↔ o = some none := by
  unfold isExit
  split <;> simp_all

/-- What stops a ct.exit (R237): the wave holds the baton, no lane of it stays, and an accumulator is live. -/
def State.exitStops (s : State) (m : MoveIn) : Bool :=
  let gone := maskWhere fun l => m.x.ctx.vac.getLsbD l ||
    (!m.decidedLater.getLsbD l && isExit ((s.setOuts m.real fun _ => none).cur.bind fun c => Map.find? c.outs l))
  s.holdsBaton m.w && gone == BitVec.allOnes 32 && !(s.clover (cloverOf m.w)).live.isEmpty

theorem slotCtExit_eq (gd : Guard) (src : Src) : slotCtExit gd src = withPairs gd src (fun _ _ => []) fun m s =>
    if s.exitStops m then m.trap 0x0B m.real 0 else .ok (s.setOuts m.real fun _ => none) := rfl

theorem State.exitStops_iff {s : State} {m : MoveIn} (hc : s.cur = some m.c) : s.exitStops m = true ↔
    (∀ l < 32, m.x.ctx.vac.getLsbD l = true ∨ ¬decidesLater m l ∧ (m.real.getLsbD l = true ∨ Map.find? m.c.outs l = some none)) ∧
      (∃ p, (s.clover (cloverOf m.w)).baton = some (m.w, p)) ∧ (s.clover (cloverOf m.w)).live ≠ [] := by
  obtain ⟨c, ht, -, hout⟩ := State.outcomesSet_setOuts hc fun _ => none
  have hlive (live : List Nat) : (!live.isEmpty) = true ↔ live ≠ [] := by simp
  have hcur (l : Nat) : ((s.setOuts m.real fun _ => none).cur.bind fun c => Map.find? c.outs l) = Map.find? c.outs l := by rw [ht]; rfl
  have hexit {l : Nat} (hl : l < 32) : Map.find? c.outs l = some none ↔ m.real.getLsbD l = true ∨ Map.find? m.c.outs l = some none := by
    rw [hout l hl]
    split <;> simp_all
  unfold State.exitStops
  rw [Bool.and_eq_true, Bool.and_eq_true, State.holdsBaton_iff, beq_iff_eq, eq_allOnes_iff_lanes, hlive, and_assoc, and_left_comm]
  refine and_congr_left fun _ => forall₂_congr fun l hl => ?_
  rw [getLsbD_maskWhere, decide_eq_true hl, Bool.true_and, Bool.or_eq_true, Bool.and_eq_true, Bool.not_eq_true', ← Bool.not_eq_true,
    MoveIn.decidedLater_iff, hcur, isExit_iff, hexit hl]

/-- Settles O32: without a shadow mismatch ct.exit is stopped, or sets the exit as its lanes' outcome (`slotCtExit_eq`). -/
theorem exits : Obligations.Exits := by
  unfold Obligations.Exits
  intro s gd src m h hr diff cl leaves stuck
  have hexec : exec (.ctExit gd src) s = asStep (slotCtExit gd src s) s := rfl
  have hdiff : m.shadowDiff (fun _ => []) = diff := m.shadowDiff_eq _
  have hstuck : s.exitStops m = true ↔ stuck := State.exitStops_iff h.cur
  have hslot (hd : diff = 0) : slotCtExit gd src s = if s.exitStops m then m.trap 0x0B m.real 0 else .ok (s.setOuts m.real fun _ => none) := by
    rw [slotCtExit_eq, h.withPairs_real hr _ hd]
  refine ⟨fun hd => ?_, fun hd hs => ?_, fun hd hs => ⟨_, ?_, State.outcomesSet_setOuts h.cur _⟩⟩
  · rw [hexec, slotCtExit_eq, h.withPairs_differ (State.Issues.en_of_real hr) _ _ (hdiff ▸ hd), hdiff, h.trap]
  · rw [hexec, hslot hd, if_pos (hstuck.mpr hs), h.trap]
  · rw [hexec, hslot hd, if_neg (hs ∘ hstuck.mp), asStep_ok]

end Sys2Proof.Machine
end

section
/-! O6. The words of a bundle, what they parse to, the order of its slots, and their execution (R43, R46, R56). -/
namespace Sys2Proof.Machine

/-! Slots. -/

/-- A move is carried out by its slot; the moves stand first in `Instr`, and an event has no move word. -/
theorem exec_move {i : Instr} (h : (moveFields i).isSome = true) (s : State) : exec i s = asStep (moveSlot i s) s := by
  cases i
  iterate 209 exact rfl
  all_goals cases h

/-! Words. -/

theorem eq_of_getElem?_singleton {α : Type} {a b : α} {k : Nat} (h : [a][k]? = some b) : k = 0 ∧ b = a := by
  cases k with
  | zero => exact ⟨rfl, (Option.some.inj h).symm⟩
  | succ k => cases h

theorem State.instWord_ok {s : State} {w : Nat} {ps : List (Nat × Xlate)} {va v : Nat} (h : s.instWord w ps va = .ok v) :
    ∃ pa, s.instPa w ps va = .ok pa ∧ v = s.read pa 4 := by
  unfold State.instWord at h
  split at h <;> cases h
  exact ⟨_, ‹_›, rfl⟩

/-- The words fetched so far, and the next one. -/
def State.nextWord (s : State) (w : Nat) (ps : List (Nat × Xlate)) (va : Nat) (r : Except (Nat × Nat) (List Nat)) (k : Nat) :
    Except (Nat × Nat) (List Nat) :=
  if k = 0 then r else
  match r, s.instWord w ps ((va + 4 * k) % 2 ^ 64) with
  | .ok l, .ok v => .ok (l ++ [v])
  | .error e, _ => .error e
  | .ok _, .error c => .error (c, (va + 4 * k) % 2 ^ 64)

section
variable {s : State} {w : Nat} {ps : List (Nat × Xlate)} {va : Nat}

theorem State.nextWord_ok {r : Except (Nat × Nat) (List Nat)} {k : Nat} {l : List Nat} (hk : k ≠ 0) (h : s.nextWord w ps va r k = .ok l) :
    ∃ l' v, r = .ok l' ∧ s.instWord w ps ((va + 4 * k) % 2 ^ 64) = .ok v ∧ l = l' ++ [v] := by
  unfold State.nextWord at h
  rw [if_neg hk] at h
  split at h <;> cases h
  exact ⟨_, _, rfl, ‹_›, rfl⟩

/-- A bundle's words: the header, and with a legal one the words behind it (R43). -/
theorem State.bundleWords_ok {ws : List Nat} (h : s.bundleWords w ps va = .ok ws) :
    ∃ hd, s.instWord w ps va = .ok hd ∧ (ws = [hd] ∨ (List.range (headerWords hd)).foldl (s.nextWord w ps va) (.ok [hd]) = .ok ws) := by
  unfold State.bundleWords at h
  split at h
  · cases h
  · rename_i hd hhd
    refine ⟨hd, hhd, ?_⟩
    split at h
    · cases h
      exact .inl rfl
    · exact .inr h

/-- Every word fetched is the instruction word at its address. -/
theorem State.foldl_nextWord {hd : Nat} (hva : va < 2 ^ 64) (hhd : s.instWord w ps va = .ok hd) {n : Nat} {ws : List Nat}
    (h : (List.range (n + 1)).foldl (s.nextWord w ps va) (.ok [hd]) = .ok ws) :
    ws.length = n + 1 ∧ ∀ k v, ws[k]? = some v → s.instWord w ps ((va + 4 * k) % 2 ^ 64) = .ok v := by
  induction n generalizing ws with
  | zero =>
    cases h
    refine ⟨rfl, fun k v hk => ?_⟩
    obtain ⟨rfl, rfl⟩ := eq_of_getElem?_singleton hk
    rwa [Nat.mul_zero, Nat.add_zero, Nat.mod_eq_of_lt hva]
  | succ n ih =>
    rw [List.range_succ, List.foldl_concat] at h
    obtain ⟨l, v, hl, hv, rfl⟩ := State.nextWord_ok n.succ_ne_zero h
    obtain ⟨hlen, hwords⟩ := ih hl
    refine ⟨by rw [List.length_append, hlen]; rfl, fun k v' hk => ?_⟩
    rcases Nat.lt_or_ge k l.length with hkl | hkl
    · exact hwords k v' (by rwa [List.getElem?_append_left hkl] at hk)
    · rw [List.getElem?_append_right hkl] at hk
      obtain ⟨hk0, rfl⟩ := eq_of_getElem?_singleton hk
      obtain rfl : k = n + 1 := by omega
      exact hv

theorem State.bundleWords_get {ws : List Nat} (hva : va < 2 ^ 64) (h : s.bundleWords w ps va = .ok ws) {k v : Nat} (hk : ws[k]? = some v) :
    ∃ pa, s.instPa w ps ((va + 4 * k) % 2 ^ 64) = .ok pa ∧ v = s.read pa 4 := by
  obtain ⟨hd, hhd, rfl | h⟩ := State.bundleWords_ok h
  · obtain ⟨-, hwords⟩ := State.foldl_nextWord (n := 0) hva hhd rfl
    exact State.instWord_ok (hwords k v hk)
  · obtain ⟨n, hn⟩ : ∃ n, headerWords hd = n + 1 := ⟨_, (Nat.add_assoc ..).trans (Nat.add_comm ..)⟩
    rw [hn] at h
    obtain ⟨-, hwords⟩ := State.foldl_nextWord hva hhd h
    exact State.instWord_ok (hwords k v hk)
end

/-! Parsing. -/

theorem State.nextBundle_bundle {s : State} {w : Nat} {g : Seq} {b : Bundle} (hg : g.part = none) (h : s.nextBundle w g = .bundle b) :
    ∃ ws, s.bundleWords w g.pages g.pc.toNat = .ok ws ∧ parseBundle s.featack ws = some b := by
  cases hws : s.bundleWords w g.pages g.pc.toNat with
  | error e => cases hf : g.fetch <;> simp [State.nextBundle, hg, hf, hws] at h
  | ok ws => cases hb : parseBundle s.featack ws with
    | none => cases hf : g.fetch <;> simp [State.nextBundle, hg, hf, hws, hb] at h
    | some b' => cases hf : g.fetch <;> simp [State.nextBundle, hg, hf, hws, hb] at h ⊢ <;> exact h

theorem parseMove_some {w : Nat} {m : Move} (h : parseMove w = some m) : decodeMove w = .ok m.instr ∧ moveFields m.instr = some m.f := by
  unfold parseMove at h
  split at h
  · obtain ⟨f, hf, rfl⟩ := Option.map_eq_some_iff.mp h
    exact ⟨‹_›, hf⟩
  · cases h

theorem parseBundle_some {fa : Dword} {ws : List Nat} {b : Bundle} (h : parseBundle fa ws = some b) :
    decodeHeader (ws.headD 0) = .ok b.head ∧ b.words = ws ∧ b.moves = ((ws.drop 1).take b.head.nmov.val).map parseMove := by
  unfold parseBundle at h
  split at h
  · cases h
  · split at h
    · cases h
    · cases h
      exact ⟨‹_›, rfl, rfl⟩

/-- Slot k of a parsed bundle is what its word k + 1 parses to. -/
theorem parseBundle_move {fa : Dword} {ws : List Nat} {b : Bundle} (h : parseBundle fa ws = some b) {k : Nat} {m : Move}
    (hk : b.moves[k]? = some (some m)) :
    ∃ v, ((b.words.drop 1).take b.head.nmov.val)[k]? = some v ∧ ws[k + 1]? = some v ∧ parseMove v = some m := by
  obtain ⟨-, hwords, hmoves⟩ := parseBundle_some h
  rw [hmoves, List.getElem?_map] at hk
  obtain ⟨v, hv, hm⟩ := Option.map_eq_some_iff.mp hk
  refine ⟨v, hwords ▸ hv, ?_, hm⟩
  rw [List.getElem?_take, List.getElem?_drop, Nat.add_comm] at hv
  split at hv
  · exact hv
  · cases hv

/-! Order. -/

/-- The moves of the slots from `first` up to `stop`, with their slots. -/
def Bundle.movesIn (b : Bundle) (first stop : Nat) : List (Nat × Move) :=
  b.moves.zipIdx.filterMap fun (o, k) => if first ≤ k ∧ k < stop then o.map fun m => (k, m) else none

theorem Bundle.order_eq (b : Bundle) (first stop : Nat) : b.order first stop =
    (((b.movesIn first stop).filter fun e => e.2.unit?.isNone) ++ ((b.movesIn first stop).filter fun e => e.2.unit?.isSome)).map
      fun e => (e.1, e.2.instr) := rfl

theorem Bundle.mem_movesIn {b : Bundle} {first stop k : Nat} {m : Move} :
    (k, m) ∈ b.movesIn first stop ↔ first ≤ k ∧ k < stop ∧ b.moves[k]? = some (some m) := by
  unfold Bundle.movesIn
  simp only [List.mem_filterMap, Prod.exists, List.mem_zipIdx_iff_getElem?]
  constructor
  · rintro ⟨o, k', ho, hm⟩
    split at hm
    · obtain ⟨m', rfl, heq⟩ := Option.map_eq_some_iff.mp hm
      obtain ⟨rfl, rfl⟩ := Prod.mk.inj heq
      rename_i hk
      exact ⟨hk.1, hk.2, ho⟩
    · cases hm
  · rintro ⟨hlo, hhi, ho⟩
    exact ⟨some m, k, ho, by rw [if_pos ⟨hlo, hhi⟩]; rfl⟩

/-- A slot in range runs, be it a write or a trigger. -/
theorem Bundle.mem_order {b : Bundle} {first stop k : Nat} {i : Instr} :
    (k, i) ∈ b.order first stop ↔ first ≤ k ∧ k < stop ∧ ∃ m, b.moves[k]? = some (some m) ∧ m.instr = i := by
  simp only [Bundle.order_eq, List.mem_map, List.mem_append, List.mem_filter, ← and_or_left]
  constructor
  · rintro ⟨⟨k', m⟩, ⟨hm, -⟩, heq⟩
    obtain ⟨rfl, rfl⟩ := Prod.mk.inj heq
    obtain ⟨hlo, hhi, hmove⟩ := Bundle.mem_movesIn.mp hm
    exact ⟨hlo, hhi, m, hmove, rfl⟩
  · rintro ⟨hlo, hhi, m, hm, rfl⟩
    refine ⟨(k, m), ⟨Bundle.mem_movesIn.mpr ⟨hlo, hhi, hm⟩, ?_⟩, rfl⟩
    cases m.unit? <;> simp

theorem execAll_of_runSlots {ms : List (Nat × Instr)} {s t : State} (hms : ∀ k i, (k, i) ∈ ms → (moveFields i).isSome = true)
    (h : runSlots ms s = .done t) : ExecAll ms s t := by
  induction ms generalizing s with
  | nil => exact Ran.done.inj h
  | cons e ms ih =>
    obtain ⟨k, i⟩ := e
    unfold runSlots at h
    split at h
    · rename_i u hu
      refine ⟨u, ?_, ih (fun k i hi => hms k i (List.mem_cons_of_mem _ hi)) h⟩
      rw [exec_move (hms k i List.mem_cons_self), hu, asStep_ok]
    · cases h
    · cases h

/-- Settles O6: the bundle's words are fetched one by one (`State.bundleWords_get`), parsed slot by slot, put in order, and run by `moveSlot`. -/
theorem bundleRunsDecodedMoves : Obligations.BundleRunsDecodedMoves := by
  unfold Obligations.BundleRunsDecodedMoves
  refine ⟨fun s w ps va ws hva h k v => State.bundleWords_get hva h, fun s w g b => State.nextBundle_bundle, fun fa ws b h => ?_,
    fun b first stop k i => Bundle.mem_order, fun i s h => exec_move h s, fun ms s t => execAll_of_runSlots⟩
  refine ⟨(parseBundle_some h).1, fun k m hk => ?_⟩
  obtain ⟨v, -, hv, hm⟩ := parseBundle_move h hk
  rw [List.getD_eq_getElem?_getD, hv]
  exact parseMove_some hm
end Sys2Proof.Machine
end

section
/-! O7. BUNDLE_ISSUE of a plain bundle: what its capture holds, that no window opens, the run of its slots, and its end (R56, R60, R283, R359). -/
namespace Sys2Proof.Map

/-- What a table of a list's entries, listed from key `n` on, gives for a key. -/
theorem find?_zipIdx_map {α β : Type} (l : List α) (f : α → β) (n k : Nat) :
    Map.find? ((l.zipIdx n).map fun e => (e.2, f e.1)) k = if n ≤ k then l[k - n]?.map f else none := by
  induction l generalizing n with
  | nil => simp
  | cons a l ih =>
    rw [List.zipIdx_cons, List.map_cons, find?_cons, ih]
    rcases Nat.lt_trichotomy k n with h | rfl | h
    · simp [show n ≠ k by omega, show ¬n ≤ k by omega, show ¬n + 1 ≤ k by omega]
    · simp
    · obtain ⟨j, rfl⟩ := Nat.exists_eq_add_of_lt h
      simp [show n ≠ n + j + 1 by omega, show n + j + 1 - n = j + 1 by omega, show n + j + 1 - (n + 1) = j by omega, show n ≤ n + j + 1 by omega]

end Sys2Proof.Map

namespace Sys2Proof.Machine

/-! The guard of a move word. -/

theorem guard_of_decodeMove {w : Nat} {i : Instr} {f : MoveFields} (h : decodeMove w = .ok i) (hf : moveFields i = some f) :
    f.gd = decodeGuard w := by
  cases hs : decodeSrc (w % 2 ^ 16) with
  | error e => cases (decodeMove_of_src_error hs).symm.trans h
  | ok s =>
    rw [decodeMove_of_src hs] at h
    obtain ⟨-, hf'⟩ := decodeDest_ok (Nat.mod_lt _ (by decide)) (Nat.mod_lt _ (by decide)) (decodeSrc_ok (Nat.mod_lt w (by decide)) hs).1 h
    rw [← Option.some.inj (hf'.symm.trans hf)]

theorem guard_of_parseMove {w : Nat} {m : Move} (h : parseMove w = some m) : m.f.gd = decodeGuard w :=
  guard_of_decodeMove (parseMove_some h).1 (parseMove_some h).2

/-! The wave between the capture and the slots. -/

/-- `y` is wave `x` but for its context, in which the vacant lanes and WSTAT stand. -/
structure Wave.Readied (x y : Wave) : Prop where
  same : y = { x with ctx := y.ctx }
  vac : y.ctx.vac = x.ctx.vac
  wstat : y.ctx.wstat = x.ctx.wstat

namespace Wave.Readied
variable {x y : Wave}

theorem trap (h : x.Readied y) : y.trap = x.trap := by rw [h.same]
theorem win (h : x.Readied y) : y.win = x.win := by rw [h.same]
theorem unperformed (h : x.Readied y) : y.unperformed = x.unperformed := by rw [h.same]; rfl

theorem mayOpen (h : x.Readied y) : y.mayOpen = x.mayOpen := by
  have hnoWin : y.noWin = x.noWin := by rw [h.same]
  unfold Wave.mayOpen Ctx.esc Ctx.sup
  rw [h.wstat, hnoWin]

theorem shadows (h : x.Readied y) : y.ctx.shadows = x.ctx.shadows := by
  unfold Ctx.shadows Ctx.shd
  rw [h.wstat, h.vac]

theorem triggersOf (h : x.Readied y) (vs : List Live) : triggersOf y.ctx vs = triggersOf x.ctx vs := by
  unfold Machine.triggersOf Live.trigger Ctx.real
  rw [h.vac]

end Wave.Readied

/-- The wave slot holds wave `x`, readied. -/
def State.Readies (s : State) (w : Nat) (x : Wave) : Prop := ∃ y, s.wave? w = some y ∧ x.Readied y

theorem State.Readies.of_wave? {s : State} {w : Nat} {x : Wave} (h : s.wave? w = some x) : s.Readies w x := ⟨x, h, rfl, rfl, rfl⟩

theorem State.Readies.modCtx {s : State} {w : Nat} {x : Wave} (h : s.Readies w x) {f : Ctx → Ctx} (hvac : ∀ c, (f c).vac = c.vac)
    (hwstat : ∀ c, (f c).wstat = c.wstat) : (s.modCtx w f).Readies w x := by
  obtain ⟨y, hy, hready⟩ := h
  refine ⟨{ y with ctx := f y.ctx }, ?_, ?_, (hvac _).trans hready.vac, (hwstat _).trans hready.wstat⟩
  · rw [State.wave?_modCtx, if_pos rfl, hy, Option.map_some]
  · rw [hready.same]

theorem State.Readies.modSeq {s : State} {w : Nat} {x : Wave} (h : s.Readies w x) (q : Nat) (f : Seq → Seq) : (s.modSeq w q f).Readies w x :=
  h.modCtx (fun c => by cases Map.find? c.seqs q <;> rfl) fun c => by cases Map.find? c.seqs q <;> rfl

theorem State.Readies.modCtx_if {s : State} {w : Nat} {x : Wave} (p : Prop) [Decidable p] (h : s.Readies w x) {f : Ctx → Ctx}
    (hvac : ∀ c, (f c).vac = c.vac) (hwstat : ∀ c, (f c).wstat = c.wstat) : (if p then s.modCtx w f else s).Readies w x := by
  split
  · exact h.modCtx hvac hwstat
  · exact h

theorem State.Readies.popReads {s : State} {w : Nat} {x : Wave} (h : s.Readies w x) (vs : List Live) : (s.popReads w vs).Readies w x := by
  unfold State.popReads
  refine State.Readies.modCtx_if _ (State.Readies.modCtx_if _ h ?_ ?_) ?_ ?_ <;> exact fun _ => rfl

theorem State.Readies.releaseWaits {s : State} {w : Nat} {x : Wave} (h : s.Readies w x) : (s.modCtx w Ctx.releaseWaits).Readies w x :=
  h.modCtx (fun _ => rfl) fun _ => rfl

/-! The live moves, as they stand and as they were captured. -/

theorem Ctx.enabled_and_fillable (c : Ctx) (mask : Mask) (gd : Guard) : c.enabled mask gd &&& (~~~c.vac ||| c.shadows) = c.enabled mask gd := by
  apply BitVec.eq_of_getLsbD_eq
  intro l hl
  rw [BitVec.getLsbD_and, BitVec.getLsbD_or, BitVec.getLsbD_not, decide_eq_true hl, Ctx.enabled, getLsbD_maskWhere]
  cases c.vac.getLsbD l <;> cases c.shadows.getLsbD l <;> simp

theorem State.captureOf_en (s : State) (w q : Nat) (x : Wave) (g : Seq) {b : Bundle} {k v : Nat}
    (hv : ((b.words.drop 1).take b.head.nmov.val)[k]? = some v) : Map.get 0 (s.captureOf w q x g b).en k = x.ctx.enabled g.mask (decodeGuard v) := by
  rw [Map.get_eq_find?]
  show (Map.find? (((b.words.drop 1).take b.head.nmov.val).zipIdx.map fun e => (e.2, x.ctx.enabled g.mask (decodeGuard e.1))) k).getD 0 = _
  rw [Map.find?_zipIdx_map _ fun v => x.ctx.enabled g.mask (decodeGuard v), if_pos k.zero_le, Nat.sub_zero, hv]
  rfl

/-- The moves of a captured bundle are live in the lanes they had at the capture. -/
theorem State.liveMoves_captured {s t : State} {w q : Nat} {x y : Wave} {g h : Seq} {b : Bundle} {p : Partial}
    (hxy : x.Readied y) (hg : g.part = none) (hh : h.part = some p) (hfirst : p.first = 0) (hcap : p.cap = s.captureOf w q x g b) {fa : Dword} {ws : List Nat}
    (hb : parseBundle fa ws = some b) : t.liveMoves y h b = s.liveMoves x g b := by
  unfold State.liveMoves
  simp only [hg, hh, Option.map_some, Option.map_none, Option.getD_some, Option.getD_none, hfirst, hcap]
  refine List.filterMap_congr ?_
  rintro ⟨o, k⟩ hk
  cases o with
  | none => rfl
  | some m =>
    obtain ⟨v, hv, -, hm⟩ := parseBundle_move hb (List.mem_zipIdx_iff_getElem?.mp hk)
    have hen : Map.get 0 (s.captureOf w q x g b).en k &&& (~~~y.ctx.vac ||| y.ctx.shadows) = x.ctx.enabled g.mask m.f.gd := by
      rw [State.captureOf_en s w q x g hv, hxy.vac, hxy.shadows, Ctx.enabled_and_fillable, guard_of_parseMove hm]
    simp only [hen]

/-! No window opens, and no control move stands before the first slot. -/

/-- No window opens where one is open, where none may open, and where no access stands behind an unperformed one. -/
theorem State.openWindow_eq {s : State} {w : Nat} {x y : Wave} (hy : s.wave? w = some y) (hxy : x.Readied y) {ts : List (FuncUnit × Nat)}
    (h : x.win.isSome = true ∨ x.mayOpen = false ∨ (accessesOf ts).length ≤ if x.unperformed then 0 else 1) : s.openWindow w ts = s := by
  unfold State.openWindow
  rw [hy]
  dsimp only
  rw [hxy.win, hxy.mayOpen, hxy.unperformed]
  refine if_neg fun hopen => ?_
  simp only [Bool.and_eq_true, Bool.or_eq_true, bne_iff_ne, decide_eq_true_eq] at hopen
  obtain ⟨⟨⟨hwin, hne⟩, hbehind⟩, hmay⟩ := hopen
  rcases h with h | h | h
  · rw [Option.isNone_iff_eq_none.mp hwin] at h
    cases h
  · cases h.symm.trans hmay
  · rcases hbehind with hu | ⟨htwo, -⟩
    · rw [if_pos hu] at h
      exact hne (Nat.le_zero.mp h)
    · have hle : (if x.unperformed = true then 0 else 1) ≤ 1 := by split <;> decide
      omega

theorem accessesOf_filter_le (c : Ctx) (vs : List Live) (p : Live → Bool) :
    (accessesOf (triggersOf c (vs.filter p))).length ≤ (accessesOf (triggersOf c vs)).length :=
  ((List.filter_sublist.filterMap _).filter _).length_le

theorem State.modCur_eq_self {s : State} {c : Issue} (hs : s.cur = some c) {f : Issue → Issue} (hf : f c = c) : s.modCur f = s := by
  unfold State.modCur
  rw [hs, Option.map_some, hf, ← hs]

theorem State.earlierControl_zero (s : State) (b : Bundle) : s.earlierControl b 0 =
    .done (s.modCur fun c => { c with after := none, hold := if c.cap.yielded && s.yieldStops c.wave then .stopped else .none }) := by
  unfold State.earlierControl
  rw [List.foldl_fixed']
  rintro ⟨o, k⟩
  cases o with
  | none => rfl
  | some m => exact if_neg fun h => Nat.not_lt_zero k h.1

/-- A bundle about to run from its first slot has nothing to do again. -/
theorem State.earlierControl_start {s : State} {w q stop : Nat} {cap : Capture} {ps : List (Nat × Xlate)} (b : Bundle)
    (hs : s.cur = some (Issue.start w q 0 stop cap ps)) (hcap : cap.yielded = false) : s.earlierControl b 0 = .done s := by
  rw [State.earlierControl_zero]
  refine congrArg Ran.done (State.modCur_eq_self hs ?_)
  simp [Issue.start, hcap]

/-! The run. -/

/-- Slots that all commit, in a bundle that opens no window and has no illegal slot, are the whole run. -/
theorem State.cutRun_whole {s t : State} {b : Bundle} {vs : List Live} {c : Ctx} {w n stop : Nat} {mask : Mask}
    (hopen : s.openWindow w (triggersOf c (vs.filter fun v => decide (v.slot < stop))) = s) (hstop : (s.modCur fun c => { c with stop := stop }) = s)
    (hearly : s.earlierControl b 0 = .done s) (hrun : runSlots (b.order 0 stop) s = .done t) (hafter : t.cur.bind (·.after) = none)
    (hbad : b.bad 0 = none) : s.cutRun b vs c w 0 mask (n + 1) stop none = .whole t := by
  unfold State.cutRun
  simp only [hopen, hstop, Nat.zero_min, hearly, hrun, hafter, hbad, reduceCtorEq, if_false]

/-- A bundle that begins with what was captured: none of its slots is passed over. -/
def Capture.whole (cap : Capture) (now : Nat) : Partial := { cap := cap, first := 0, pages := [], due := now }

/-- The captured lanes less those vacant since. -/
def Capture.lessVacant (cap : Capture) (c : Ctx) : Capture := { cap with en := cap.en.map fun e => (e.1, e.2 &&& (~~~c.vac ||| c.shadows)) }

/-- The state with its bundle begun, before the slots. -/
def State.beginBundle (s : State) (w q : Nat) (cap : Capture) : State :=
  (s.modCtx w Ctx.releaseWaits).modSeq w q fun g => { g with part := some (cap.whole s.now) }

/-- The state that the first slot of a bundle finds. -/
def State.firstSlot (s : State) (w q : Nat) (b : Bundle) (cap : Capture) : State :=
  { s.beginBundle w q cap with cur := some (Issue.start w q 0 b.head.nmov.val (cap.lessVacant (s.wave w).ctx) []) }

/-- The end of a bundle whose slots have committed (R56). -/
def State.endBundle (s : State) (w q : Nat) (b : Bundle) (cap : Capture) : State :=
  { (((s.modSeq w q fun g => { g with part := none }).noteIssue w q 0).popHeads w cap b.head).control b with cur := none }

/-- A bundle with no illegal slot, no mark to deliver and no REGION bit, outside a handler, is the run of its slots and its end. -/
theorem State.runBundle_plain {s t : State} {w q : Nat} {b : Bundle} {cap : Capture} (hbad : b.bad 0 = none) (hregion : b.head.region = false)
    (hmarks : b.marks = false) (htrap : (s.wave w).trap = none)
    (hcut : (s.firstSlot w q b cap).cutRun b
      ((s.beginBundle w q cap).liveMoves (s.wave w) { (s.wave w).ctx.seq q with part := some (cap.whole s.now) } b)
      (s.wave w).ctx w 0 (cap.mask &&& ~~~(s.wave w).ctx.vac) 8 b.head.nmov.val none = .whole t) :
    s.runBundle w q b cap 0 [] = t.endBundle w q b (cap.lessVacant (s.wave w).ctx) := by
  unfold State.firstSlot State.beginBundle Capture.whole Capture.lessVacant at hcut
  unfold State.runBundle State.endBundle Capture.lessVacant
  simp only [hbad, hregion, hmarks, htrap]
  simp [hcut]

theorem Bundle.bad_of_bads {b : Bundle} (h : b.bads = []) (first : Nat) : b.bad first = none := by
  unfold Bundle.bad
  rw [h, List.find?_nil]

/-- BUNDLE_ISSUE of a bundle that takes one issue cycle captures it, pops what it reads and runs it. -/
theorem State.issueBundle_once {s : State} {w q : Nat} {x : Wave} {g : Seq} {b : Bundle} (hx : s.wave? w = some x)
    (hg : Map.find? x.ctx.seqs q = some g) (hpark : s.parksAt w q = none) (hpart : g.part = none) (hb : s.nextBundle w g = .bundle b) (hextra : b.extra = 0) :
    s.issueBundle w q false =
      ((s.popReads w (s.liveMoves x g b)).modSeq w q fun g => { g with hold := .none }).runBundle w q b (s.captureOf w q x g b) 0 [] := by
  unfold State.issueBundle
  simp [hx, hg, hpark, hpart, hb, hextra]

/-- Settles O7: the bundle is issued once (`State.issueBundle_once`); its live moves are those captured, so no window opens
(`State.openWindow_eq`); with no trap the slots are the whole run (`State.cutRun_whole`), and the bundle ends (`State.runBundle_plain`). -/
theorem issueRunsTheBundle : Obligations.IssueRunsTheBundle := by
  unfold Obligations.IssueRunsTheBundle
  intro s w q x g b hev hx hg hpark hpart hb hextra hbads hregion hmarks htrap hwindow cap s1 s2 capEn s3 t hrun hafter
  have hissue : exec .bundleIssue s = .next (s1.runBundle w q b cap 0 []) := by
    show Host.Outcome.next (s.issueBundle (s.ev.getD 0 0) (s.ev.getD 1 0) (s.ev.getD 2 0 == 1)) = _
    rw [hev]
    exact congrArg _ (State.issueBundle_once hx hg hpark hpart hb hextra)
  have hready : s1.Readies w x := ((State.Readies.of_wave? hx).popReads _).modSeq q _
  have hready3 : s3.Readies w x := hready.releaseWaits.modSeq q _
  obtain ⟨y, hy, hxy⟩ := hready
  obtain ⟨z, hz, hxz⟩ := hready3
  have hwave : s1.wave w = y := State.wave_of_wave? hy
  obtain ⟨ws, -, hparse⟩ := State.nextBundle_bundle hpart hb
  have hlive : s2.liveMoves y { y.ctx.seq q with part := some (cap.whole s1.now) } b = s.liveMoves x g b :=
    State.liveMoves_captured hxy hpart rfl rfl rfl hparse
  have hbad := Bundle.bad_of_bads hbads 0
  have hopen : s3.openWindow w (triggersOf y.ctx ((s.liveMoves x g b).filter fun v => decide (v.slot < b.head.nmov.val))) = s3 := by
    refine State.openWindow_eq hz hxz (hwindow.imp_right fun h => h.imp_right (le_trans ?_))
    rw [hxy.triggersOf]
    exact accessesOf_filter_le ..
  rw [hissue]
  refine congrArg _ (State.runBundle_plain hbad hregion hmarks (by rw [hwave, hxy.trap, htrap]) ?_)
  rw [hwave]
  refine State.cutRun_whole ?_ rfl (State.earlierControl_start b rfl rfl) hrun hafter hbad
  exact hlive ▸ hopen

end Sys2Proof.Machine
end

section
/-! O22. CVT_DN to FP32 as rounding to the grid of FP32 codes (R86, R90). -/
namespace Sys2Proof.Machine

/-! The binary logarithm of a quotient. -/

theorem Exact.scale_quot (x : Exact) (e : Int) : ((x.scale e).num : ℚ) / (x.scale e).den = x.num / x.den * 2 ^ e := by
  unfold Exact.scale
  split
  next h =>
    lift e to ℕ using h
    simp [mul_div_right_comm]
  next h =>
    obtain ⟨n, rfl⟩ : ∃ n : ℕ, e = -n := ⟨(-e).toNat, by omega⟩
    simp [div_eq_mul_inv, mul_assoc, mul_comm]

theorem Exact.scale_den_pos {x : Exact} (hx : 0 < x.den) (e : Int) : 0 < (x.scale e).den := by
  unfold Exact.scale
  split
  · exact hx
  · exact Nat.mul_pos hx (Nat.two_pow_pos _)

/-- The comparison that `floorLog2` corrects its first estimate by. -/
theorem pow_le_quot_iff {num den : Nat} (hd : 0 < den) (k : Int) :
    ((⟨false, 1, 1⟩ : Exact).scale k).num * den ≤ num * ((⟨false, 1, 1⟩ : Exact).scale k).den ↔ (2 : ℚ) ^ k ≤ num / den := by
  have hb := Exact.scale_den_pos (x := ⟨false, 1, 1⟩) Nat.one_pos k
  have hq := Exact.scale_quot ⟨false, 1, 1⟩ k
  rw [Nat.cast_one, div_one, one_mul] at hq
  rw [← hq, div_le_div_iff₀ (by exact_mod_cast hb) (by exact_mod_cast hd)]
  norm_cast

theorem log2_bounds {n : Nat} (hn : 0 < n) : (2 : ℚ) ^ (Nat.log2 n : Int) ≤ n ∧ (n : ℚ) < 2 ^ ((Nat.log2 n : Int) + 1) :=
  ⟨by exact_mod_cast Nat.log2_self_le hn.ne', by exact_mod_cast Nat.lt_log2_self⟩

/-- `floorLog2` is the floor of the binary logarithm. -/
theorem floorLog2_bounds {num den : Nat} (hn : 0 < num) (hd : 0 < den) :
    (2 : ℚ) ^ floorLog2 num den ≤ num / den ∧ (num : ℚ) / den < 2 ^ (floorLog2 num den + 1) := by
  obtain ⟨hnlo, hnhi⟩ := log2_bounds hn
  obtain ⟨hdlo, hdhi⟩ := log2_bounds hd
  have hd' : (0 : ℚ) < den := by exact_mod_cast hd
  have hlo : (2 : ℚ) ^ ((Nat.log2 num : Int) - Nat.log2 den - 1) ≤ num / den := by
    rw [sub_sub, zpow_sub₀ two_ne_zero]
    exact div_le_div₀ (by positivity) hnlo hd' hdhi.le
  have hhi : (num : ℚ) / den < 2 ^ ((Nat.log2 num : Int) - Nat.log2 den + 1) := by
    rw [sub_add_eq_add_sub, zpow_sub₀ two_ne_zero]
    exact div_lt_div₀ hnhi hdlo (by positivity) (by positivity)
  unfold floorLog2
  simp only [pow_le_quot_iff hd]
  split
  next h => exact ⟨h, hhi⟩
  next h => exact ⟨hlo, by simpa using h⟩

/-! The spacing of FP32 at a magnitude. -/

/-- The spacing of FP32 at `num / den` is two to this power, in units of 2^−149. -/
def spacingExp (num den : Nat) : Nat := (max (floorLog2 num den) (-126) + 126).toNat

theorem spacingExp_cast (num den : Nat) : (spacingExp num den : Int) = max (floorLog2 num den) (-126) + 126 := by
  unfold spacingExp
  omega

/-- A quotient against a power of two, in whole numbers. -/
theorem zpow_sub_le_quot_iff {num den : Nat} (hd : 0 < den) (e a : Nat) :
    (2 : ℚ) ^ ((e : Int) - a) ≤ num / den ↔ den * 2 ^ e ≤ num * 2 ^ a := by
  have hd' : (0 : ℚ) < den := by exact_mod_cast hd
  rw [zpow_sub₀ two_ne_zero, div_le_div_iff₀ (by positivity) hd', mul_comm]
  norm_cast

/-- The magnitude is below 2^24 spacings. -/
theorem magnitude_lt {num den : Nat} (hn : 0 < num) (hd : 0 < den) : num * 2 ^ 149 < 2 ^ 24 * (den * 2 ^ spacingExp num den) := by
  have hlog : floorLog2 num den + 1 ≤ (spacingExp num den : Int) - (125 : Nat) := by rw [spacingExp_cast]; omega
  have h := (floorLog2_bounds hn hd).2.trans_le (zpow_le_zpow_right₀ one_le_two hlog)
  rw [← not_le, zpow_sub_le_quot_iff hd] at h
  omega

/-- Above the smallest spacing the magnitude is at least 2^23 spacings: a normal value. -/
theorem le_magnitude {num den : Nat} (hn : 0 < num) (hd : 0 < den) (he : spacingExp num den ≠ 0) :
    2 ^ 23 * (den * 2 ^ spacingExp num den) ≤ num * 2 ^ 149 := by
  have hlog : (spacingExp num den : Int) - (126 : Nat) ≤ floorLog2 num den := by
    have := spacingExp_cast num den
    omega
  have h := (zpow_le_zpow_right₀ one_le_two hlog).trans (floorLog2_bounds hn hd).1
  rw [zpow_sub_le_quot_iff hd] at h
  omega

/-- Scaling by a spacing divides both sides by one factor: the magnitude in units of 2^−149, and the spacing. -/
theorem Exact.scale_spacing (x : Exact) (e : Nat) :
    ∃ s, 0 < s ∧ x.num * 2 ^ 149 = (x.scale (149 - e)).num * s ∧ x.den * 2 ^ e = (x.scale (149 - e)).den * s := by
  unfold Exact.scale
  split
  next h =>
    refine ⟨2 ^ e, Nat.two_pow_pos e, ?_, rfl⟩
    rw [mul_assoc, ← pow_add, show (149 - (e : Int)).toNat + e = 149 by omega]
  next h =>
    refine ⟨2 ^ 149, Nat.two_pow_pos 149, rfl, ?_⟩
    rw [mul_assoc, ← pow_add, show (-(149 - (e : Int))).toNat + 149 = e by omega]

/-! The rounded quotient. -/

theorem roundQuot_mul_right (rnd : Rnd) (num den : Nat) {s : Nat} (hs : 0 < s) : roundQuot rnd (num * s) (den * s) = roundQuot rnd num den := by
  unfold roundQuot
  simp only [Nat.mul_div_mul_right _ _ hs, Nat.mul_mod_mul_right, ← mul_assoc, Nat.mul_lt_mul_right hs]

/-- Rounding to nearest goes down or up, as the remainder is at most or at least half the divisor. -/
theorem roundQuot_rne_cases (num den : Nat) :
    roundQuot .rne num den = num / den ∧ 2 * (num % den) ≤ den ∨ roundQuot .rne num den = num / den + 1 ∧ den ≤ 2 * (num % den) := by
  simp only [roundQuot]
  split_ifs <;> omega

theorem roundQuot_rne_tie {num den : Nat} (h : 2 * (num % den) = den) : roundQuot .rne num den % 2 = 0 := by
  simp only [roundQuot]
  split_ifs <;> omega

theorem roundQuot_mem (rnd : Rnd) (num den : Nat) : roundQuot rnd num den = num / den ∨ roundQuot rnd num den = num / den + 1 := by
  cases rnd with
  | rtz => exact .inl rfl
  | rne => exact (roundQuot_rne_cases num den).imp And.left And.left

/-! The grid of FP32 codes. -/

/-- The code of `n` spacings of exponent `e`; `n = 2 ^ 24` is the first code of the next exponent. -/
theorem fpUnitsOf_code {e n : Nat} (hn : n ≤ 2 ^ 24) (hnormal : e ≠ 0 → 2 ^ 23 ≤ n) : fpUnitsOf (e * 2 ^ 23 + n) = n * 2 ^ e := by
  unfold fpUnitsOf
  obtain hsub | hnorm | rfl : n < 2 ^ 23 ∨ (2 ^ 23 ≤ n ∧ n < 2 ^ 24) ∨ n = 2 ^ 24 := by omega
  · obtain rfl : e = 0 := by omega
    rw [if_pos (by omega)]
    omega
  · rw [if_neg (by omega), show (e * 2 ^ 23 + n) / 2 ^ 23 - 1 = e by omega, show 2 ^ 23 + (e * 2 ^ 23 + n) % 2 ^ 23 = n by omega]
  · rw [if_neg (by omega), show (e * 2 ^ 23 + 2 ^ 24) / 2 ^ 23 - 1 = e + 1 by omega,
      show 2 ^ 23 + (e * 2 ^ 23 + 2 ^ 24) % 2 ^ 23 = 2 ^ 23 by omega]
    ring

/-- Every code counts spacings of one exponent. -/
theorem exists_code_eq (k : Nat) : ∃ e n, k = e * 2 ^ 23 + n ∧ n < 2 ^ 24 ∧ (e ≠ 0 → 2 ^ 23 ≤ n) := by
  by_cases h : k / 2 ^ 23 = 0
  · exact ⟨0, k, by omega, by omega, by omega⟩
  · exact ⟨k / 2 ^ 23 - 1, 2 ^ 23 + k % 2 ^ 23, by omega, by omega, by omega⟩

theorem fpUnitsOf_strictMono : StrictMono fpUnitsOf := by
  refine strictMono_nat_of_lt_succ fun k => ?_
  obtain ⟨e, n, rfl, hn, hnormal⟩ := exists_code_eq k
  rw [add_assoc, fpUnitsOf_code hn.le hnormal, fpUnitsOf_code hn fun he => (hnormal he).trans n.le_succ]
  exact Nat.mul_lt_mul_of_pos_right n.lt_succ_self (Nat.two_pow_pos e)

/-! The distance of a code from a magnitude of `N / D` units of 2^−149. -/

/-- The distance of a code's magnitude from `N / D` units of 2^−149, times `D`. -/
def codeError (N D k : Nat) : Nat := ((fpUnitsOf k * D : Nat) - (N : Nat) : Int).natAbs

theorem codeError_eq_zero_iff {N D k : Nat} : codeError N D k = 0 ↔ fpUnitsOf k * D = N := by
  unfold codeError
  omega

section
variable {N D a b k : Nat}

theorem codeError_of_le (h : fpUnitsOf k * D ≤ N) : codeError N D k = N - fpUnitsOf k * D := by
  unfold codeError
  omega

theorem codeError_of_ge (h : N ≤ fpUnitsOf k * D) : codeError N D k = fpUnitsOf k * D - N := by
  unfold codeError
  omega

theorem codeError_lt_of_lt_below (hD : 0 < D) (ha : fpUnitsOf a * D ≤ N) (hk : k < a) : codeError N D a < codeError N D k := by
  have hlt := Nat.mul_lt_mul_of_pos_right (fpUnitsOf_strictMono hk) hD
  rw [codeError_of_le ha, codeError_of_le (hlt.le.trans ha)]
  omega

theorem codeError_lt_of_gt_above (hD : 0 < D) (hb : N ≤ fpUnitsOf b * D) (hk : b < k) : codeError N D b < codeError N D k := by
  have hlt := Nat.mul_lt_mul_of_pos_right (fpUnitsOf_strictMono hk) hD
  rw [codeError_of_ge hb, codeError_of_ge (hb.trans hlt.le)]
  omega

/-- Of two neighbouring codes around a magnitude, the nearer one is nearest of all codes, and alone so unless the two are equally near. -/
theorem nearest_of_neighbours {c : Nat} (hD : 0 < D) (hlo : fpUnitsOf a * D ≤ N) (hhi : N ≤ fpUnitsOf (a + 1) * D)
    (hc : c = a ∧ codeError N D a ≤ codeError N D (a + 1) ∨ c = a + 1 ∧ codeError N D (a + 1) ≤ codeError N D a)
    (htie : codeError N D a = codeError N D (a + 1) → c % 2 = 0) (k : Nat) :
    codeError N D c ≤ codeError N D k ∧ (codeError N D c = codeError N D k → k ≠ c → c % 2 = 0) := by
  have hbelow : k < a → codeError N D a < codeError N D k := codeError_lt_of_lt_below hD hlo
  have habove : a + 1 < k → codeError N D (a + 1) < codeError N D k := codeError_lt_of_gt_above hD hhi
  have hk : k < a ∨ k = a ∨ k = a + 1 ∨ a + 1 < k := by omega
  obtain ⟨rfl, hle⟩ | ⟨rfl, hle⟩ := hc <;> obtain hk | rfl | rfl | hk := hk <;> exact ⟨by omega, fun _ _ => by omega⟩

end

/-! The rounded code. -/

/-- The magnitude of `N / D` units of 2^−149 lies where the codes are 2^`e` units apart: below 2^24 spacings, and from 2^23 on above the
smallest spacing (R81). -/
structure Spaced (N D e : Nat) : Prop where
  den_pos : 0 < D
  lt : N < 2 ^ 24 * (D * 2 ^ e)
  normal : e ≠ 0 → 2 ^ 23 * (D * 2 ^ e) ≤ N

theorem spaced_spacingExp {num den : Nat} (hn : 0 < num) (hd : 0 < den) : Spaced (num * 2 ^ 149) den (spacingExp num den) :=
  ⟨hd, magnitude_lt hn hd, le_magnitude hn hd⟩

/-- The code of the magnitude rounded to a whole number of spacings. -/
def roundedCode (rnd : Rnd) (N D e : Nat) : Nat := e * 2 ^ 23 + roundQuot rnd N (D * 2 ^ e)

/-- The greatest code whose magnitude is not above. -/
def codeBelow (N D e : Nat) : Nat := e * 2 ^ 23 + N / (D * 2 ^ e)

theorem roundedCode_rtz (N D e : Nat) : roundedCode .rtz N D e = codeBelow N D e := rfl

namespace Spaced
variable {N D e : Nat} (h : Spaced N D e)
include h

theorem spacing_pos : 0 < D * 2 ^ e := Nat.mul_pos h.den_pos (Nat.two_pow_pos e)

/-- The magnitude of the quotient's code, and of the next. -/
theorem fpUnitsOf_mul {n : Nat} (hn : n = N / (D * 2 ^ e) ∨ n = N / (D * 2 ^ e) + 1) : fpUnitsOf (e * 2 ^ 23 + n) * D = n * (D * 2 ^ e) := by
  have hlt : N / (D * 2 ^ e) < 2 ^ 24 := Nat.div_lt_of_lt_mul (h.lt.trans_eq (mul_comm ..))
  have hle (he : e ≠ 0) : 2 ^ 23 ≤ N / (D * 2 ^ e) := (Nat.le_div_iff_mul_le h.spacing_pos).2 (h.normal he)
  rw [fpUnitsOf_code (by omega) fun he => (hle he).trans (by omega)]
  ring

theorem codeBelow_mul : fpUnitsOf (codeBelow N D e) * D = N / (D * 2 ^ e) * (D * 2 ^ e) := h.fpUnitsOf_mul (.inl rfl)

theorem codeBelow_succ_mul : fpUnitsOf (codeBelow N D e + 1) * D = (N / (D * 2 ^ e) + 1) * (D * 2 ^ e) := by
  rw [codeBelow, add_assoc, h.fpUnitsOf_mul (.inr rfl)]

theorem codeBelow_le : fpUnitsOf (codeBelow N D e) * D ≤ N := h.codeBelow_mul.trans_le (Nat.div_mul_le_self ..)

theorem lt_codeBelow_succ : N < fpUnitsOf (codeBelow N D e + 1) * D := by
  rw [h.codeBelow_succ_mul, mul_comm]
  exact Nat.lt_mul_div_succ N h.spacing_pos

/-- No code whose magnitude is not above has a greater one. -/
theorem le_codeBelow {k : Nat} (hk : fpUnitsOf k * D ≤ N) : fpUnitsOf k ≤ fpUnitsOf (codeBelow N D e) := by
  refine fpUnitsOf_strictMono.monotone (Nat.lt_succ_iff.1 (fpUnitsOf_strictMono.lt_iff_lt.1 ?_))
  exact Nat.lt_of_mul_lt_mul_right (hk.trans_lt h.lt_codeBelow_succ)

theorem codeError_codeBelow : codeError N D (codeBelow N D e) = N % (D * 2 ^ e) := by
  rw [codeError_of_le h.codeBelow_le, h.codeBelow_mul, Nat.mod_eq_sub_div_mul]

theorem codeError_codeBelow_succ : codeError N D (codeBelow N D e + 1) = D * 2 ^ e - N % (D * 2 ^ e) := by
  have hle := Nat.div_mul_le_self N (D * 2 ^ e)
  rw [codeError_of_ge h.lt_codeBelow_succ.le, h.codeBelow_succ_mul, Nat.mod_eq_sub_div_mul, add_mul, one_mul]
  omega

/-- The rounded code's magnitude differs where the whole number of spacings does. -/
theorem codeError_roundedCode_ne_zero_iff (rnd : Rnd) :
    codeError N D (roundedCode rnd N D e) ≠ 0 ↔ roundQuot rnd N (D * 2 ^ e) * (D * 2 ^ e) ≠ N := by
  rw [ne_eq, codeError_eq_zero_iff, roundedCode, h.fpUnitsOf_mul (roundQuot_mem ..)]

/-- To nearest: the nearest code, an even one where two are equally near. -/
theorem roundedCode_rne_nearest (k : Nat) :
    codeError N D (roundedCode .rne N D e) ≤ codeError N D k ∧
      (codeError N D (roundedCode .rne N D e) = codeError N D k → k ≠ roundedCode .rne N D e → roundedCode .rne N D e % 2 = 0) := by
  refine nearest_of_neighbours h.den_pos h.codeBelow_le h.lt_codeBelow_succ.le ?_ ?_ k
  · rw [h.codeError_codeBelow, h.codeError_codeBelow_succ, roundedCode, codeBelow]
    have := roundQuot_rne_cases N (D * 2 ^ e)
    omega
  · rw [h.codeError_codeBelow, h.codeError_codeBelow_succ, roundedCode]
    intro htie
    have hmod := Nat.mod_lt N h.spacing_pos
    have heven : roundQuot .rne N (D * 2 ^ e) % 2 = 0 := roundQuot_rne_tie (by omega)
    omega

end Spaced

/-- `roundMag` to FP32 counts spacings, and the code is the count above the spacing's first code (R81, R86). -/
theorem roundMag_fp32 (rnd : Rnd) (num den : Nat) :
    roundMag .fp32 rnd num den =
      (roundedCode rnd (num * 2 ^ 149) den (spacingExp num den),
        decide (roundQuot rnd (num * 2 ^ 149) (den * 2 ^ spacingExp num den) * (den * 2 ^ spacingExp num den) ≠ num * 2 ^ 149)) := by
  have hk : ((Fmt.frac .fp32 : Nat) : Int) - max (floorLog2 num den) (Fmt.emin .fp32) = 149 - spacingExp num den := by
    rw [spacingExp_cast]
    simp only [Fmt.frac, Fmt.emin]
    omega
  obtain ⟨s, hs, hnum, hden⟩ := Exact.scale_spacing ⟨false, num, den⟩ (spacingExp num den)
  simp only at hnum hden
  unfold roundMag roundedCode
  rw [hnum, hden, roundQuot_mul_right _ _ _ hs]
  simp only [hk, ← mul_assoc, ne_eq, Nat.mul_left_inj hs.ne']
  rfl

/-- The conversion of a finite value that does not overflow: its sign, the rounded code, and whether that has another magnitude (R86, R90). -/
theorem cvtDn_fp32_of_not_ovf {x : Exact} {rnd : Rnd} (hd : 0 < x.den) (hn : 0 < x.num) (hovf : (cvtDn (.fin x) .fp32 rnd false).ovf = false) :
    let c := roundedCode rnd (x.num * 2 ^ 149) x.den (spacingExp x.num x.den)
    c ≤ 0x7F7FFFFF ∧ cvtDn (.fin x) .fp32 rnd false = ⟨signBit x.neg 32 + c, decide (codeError (x.num * 2 ^ 149) x.den c ≠ 0), false⟩ := by
  intro c
  have hfin : cvtDn (.fin x) .fp32 rnd false = cvtDnFinite x .fp32 rnd false := by
    simp [cvtDn, Fmt.isInt, Exact.isZero, hn.ne']
  have hmag : roundMag .fp32 rnd x.num x.den = (c, decide (codeError (x.num * 2 ^ 149) x.den c ≠ 0)) := by
    rw [roundMag_fp32]
    exact congrArg _ (decide_eq_decide.2 ((spaced_spacingExp hn hd).codeError_roundedCode_ne_zero_iff rnd).symm)
  rw [hfin] at hovf ⊢
  unfold cvtDnFinite at hovf ⊢
  rw [hmag] at hovf ⊢
  by_cases hmax : c ≤ 0x7F7FFFFF
  · exact ⟨hmax, if_pos hmax⟩
  · cases rnd <;> simp [Fmt.maxCode, Fmt.infCode?, hmax] at hovf

theorem signBit_add_split {neg : Bool} {c : Nat} (hc : c < 2 ^ 31) :
    (signBit neg 32 + c) % 2 ^ 31 = c ∧ (signBit neg 32 + c) / 2 ^ 31 = if neg then 1 else 0 := by
  cases neg <;> simp [signBit] <;> omega

/-- Settles O22: the code is a neighbour of the magnitude on the grid of codes, the one below it toward zero (`Spaced.codeBelow_le`,
`Spaced.le_codeBelow`) and the nearer one to nearest (`Spaced.roundedCode_rne_nearest`). -/
theorem roundingIsCorrect : Obligations.RoundingIsCorrect := by
  unfold Obligations.RoundingIsCorrect
  intro x mode hd hn hovf r c off
  have hspaced := spaced_spacingExp hn hd
  obtain ⟨hmax, hr⟩ := cvtDn_fp32_of_not_ovf hd hn hovf
  obtain ⟨hcode, hsign⟩ := signBit_add_split (neg := x.neg) (hmax.trans_lt (by omega))
  have hc : c = roundedCode mode (x.num * 2 ^ 149) x.den (spacingExp x.num x.den) := (congrArg (·.code % 2 ^ 31) hr).trans hcode
  have hoff : off = codeError (x.num * 2 ^ 149) x.den := rfl
  rw [hoff, hc, show r.code = _ from congrArg Cvt.code hr, show r.inx = _ from congrArg Cvt.inx hr]
  refine ⟨hmax, hsign, ?_, ?_, decide_eq_true_iff⟩
  · rintro rfl k -
    exact hspaced.roundedCode_rne_nearest k
  · rintro rfl
    rw [roundedCode_rtz]
    exact ⟨hspaced.codeBelow_le, fun k _ => hspaced.le_codeBelow⟩

end Sys2Proof.Machine
end

section
/-! SUPPORT. A lane operation as an instruction on its own, and the ports it writes (R58, R129). -/
namespace Sys2Proof.Machine

@[simp] theorem portsOf_fa (t : Twin) : portsOf (twin t .fa .fb) = [.res, .st] := by cases t <;> rfl

namespace State.Issues
variable {s : State} {gd : Guard} {src : Src} {m : MoveIn} {i : Instr} {g : Nat → LaneOut} (h : s.Issues gd src m) (he : m.en ≠ 0)
include h he

/-- An instruction whose slot is a lane operation starts it in the enabled lanes. -/
theorem exec_laneOp {u : FuncUnit} {lat : Nat} {f : MoveIn → Nat → LaneOut} (hi : exec i s = asStep (Machine.laneOp u lat gd src f s) s)
    (hf : ∀ l, f m l = g l) : exec i s = .next (s.start m.w u (portsOf u) m.en lat g) := by
  rw [hi, h.laneOp he, asStep_ok, funext hf]

variable {t : Twin}

/-- An operation of fa or fb with one, two or three inputs (R55). -/
theorem exec_fa1 {f : Rnd → Word → LaneOut} (hi : exec i s = asStep (fa1 gd t src f s) s) (hf : ∀ l, f m.x.ctx.rm (m.tw l) = g l) :
    exec i s = .next (s.start m.w (twin t .fa .fb) [.res, .st] m.en 4 g) :=
  portsOf_fa t ▸ h.exec_laneOp he hi hf

theorem exec_fa2 {f : Rnd → Word → Word → LaneOut} (hi : exec i s = asStep (fa2 gd t src f s) s)
    (hf : ∀ l, f m.x.ctx.rm (m.latchW (twin t .fa .fb) .o1 l) (m.tw l) = g l) :
    exec i s = .next (s.start m.w (twin t .fa .fb) [.res, .st] m.en 4 g) :=
  portsOf_fa t ▸ h.exec_laneOp he hi hf

theorem exec_fa3 {f : Rnd → Word → Word → Word → LaneOut} (hi : exec i s = asStep (fa3 gd t src f s) s)
    (hf : ∀ l, f m.x.ctx.rm (m.latchW (twin t .fa .fb) .o1 l) (m.latchW (twin t .fa .fb) .o2 l) (m.tw l) = g l) :
    exec i s = .next (s.start m.w (twin t .fa .fb) [.res, .st] m.en 4 g) :=
  portsOf_fa t ▸ h.exec_laneOp he hi hf

end State.Issues
end Sys2Proof.Machine
end

section
/-! SUPPORT. FP32 codes and the values they stand for (R81, R82): NaNs, infinities, and finite values counted in units of 2^−149. -/
namespace Sys2Proof.Machine

theorem getLsbD_31 (v : Word) : v.getLsbD 31 = v.msb := by simp [BitVec.msb, BitVec.getMsbD]

/-- The sign and the magnitude code of a word. -/
theorem toNat_eq_sign_add (v : Word) : v.toNat = (if v.msb then 2 ^ 31 else 0) + v.toNat % 2 ^ 31 := by
  have := v.isLt
  have hs : v.msb = true ↔ 2 ^ 31 ≤ v.toNat := by rw [BitVec.msb_eq_decide, decide_eq_true_iff]
  simp only [hs]
  split <;> omega

theorem eq_of_msb_of_mag {a b : Word} (hs : a.msb = b.msb) (hm : a.toNat % 2 ^ 31 = b.toNat % 2 ^ 31) : a = b := by
  apply BitVec.eq_of_toNat_eq
  rw [toNat_eq_sign_add a, toNat_eq_sign_add b, hs, hm]

/-- The finite value that a word stands for: its sign, and its magnitude in units of 2^−149. -/
structure ReadsAs (v : Word) (x : Exact) : Prop where
  neg : x.neg = v.msb
  den_pos : 0 < x.den
  units : x.num * 2 ^ 149 = fpUnitsOf (v.toNat % 2 ^ 31) * x.den
  finite : v.toNat % 2 ^ 31 < 0x7F800000

@[simp] theorem fpInf_msb (n : Bool) : (fpInf n).msb = n := by cases n <;> rfl
@[simp] theorem fpZero_msb (n : Bool) : (fpZero n).msb = n := by cases n <;> rfl
@[simp] theorem isNan_fpInf (n : Bool) : isNan (fpInf n) = false := by cases n <;> rfl
@[simp] theorem ofFp32_fpInf (n : Bool) : ofFp32 (fpInf n) = .inf n := by cases n <;> rfl
@[simp] theorem ofFp32_fpZero (n : Bool) : ofFp32 (fpZero n) = .fin ⟨n, 0, 2 ^ 149⟩ := by cases n <;> rfl

/-- Scaling by two to the power `e` − 149 counts `num` spacings of 2^`e` units. -/
theorem Exact.scale_units (n : Bool) (num e : Nat) :
    ((⟨n, num, 1⟩ : Exact).scale (e - 149)).num * 2 ^ 149 = num * 2 ^ e * ((⟨n, num, 1⟩ : Exact).scale (e - 149)).den := by
  unfold Exact.scale
  split
  next h =>
    rw [mul_one, mul_assoc, ← pow_add]
    congr 2
    omega
  next h =>
    rw [one_mul, mul_assoc, ← pow_add]
    congr 2
    omega

@[simp] theorem Exact.scale_neg (x : Exact) (e : Int) : (x.scale e).neg = x.neg := by
  unfold Exact.scale
  split <;> rfl

/-- A word reads as a NaN, as an infinity, or as a finite value. -/
theorem ofFp32_cases (v : Word) :
    isNan v = true ∧ ofFp32 v = .nan v ∨ v = fpInf v.msb ∧ ofFp32 v = .inf v.msb ∨ ∃ x, ofFp32 v = .fin x ∧ ReadsAs v x := by
  have hlt := v.isLt
  unfold ofFp32
  dsimp only
  rw [getLsbD_31]
  split_ifs with he hm hz
  · refine .inr (.inl ⟨eq_of_msb_of_mag (fpInf_msb _).symm ?_, rfl⟩)
    rw [show (fpInf v.msb).toNat % 2 ^ 31 = 0x7F800000 by cases v.msb <;> rfl]
    omega
  · exact .inl ⟨decide_eq_true ⟨he, hm⟩, rfl⟩
  · refine .inr (.inr ⟨_, rfl, Exact.scale_neg .., Exact.scale_den_pos Nat.one_pos _, ?_, by omega⟩)
    have hcode := fpUnitsOf_code (e := 0) (n := v.toNat % 2 ^ 23) (by omega) (by omega)
    rw [show v.toNat % 2 ^ 31 = 0 * 2 ^ 23 + v.toNat % 2 ^ 23 by omega, hcode]
    exact Exact.scale_units _ _ 0
  · refine .inr (.inr ⟨_, rfl, Exact.scale_neg .., Exact.scale_den_pos Nat.one_pos _, ?_, by omega⟩)
    obtain ⟨e, hexp⟩ : ∃ e, v.toNat / 2 ^ 23 % 256 = e + 1 := Nat.exists_eq_succ_of_ne_zero hz
    have hcode := fpUnitsOf_code (e := e) (n := 2 ^ 23 + v.toNat % 2 ^ 23) (by omega) (by omega)
    rw [show v.toNat % 2 ^ 31 = e * 2 ^ 23 + (2 ^ 23 + v.toNat % 2 ^ 23) by omega, hcode, hexp,
      show ((e + 1 : Nat) : Int) - 150 = e - 149 by omega]
    exact Exact.scale_units ..

theorem ReadsAs.isNan {v : Word} {x : Exact} (h : ReadsAs v x) : isNan v = false := by
  have := h.finite
  refine decide_eq_false fun hn => ?_
  omega

theorem ofFp32_of_isNan {v : Word} (h : isNan v = true) : ofFp32 v = .nan v := by
  obtain ⟨-, hv⟩ | ⟨hv, -⟩ | ⟨x, -, hx⟩ := ofFp32_cases v
  · exact hv
  · rw [hv, isNan_fpInf] at h
    contradiction
  · rw [hx.isNan] at h
    contradiction

theorem readsAs_of_fin {v : Word} {x : Exact} (h : ofFp32 v = .fin x) : ReadsAs v x := by
  obtain ⟨-, hv⟩ | ⟨-, hv⟩ | ⟨y, hv, hy⟩ := ofFp32_cases v <;> rw [h] at hv <;> cases hv
  exact hy

theorem eq_fpInf_of_inf {v : Word} {n : Bool} (h : ofFp32 v = .inf n) : v = fpInf n := by
  obtain ⟨-, hv⟩ | ⟨hinf, hv⟩ | ⟨y, hv, -⟩ := ofFp32_cases v <;> rw [h] at hv <;> cases hv
  exact hinf

theorem isNan_of_nan {v c : Word} (h : ofFp32 v = .nan c) : isNan v = true := by
  obtain ⟨hnan, -⟩ | ⟨-, hv⟩ | ⟨y, hv, -⟩ := ofFp32_cases v
  · exact hnan
  · rw [h] at hv
    cases hv
  · rw [h] at hv
    cases hv

/-- A word that is no NaN reads as an infinity or as a finite value. -/
theorem ofFp32_cases_of_not_isNan {v : Word} (h : isNan v = false) :
    v = fpInf v.msb ∧ ofFp32 v = .inf v.msb ∨ ∃ x, ofFp32 v = .fin x ∧ ReadsAs v x := by
  simpa [h] using ofFp32_cases v

theorem fpUnitsOf_eq_zero_iff {k : Nat} : fpUnitsOf k = 0 ↔ k = 0 := fpUnitsOf_strictMono.injective.eq_iff' rfl

theorem eq_fpZero_iff {v : Word} : v = fpZero v.msb ↔ v.toNat % 2 ^ 31 = 0 := by
  have hzero : (fpZero v.msb).toNat % 2 ^ 31 = 0 := by cases v.msb <;> rfl
  exact ⟨fun hv => hv ▸ hzero, fun hm => eq_of_msb_of_mag (fpZero_msb _).symm (hm.trans hzero.symm)⟩

/-- The finite value is zero where the word is. -/
theorem ReadsAs.num_eq_zero_iff {v : Word} {x : Exact} (h : ReadsAs v x) : x.num = 0 ↔ v = fpZero v.msb := by
  rw [eq_fpZero_iff, ← fpUnitsOf_eq_zero_iff (k := v.toNat % 2 ^ 31), ← Nat.mul_left_inj (Nat.two_pow_pos 149).ne', h.units, Nat.zero_mul, Nat.mul_eq_zero,
    or_iff_left h.den_pos.ne']

end Sys2Proof.Machine
end

section
/-! O20. FP32 arithmetic (R129, R131 to R134): the rule of R132 and R133 in the statements' words, and the signs of R134. -/
namespace Sys2Proof.Machine

/-! Results and flags. -/

theorem statusWord_eq_fpFlags : ∀ nv dz ovf unf nx, statusWord nv dz ovf unf nx = fpFlags nv dz ovf unf nx := by decide

/-- A value is tiny where it is below 2^−126 and not zero (R132). -/
theorem tiny_iff (r : Exact) : decide (0 < r.num ∧ r.num * 2 ^ 126 < r.den) = (!r.isZero && r.absLt (-126)) := by
  rw [Bool.decide_and]
  congr 1
  · simp [Exact.isZero, Nat.pos_iff_ne_zero, beq_eq_decide]
  · simp [Exact.absLt, Exact.scale]

/-- The statements' rule for an arithmetic result (R132, R133) is the model's. -/
theorem arithmetic_eq_arith (ins : List Word) (mode : Rnd) (x : Option XVal) : arithmetic ins mode x = arith ins mode false x := by
  have hfind := List.head?_filter (p := isNan) (l := ins)
  unfold arithmetic arith
  cases hf : ins.filter isNan with
  | cons n ns =>
    rw [hf, List.head?_cons] at hfind
    rw [← hfind, statusWord_eq_fpFlags]
    rfl
  | nil =>
    rw [hf, List.head?_nil] at hfind
    rw [← hfind]
    match x with
    | none | some (.nan _) | some (.inf true) | some (.inf false) => rfl
    | some (.fin r) => simp only [statusWord_eq_fpFlags, tiny_iff, arithFin, fpOut, Bool.or_false, Bool.and_assoc]

/-- Where an input is a NaN, the result does not depend on the value computed. -/
theorem arith_congr {ins : List Word} {mode : Rnd} {sat : Bool} {x y : Option XVal} (h : (∀ w ∈ ins, isNan w = false) → x = y) :
    arith ins mode sat x = arith ins mode sat y := by
  cases hf : ins.find? isNan with
  | some n => simp only [arith, hf]
  | none => rw [h fun w hw => by simpa using List.find?_eq_none.1 hf w hw]

/-! Signs. -/

theorem mag_xor_sign (w : Word) : (w ^^^ 0x80000000#32).toNat % 2 ^ 31 = w.toNat % 2 ^ 31 := by
  rw [BitVec.toNat_xor, Nat.xor_mod_two_pow]
  simp

@[simp] theorem Exact.scale_negate (x : Exact) (e : Int) : (x.scale e).negate = x.negate.scale e := by
  unfold Exact.scale
  split <;> rfl

/-- Inverting the sign bit negates the value. -/
theorem ofFp32_xor_sign {w : Word} (h : isNan w = false) : ofFp32 (w ^^^ 0x80000000#32) = negX (ofFp32 w) := by
  have hmag := mag_xor_sign w
  have hexp : (w ^^^ 0x80000000#32).toNat / 2 ^ 23 % 256 = w.toNat / 2 ^ 23 % 256 := by omega
  have hfrac : (w ^^^ 0x80000000#32).toNat % 2 ^ 23 = w.toNat % 2 ^ 23 := by omega
  have hsign : (w ^^^ 0x80000000#32).getLsbD 31 = !w.getLsbD 31 := by simp
  unfold ofFp32
  dsimp only
  rw [hexp, hfrac, hsign]
  split_ifs with he hm hz
  · rfl
  · exact absurd (decide_eq_true ⟨he, hm⟩) (Bool.eq_false_iff.1 h)
  · exact congrArg XVal.fin (Exact.scale_negate ⟨_, _, _⟩ _).symm
  · exact congrArg XVal.fin (Exact.scale_negate ⟨_, _, _⟩ _).symm

/-- A negated factor negates the product. -/
theorem mulX_negX (x y : XVal) : mulX (negX x) y = (mulX x y).map negX := by
  have hzero (a : Exact) : a.negate.isZero = a.isZero := rfl
  have hsign (a : Exact) : a.negate.neg = !a.neg := rfl
  match x, y with
  | .nan _, _ | .inf _, .nan _ | .fin _, .nan _ => rfl
  | .inf n, .inf k => simp [negX, mulX]
  | .inf n, .fin b => cases hb : b.isZero <;> simp [negX, mulX, hb]
  | .fin a, .inf k => cases ha : a.isZero <;> simp [negX, mulX, hzero, hsign, ha]
  | .fin a, .fin b => simp [negX, mulX, Exact.negate, Exact.mul]

/-- A difference is the sum with the sign bit inverted (R134). -/
theorem sub_eq_arith (a b : Word) (rm : Rnd) :
    arith [a, b] rm false (addX (ofFp32 a) (negX (ofFp32 b))) = arithmetic [a, b] rm (addX (ofFp32 a) (ofFp32 (b ^^^ 0x80000000#32))) := by
  rw [arithmetic_eq_arith]
  exact arith_congr fun h => by rw [ofFp32_xor_sign (h b (by simp))]

theorem fusedX_eq_bind (p q : Bool) (a b c : Word) :
    fusedX p q a b c = (mulX (ofFp32 a) (ofFp32 b)).bind fun v => addX (if p then negX v else v) (if q then negX (ofFp32 c) else ofFp32 c) := by
  unfold fusedX
  cases mulX (ofFp32 a) (ofFp32 b) <;> rfl

/-- The fused forms as sums of a product and an addend with their sign bits inverted (R134). -/
theorem fusedOut_eq_arithmetic (p q : Bool) (rm : Rnd) (a b c : Word) :
    fusedOut p q rm a b c = arithmetic [a, b, c] rm
      ((mulX (if p then ofFp32 (a ^^^ 0x80000000#32) else ofFp32 a) (ofFp32 b)).bind fun x =>
        addX x (if q then ofFp32 (c ^^^ 0x80000000#32) else ofFp32 c)) := by
  rw [arithmetic_eq_arith]
  refine arith_congr fun h => ?_
  rw [ofFp32_xor_sign (h a (by simp)), ofFp32_xor_sign (h c (by simp))]
  rw [fusedX_eq_bind]
  cases p with
  | false => rfl
  | true => simp only [if_true, mulX_negX, Option.bind_map]; rfl

/-- Settles O20: each form starts with the model's arithmetic rule, which is the statement's (`arithmetic_eq_arith`). -/
theorem floatArithmetic : Obligations.FloatArithmetic := by
  unfold Obligations.FloatArithmetic
  intro s gd src m t h he u a b2 b rm v neg starts fused
  exact ⟨h.exec_fa2 he rfl fun _ => (arithmetic_eq_arith ..).symm,
    h.exec_fa2 he rfl fun _ => sub_eq_arith ..,
    h.exec_fa2 he rfl fun _ => (arithmetic_eq_arith ..).symm,
    h.exec_fa3 he rfl fun _ => fusedOut_eq_arithmetic ..,
    h.exec_fa3 he rfl fun _ => fusedOut_eq_arithmetic ..,
    h.exec_fa3 he rfl fun _ => fusedOut_eq_arithmetic ..,
    h.exec_fa3 he rfl fun _ => fusedOut_eq_arithmetic ..⟩

end Sys2Proof.Machine
end

section
/-! SUPPORT. The order of FP32 numbers (R135, R136): of their values, and of the keys that the model compares. -/
namespace Sys2Proof.Machine

theorem fpKey0_eq (v : Word) : fpKey0 v = if v.msb then -((v.toNat % 2 ^ 31 : Nat) : Int) else (v.toNat % 2 ^ 31 : Nat) := by
  rw [fpKey0, getLsbD_31]

theorem fpKey_eq (v : Word) : fpKey v = fpKey0 v - if v.msb then 1 else 0 := by
  rw [fpKey0_eq, fpKey, getLsbD_31]
  split <;> omega

theorem fpKey0_fpInf (n : Bool) : fpKey0 (fpInf n) = if n then -0x7F800000 else 0x7F800000 := by cases n <;> rfl

/-- The value of a word in units of 2^−149. -/
def signedUnits (v : Word) : Int := if v.msb then -(fpUnitsOf (v.toNat % 2 ^ 31) : Int) else fpUnitsOf (v.toNat % 2 ^ 31)

theorem signedUnits_lt_iff (a b : Word) : signedUnits a < signedUnits b ↔ fpKey0 a < fpKey0 b := by
  have hab := fpUnitsOf_strictMono.lt_iff_lt (a := a.toNat % 2 ^ 31) (b := b.toNat % 2 ^ 31)
  have hba := fpUnitsOf_strictMono.lt_iff_lt (a := b.toNat % 2 ^ 31) (b := a.toNat % 2 ^ 31)
  have ha := fpUnitsOf_eq_zero_iff (k := a.toNat % 2 ^ 31)
  have hb := fpUnitsOf_eq_zero_iff (k := b.toNat % 2 ^ 31)
  rw [fpKey0_eq, fpKey0_eq]
  unfold signedUnits
  split_ifs <;> omega

namespace ReadsAs
variable {a b v : Word} {x y : Exact}

theorem signed (h : ReadsAs v x) : x.signed * 2 ^ 149 = signedUnits v * x.den := by
  have hu : (x.num : Int) * 2 ^ 149 = fpUnitsOf (v.toNat % 2 ^ 31) * x.den := by exact_mod_cast h.units
  unfold Exact.signed signedUnits
  rw [h.neg]
  split
  · rw [neg_mul, neg_mul, hu]
  · exact hu

/-- Values are ordered as the keys of their words. -/
theorem lt_iff (hx : ReadsAs a x) (hy : ReadsAs b y) : x.signed * y.den < y.signed * x.den ↔ fpKey0 a < fpKey0 b := by
  have hden : (0 : Int) < x.den * y.den := by exact_mod_cast Nat.mul_pos hx.den_pos hy.den_pos
  have hxu : x.signed * y.den * 2 ^ 149 = signedUnits a * (x.den * y.den) := by rw [mul_right_comm, hx.signed, mul_assoc]
  have hyu : y.signed * x.den * 2 ^ 149 = signedUnits b * (x.den * y.den) := by
    rw [mul_right_comm, hy.signed, mul_assoc, mul_comm (y.den : Int)]
  rw [← mul_lt_mul_iff_left₀ (show (0 : Int) < 2 ^ 149 by positivity), hxu, hyu, mul_lt_mul_iff_left₀ hden, signedUnits_lt_iff]

theorem key0_bounds (h : ReadsAs v x) : -0x7F800000 < fpKey0 v ∧ fpKey0 v < 0x7F800000 := by
  have := h.finite
  rw [fpKey0_eq]
  split <;> omega

end ReadsAs

/-- The statements' order of FP32 numbers is that of the model's keys. -/
theorem fpLess_eq {a b : Word} (ha : isNan a = false) (hb : isNan b = false) : fpLess a b = decide (fpKey0 a < fpKey0 b) := by
  unfold fpLess
  cases hx : ofFp32 a with
  | nan c => simp [isNan_of_nan hx] at ha
  | inf n =>
    obtain rfl := eq_fpInf_of_inf hx
    rw [fpKey0_fpInf]
    cases hy : ofFp32 b with
    | nan c => simp [isNan_of_nan hy] at hb
    | inf k =>
      obtain rfl := eq_fpInf_of_inf hy
      rw [fpKey0_fpInf]
      cases n <;> cases k <;> rfl
    | fin y =>
      have hbound := (readsAs_of_fin hy).key0_bounds
      cases n <;> simp <;> omega
  | fin x => cases hy : ofFp32 b with
    | nan c => simp [isNan_of_nan hy] at hb
    | inf k =>
      obtain rfl := eq_fpInf_of_inf hy
      rw [fpKey0_fpInf]
      have hbound := (readsAs_of_fin hx).key0_bounds
      cases k <;> simp <;> omega
    | fin y => simp only [(readsAs_of_fin hx).lt_iff (readsAs_of_fin hy)]

theorem fpKey_lt_of_fpKey0_lt {a b : Word} (h : fpKey0 a < fpKey0 b) : fpKey a < fpKey b := by
  rw [fpKey_eq, fpKey_eq]
  rw [fpKey0_eq, fpKey0_eq] at *
  split_ifs at * <;> omega

/-- Words of one key are the same, or both are zeros. -/
theorem eq_or_zeros_of_fpKey0_eq {a b : Word} (h : fpKey0 a = fpKey0 b) : a = b ∨ a = fpZero a.msb ∧ b = fpZero b.msb := by
  rw [eq_fpZero_iff, eq_fpZero_iff]
  rw [fpKey0_eq, fpKey0_eq] at h
  by_cases hs : a.msb = b.msb
  · refine .inl (eq_of_msb_of_mag hs ?_)
    split_ifs at h <;> omega
  · right
    split_ifs at h with hna hnb hnb
    · exact absurd (hna.trans hnb.symm) hs
    · omega
    · omega
    · exact absurd ((Bool.eq_false_of_not_eq_true hna).trans (Bool.eq_false_of_not_eq_true hnb).symm) hs

/-- The lesser or greater of two numbers is the model's (R135). -/
theorem pickNum_eq_fpPick (g : Bool) {a b : Word} (ha : isNan a = false) (hb : isNan b = false) : pickNum g a b = fpPick g a b := by
  unfold pickNum fpPick
  rw [fpLess_eq ha hb, fpLess_eq hb ha]
  obtain hlt | heq | hgt := lt_trichotomy (fpKey0 a) (fpKey0 b)
  · have hkey := fpKey_lt_of_fpKey0_lt hlt
    cases g <;> simp [hlt, hkey.le, hkey.not_ge]
  · simp only [heq, lt_irrefl, decide_false, Bool.false_eq_true, if_false]
    obtain rfl | ⟨hza, hzb⟩ := eq_or_zeros_of_fpKey0_eq heq
    · cases g <;> simp
    · rw [hza, hzb]
      cases g <;> cases a.msb <;> cases b.msb <;> rfl
  · have hkey := fpKey_lt_of_fpKey0_lt hgt
    cases g <;> simp [hgt, hgt.not_gt, hkey.le, hkey.not_ge]

end Sys2Proof.Machine
end

section
/-! O21. Minimum, maximum, comparisons, signs, rint and frac (R133, R135 to R137): the model's results in the statement's words. -/
namespace Sys2Proof.Machine

theorem fpFlags_nv : ∀ c, fpFlags c false false false false = if c then 1 else 0 := by decide

/-- The NaN that an operation on one or two inputs gives where one is a NaN (R133). -/
theorem arith_of_isNan {a : Word} (h : isNan a = true) (rm : Rnd) (sat : Bool) (x : Option XVal) :
    arith [a] rm sat x = ⟨quiet a, 0, if isSnan a then 1 else 0⟩ := by
  simp only [arith, List.find?_cons, h, fpFlags_nv, fpOut, List.any_cons, List.any_nil, Bool.or_false]

theorem arith_of_isNan_or {a b : Word} (h : (isNan a || isNan b) = true) (rm : Rnd) (sat : Bool) (x : Option XVal) :
    arith [a, b] rm sat x = ⟨quiet (if isNan a then a else b), 0, if isSnan a || isSnan b then 1 else 0⟩ := by
  cases ha : isNan a with
  | true => simp only [arith, List.find?_cons, ha, fpFlags_nv, fpOut, List.any_cons, List.any_nil, Bool.or_false, if_true]
  | false =>
    rw [ha, Bool.false_or] at h
    simp [arith, ha, h, fpFlags_nv, fpOut]

/-- Where no input is a NaN, the result is the value's (R132). -/
theorem arith_of_not_isNan {ins : List Word} (h : ∀ w ∈ ins, isNan w = false) (rm : Rnd) (sat : Bool) (x : Option XVal) :
    arith ins rm sat x = arith [] rm sat x := by
  have hfind : ins.find? isNan = none := List.find?_eq_none.2 fun w hw => by simp [h w hw]
  simp only [arith, hfind, List.find?_nil]

/-- An infinity stands for itself. -/
theorem arith_of_inf {a : Word} {n : Bool} (h : ofFp32 a = .inf n) (rm : Rnd) (sat : Bool) : arith [a] rm sat (some (.inf n)) = ⟨a, 0, 0⟩ := by
  obtain rfl := eq_fpInf_of_inf h
  exact arith_of_not_isNan (by simp) ..

theorem minMax_of_isNan (g : Bool) {a b : Word} (h : (isNan a || isNan b) = true) :
    minMax g a b = ⟨quiet (if isNan a then a else b), 0, if isSnan a || isSnan b then 1 else 0⟩ := arith_of_isNan_or h ..

theorem minMax_of_not_isNan (g : Bool) {a b : Word} (ha : isNan a = false) (hb : isNan b = false) : minMax g a b = ⟨fpPick g a b, 0, 0⟩ := by
  rw [minMax, arith_of_not_isNan (by simp [ha, hb]), pickNum_eq_fpPick g ha hb]
  rfl

/-- A comparison of numbers that tells what the keys tell (R136). -/
theorem fpCompare_eq (any : Bool) {p : Int → Int → Bool} {q : Word → Word → Bool} {a b : Word}
    (h : isNan a = false → isNan b = false → p (fpKey0 a) (fpKey0 b) = q a b) :
    fpCompare any p a b = ⟨if !(isNan a || isNan b) && q a b then 1 else 0, 0,
      if (if any then isNan a || isNan b else isSnan a || isSnan b) then 1 else 0⟩ := by
  simp only [fpCompare, fpFlags_nv, fpOut]
  cases ha : isNan a with
  | true => rfl
  | false => cases hb : isNan b with
    | true => rfl
    | false => rw [h ha hb]

/-- Bit 31 of one word over the other bits of another (R134). -/
theorem copySign_eq (a b : Word) : a &&& 0x7FFFFFFF#32 ||| b &&& 0x80000000#32 = BitVec.ofBool b.msb ++ a.setWidth 31 := by
  refine BitVec.eq_of_getLsbD_eq fun k hk => ?_
  rw [BitVec.getLsbD_append (x := BitVec.ofBool b.msb) (y := a.setWidth 31)]
  by_cases h31 : k = 31
  · subst h31
    simp [← getLsbD_31]
  · have hlt : k < 31 := by omega
    have hbit : (0x7FFFFFFF#32).getLsbD k = true ∧ (0x80000000#32).getLsbD k = false := by
      decide +revert
    simp [hlt, hbit]

/-! rint and frac. -/

theorem Exact.isZero_iff (x : Exact) : x.isZero = true ↔ x.num = 0 := beq_iff_eq

@[simp] theorem rneFp32_zero (n : Bool) (den : Nat) : rneFp32 ⟨n, 0, den⟩ = fpZero n := rfl

theorem roundQuot_zero (rm : Rnd) (den : Nat) : roundQuot rm 0 den = 0 := by
  cases rm with
  | rtz => simp [roundQuot]
  | rne => simp only [roundQuot, Nat.zero_div, Nat.zero_mod]; split_ifs <;> omega

theorem rintOut_of_nan {rm : Rnd} {a c : Word} (h : ofFp32 a = .nan c) : rintOut rm a = ⟨quiet a, 0, if isSnan a then 1 else 0⟩ := by
  unfold rintOut
  rw [h]
  exact arith_of_isNan (isNan_of_nan h) ..

theorem rintOut_of_inf {rm : Rnd} {a : Word} {n : Bool} (h : ofFp32 a = .inf n) : rintOut rm a = ⟨a, 0, 0⟩ := by
  unfold rintOut
  rw [h]
  exact arith_of_inf h ..

theorem rintOut_of_fin {rm : Rnd} {a : Word} {x : Exact} (h : ofFp32 a = .fin x) :
    rintOut rm a = ⟨rneFp32 ⟨x.neg, roundQuot rm x.num x.den, 1⟩, 0, 0⟩ := by
  have hx := readsAs_of_fin h
  unfold rintOut
  rw [h]
  dsimp only [fpOut]
  split
  next hzero =>
    have hnum := x.isZero_iff.1 hzero
    rw [hnum, roundQuot_zero, rneFp32_zero, hx.neg, ← hx.num_eq_zero_iff.1 hnum]
  next =>
    split
    next hn => rw [hn, rneFp32_zero]
    next => rfl

theorem fracOut_of_nan {a c : Word} (h : ofFp32 a = .nan c) : fracOut a = ⟨quiet a, 0, if isSnan a then 1 else 0⟩ := by
  unfold fracOut
  rw [h]
  exact arith_of_isNan (isNan_of_nan h) ..

theorem fracOut_of_inf {a : Word} {n : Bool} (h : ofFp32 a = .inf n) : fracOut a = ⟨defaultNan, 0, 1⟩ := by
  unfold fracOut
  rw [h]
  obtain rfl := eq_fpInf_of_inf h
  exact arith_of_not_isNan (by simp) ..

theorem fracOut_of_fin {a : Word} {x : Exact} (h : ofFp32 a = .fin x) :
    fracOut a = ⟨rneFp32 ⟨x.neg, x.num % x.den, x.den⟩, 0, 0⟩ := by
  unfold fracOut
  rw [h]
  rfl

/-- Settles O21: the keys order numbers as the statement does (`fpLess_eq`). -/
theorem floatSelection : Obligations.FloatSelection := by
  unfold Obligations.FloatSelection
  intro s gd src m t h he u a b rm snan nv quiet2 starts pick pickn cmp
  have picks (g : Bool) (l : Nat) : minMax g (a l) (b l) = pick g l := by
    dsimp only [pick]
    split
    next hn => exact minMax_of_isNan g hn
    next hn =>
      obtain ⟨hna, hnb⟩ := Bool.or_eq_false_iff.1 (Bool.eq_false_of_not_eq_true hn)
      exact minMax_of_not_isNan g hna hnb
  have picksNum (g : Bool) (l : Nat) : minMaxNum g (a l) (b l) = pickn g l := by
    dsimp only [pickn]
    unfold minMaxNum
    rw [fpFlags_nv, fpFlags_nv]
    cases hna : isNan (a l) <;> cases hnb : isNan (b l)
    · exact minMax_of_not_isNan g hna hnb
    · rfl
    · rfl
    · exact minMax_of_isNan g (by rw [hna, hnb]; rfl)
  have quiets (x : Word) : (⟨quiet x, 0, if isSnan x then 1 else 0⟩ : LaneOut) = quiet2 x x := by
    dsimp only [quiet2]
    rw [ite_self, Bool.or_self]
    rfl
  refine ⟨h.exec_fa2 he rfl (picks false), h.exec_fa2 he rfl (picks true), h.exec_fa2 he rfl (picksNum false), h.exec_fa2 he rfl (picksNum true),
    h.exec_fa2 he rfl fun l => fpCompare_eq (q := fun x y => !fpLess x y && !fpLess y x) false fun hna hnb => ?_,
    h.exec_fa2 he rfl fun l => fpCompare_eq true fun hna hnb => (fpLess_eq hna hnb).symm,
    h.exec_fa2 he rfl fun l => fpCompare_eq (q := fun x y => !fpLess y x) true fun hna hnb => ?_,
    h.exec_fa2 he rfl fun l => congrArg _ (fpFlags_nv _), h.exec_fa1 he rfl fun l => rfl, h.exec_fa1 he rfl fun l => rfl,
    h.exec_fa2 he rfl fun l => congrArg (LaneOut.mk · 0 0) (copySign_eq ..), h.exec_fa1 he rfl fun l => ?_, h.exec_fa1 he rfl fun l => ?_⟩
  · rw [fpLess_eq hna hnb, fpLess_eq hnb hna, Bool.eq_iff_iff]
    simp only [beq_iff_eq, Bool.and_eq_true, Bool.not_eq_true', decide_eq_false_iff_not, not_lt]
    omega
  · rw [fpLess_eq hnb hna, Bool.eq_iff_iff]
    simp only [decide_eq_true_eq, Bool.not_eq_true', decide_eq_false_iff_not, not_lt]
  · dsimp only [b]
    cases hx : ofFp32 (m.tw l) with
    | nan c => exact (rintOut_of_nan hx).trans (quiets _)
    | inf n => exact rintOut_of_inf hx
    | fin x => exact rintOut_of_fin hx
  · dsimp only [b]
    cases hx : ofFp32 (m.tw l) with
    | nan c => exact (fracOut_of_nan hx).trans (quiets _)
    | inf n => exact fracOut_of_inf hx
    | fin x => exact fracOut_of_fin hx

end Sys2Proof.Machine
end

section
/-! SUPPORT. Exact results of the special functions: powers of two, integers and half-integers (R138, R139). -/
namespace Sys2Proof.Machine

/-! Powers of two. -/

theorem floorLog2_of_quot {num den : Nat} {e : Int} (hn : 0 < num) (hd : 0 < den) (h : (num : ℚ) / den = 2 ^ e) : floorLog2 num den = e := by
  obtain ⟨hlo, hhi⟩ := floorLog2_bounds hn hd
  rw [h] at hlo hhi
  have := (zpow_le_zpow_iff_right₀ one_lt_two).1 hlo
  have := (zpow_lt_zpow_iff_right₀ one_lt_two).1 hhi
  omega

theorem roundQuot_mul_self (rnd : Rnd) (n : Nat) {den : Nat} (hd : 0 < den) : roundQuot rnd (n * den) den = n := by
  cases rnd <;> simp [roundQuot, hd]

/-- A normal power of two converts to its own code, exactly (R81, R86). -/
theorem roundMag_two_pow (rnd : Rnd) {num den : Nat} {e : Int} (hn : 0 < num) (hd : 0 < den) (h : (num : ℚ) / den = 2 ^ e) (he : -126 ≤ e) :
    roundMag .fp32 rnd num den = ((e + 127).toNat * 2 ^ 23, false) := by
  have hquot := Exact.scale_quot ⟨false, num, den⟩ (23 - e)
  have hpos := Exact.scale_den_pos (x := ⟨false, num, den⟩) hd (23 - e)
  have hnum : ((⟨false, num, den⟩ : Exact).scale (23 - e)).num = 2 ^ 23 * ((⟨false, num, den⟩ : Exact).scale (23 - e)).den := by
    rw [h, ← zpow_add₀ two_ne_zero, add_sub_cancel, div_eq_iff (by exact_mod_cast hpos.ne')] at hquot
    exact_mod_cast hquot
  unfold roundMag
  simp only [floorLog2_of_quot hn hd h, Fmt.emin, Fmt.frac, max_eq_left he, Nat.cast_ofNat, hnum, roundQuot_mul_self rnd _ hpos]
  refine Prod.ext ?_ (by simp)
  show (e - -126).toNat * 2 ^ 23 + 2 ^ 23 = _
  omega

theorem cvtDn_two_pow {x : Exact} {e : Int} (hn : 0 < x.num) (hd : 0 < x.den) (h : (x.num : ℚ) / x.den = 2 ^ e) (hlo : -126 ≤ e) (hhi : e ≤ 127)
    (rnd : Rnd) (sat : Bool) : cvtDn (.fin x) .fp32 rnd sat = ⟨signBit x.neg 32 + (e + 127).toNat * 2 ^ 23, false, false⟩ := by
  have hfin : cvtDn (.fin x) .fp32 rnd sat = cvtDnFinite x .fp32 rnd sat := by simp [cvtDn, Fmt.isInt, Exact.isZero, hn.ne']
  rw [hfin, cvtDnFinite, roundMag_two_pow rnd hn hd h hlo]
  exact if_pos (show (e + 127).toNat * 2 ^ 23 ≤ 0x7F7FFFFF by omega)

theorem xfRound_two_pow {x : Exact} {e : Int} (hneg : x.neg = false) (hn : 0 < x.num) (hd : 0 < x.den) (h : (x.num : ℚ) / x.den = 2 ^ e)
    (hlo : -126 ≤ e) (hhi : e ≤ 127) : xfRound x = xfExact (BitVec.ofNat 32 ((e + 127).toNat * 2 ^ 23)) := by
  unfold xfRound arithFin
  rw [cvtDn_two_pow hn hd h hlo hhi, hneg]
  simp only [signBit, Bool.false_eq_true, if_false, Nat.zero_add, Bool.false_or, Bool.false_and]
  rfl

theorem Exact.scale_num_pos {x : Exact} (hx : 0 < x.num) (e : Int) : 0 < (x.scale e).num := by
  unfold Exact.scale
  split
  · exact Nat.mul_pos hx (Nat.two_pow_pos _)
  · exact hx

theorem xfRound_scale_one {e : Int} (hlo : -126 ≤ e) (hhi : e ≤ 127) :
    xfRound ((⟨false, 1, 1⟩ : Exact).scale e) = xfExact (BitVec.ofNat 32 ((e + 127).toNat * 2 ^ 23)) :=
  xfRound_two_pow (Exact.scale_neg ..) (Exact.scale_num_pos Nat.one_pos _) (Exact.scale_den_pos Nat.one_pos _)
    (by rw [Exact.scale_quot]; simp) hlo hhi

/-- Two to an integer of magnitude at most 126 (R139). -/
theorem exp2Out_of_integer {x : Exact} {k : Nat} (hd : 0 < x.den) (hk : k ≤ 126) (h : x.num = k * x.den) :
    exp2Out x = xfExact (BitVec.ofNat 32 ((if x.neg then 127 - k else 127 + k) * 2 ^ 23)) := by
  have hquot : x.num / x.den = k := by rw [h, Nat.mul_div_cancel _ hd]
  have hrem : x.num % x.den = 0 := by rw [h, Nat.mul_mod_left]
  simp only [exp2Out, hquot, hrem, ite_self, if_true, min_eq_left (show k ≤ 200 by omega)]
  rw [xfRound_scale_one (by split <;> omega) (by split <;> omega)]
  congr 3
  split <;> omega

theorem exp2Out_of_isZero {x : Exact} (hd : 0 < x.den) (h : x.isZero = true) : exp2Out x = xfExact (fpOne false) := by
  rw [exp2Out_of_integer (k := 0) hd (by omega) (by rw [x.isZero_iff.1 h, zero_mul])]
  cases x.neg <;> rfl

/-! Zeroes, integers and half-integers. -/

theorem log2Out_one : log2Out ⟨false, 2 ^ 23, 2 ^ 23⟩ = xfExact 0 := by decide

theorem log2Out_of_isZero {x : Exact} (h : x.isZero = true) : log2Out x = xfPole true := if_pos h
theorem log2Out_of_negative {x : Exact} (hn : x.neg = true) (hz : x.isZero = false) : log2Out x = xfInvalid := by simp only [log2Out, hz, hn]; rfl
theorem tanhOut_of_isZero {x : Exact} (h : x.isZero = true) : tanhOut x = xfExact (fpZero x.neg) := if_pos h
theorem sigmOut_of_isZero {x : Exact} (h : x.isZero = true) : sigmOut x = xfExact 0x3F000000#32 := if_pos h

theorem sinpiOut_of_integer {x : Exact} (h : x.num % x.den = 0) : sinpiOut x = xfExact (fpZero x.neg) := if_pos h

theorem cospiOut_of_half_integer {x : Exact} (h : 2 * x.num % x.den = 0) (hodd : 2 * x.num / x.den % 2 = 1) : cospiOut x = xfExact (fpZero false) := by
  have hdvd : (2 * x.num + x.den) % (2 * x.den) = 0 := by
    have hnum : 2 * x.num = x.den * (2 * x.num / x.den) := (Nat.mul_div_cancel' (Nat.dvd_of_mod_eq_zero h)).symm
    obtain ⟨j, hj⟩ : ∃ j, 2 * x.num / x.den = 2 * j + 1 := ⟨2 * x.num / x.den / 2, by omega⟩
    rw [hnum, hj]
    exact Nat.mod_eq_zero_of_dvd ⟨j + 1, by ring⟩
  exact if_pos hdvd

end Sys2Proof.Machine
end

section
/-! O23. Special functions (R129, R133, R138, R139): the form of every operation on one input, the special cases, and division. -/
namespace Sys2Proof.Machine

/-! Codes of the special values. -/

theorem fpInf_eq (n : Bool) : fpInf n = if n then 0xFF800000#32 else 0x7F800000#32 := by cases n <;> rfl
theorem fpZero_eq (n : Bool) : fpZero n = if n then 0x80000000#32 else 0#32 := by cases n <;> rfl
@[simp] theorem fpInf_ne_fpZero (n k : Bool) : fpInf n ≠ fpZero k := by cases n <;> cases k <;> decide
@[simp] theorem fpInf_ne_fpOne (n k : Bool) : fpInf n ≠ fpOne k := by cases n <;> cases k <;> decide
@[simp] theorem fpInf_inj {n k : Bool} : fpInf n = fpInf k ↔ n = k := ⟨fun h => by simpa using congrArg BitVec.msb h, congrArg _⟩

theorem ReadsAs.ne_fpInf {a : Word} {x : Exact} (h : ReadsAs a x) (n : Bool) : a ≠ fpInf n := by
  rintro rfl
  have := h.finite
  cases n <;> contradiction

theorem ReadsAs.isZero_iff {a : Word} {x : Exact} (h : ReadsAs a x) : x.isZero = true ↔ a = fpZero a.msb :=
  x.isZero_iff.trans h.num_eq_zero_iff

/-- A finite value below zero: with a sign, but no −0. -/
theorem ReadsAs.negative_iff {a : Word} {x : Exact} (h : ReadsAs a x) : a.msb = true ∧ a ≠ 0x80000000#32 ↔ x.neg = true ∧ x.isZero = false := by
  rw [h.neg, ← Bool.not_eq_true, h.isZero_iff]
  exact and_congr_right fun hs => by rw [hs]; rfl

theorem negative_fpInf_iff (n : Bool) : (fpInf n).msb = true ∧ fpInf n ≠ 0x80000000#32 ↔ n = true := by cases n <;> decide

/-- The result of an operation on one input, a NaN apart told by what the function gives an infinity and a finite value. -/
def xfOut (ofInf : Bool → LaneOut) (ofFin : Exact → LaneOut) (a : Word) : LaneOut :=
  match ofFp32 a with
  | .nan _ => arith [a] .rne false none
  | .inf n => ofInf n
  | .fin x => ofFin x

theorem xf1_eq (lat : Nat) (gd : Guard) (src : Src) (ofInf : Bool → LaneOut) (ofFin : Exact → LaneOut) :
    xf1 lat gd src ofInf ofFin = laneOp .xf lat gd src (in1 (xfOut ofInf ofFin)) := rfl

/-- An instruction of xf is ready after `lat` cycles, gives a NaN the result of R133, and its other results meet a claim. -/
def XfMeets (s : State) (m : MoveIn) (i : Instr) (lat : Nat) (claim : Word → LaneOut → Prop) : Prop :=
  ∃ f : Nat → LaneOut, exec i s = .next (s.start m.w .xf [.res, .st] m.en lat f) ∧
    ∀ l, (isNan (m.tw l) = true → f l = arithmetic [m.tw l] .rne none) ∧ (isNan (m.tw l) = false → claim (m.tw l) (f l))

/-- An operation of xf on one input meets a claim that what the function gives infinities and finite values meets. -/
theorem State.Issues.exec_xf1 {s : State} {gd : Guard} {src : Src} {m : MoveIn} {i : Instr} (h : s.Issues gd src m) (he : m.en ≠ 0) {lat : Nat}
    {ofInf : Bool → LaneOut} {ofFin : Exact → LaneOut} (hi : exec i s = asStep (xf1 lat gd src ofInf ofFin s) s) {claim : Word → LaneOut → Prop}
    (hinf : ∀ n, claim (fpInf n) (ofInf n)) (hfin : ∀ a x, ofFp32 a = .fin x → ReadsAs a x → claim a (ofFin x)) :
    XfMeets s m i lat claim := by
  refine ⟨_, h.exec_laneOp he (xf1_eq .. ▸ hi) fun l => rfl, fun l => ⟨fun hnan => ?_, fun hnum => ?_⟩⟩
  · simp only [in1, xfOut, ofFp32_of_isNan hnan, arithmetic_eq_arith]
  · simp only [in1, xfOut]
    cases hx : ofFp32 (m.tw l) with
    | nan c => simp [isNan_of_nan hx] at hnum
    | inf n =>
      rw [eq_fpInf_of_inf hx]
      exact hinf n
    | fin x => exact hfin _ x hx (readsAs_of_fin hx)

/-! Division. -/

theorem divOut_of_isNan {a b : Word} (h : (isNan a || isNan b) = true) : divOut a b = arithmetic [a, b] .rne none := by
  rw [arithmetic_eq_arith]
  exact if_pos h

section
variable {a b : Word} {n k : Bool} {x y : Exact}

theorem divOut_inf_inf (ha : ofFp32 a = .inf n) (hb : ofFp32 b = .inf k) : divOut a b = xfInvalid := by
  rw [eq_fpInf_of_inf ha, eq_fpInf_of_inf hb]
  cases n <;> cases k <;> rfl

theorem divOut_inf_fin (ha : ofFp32 a = .inf n) (hb : ofFp32 b = .fin y) : divOut a b = xfExact (fpInf (a.msb != b.msb)) := by
  have hy := readsAs_of_fin hb
  obtain rfl := eq_fpInf_of_inf ha
  rw [fpInf_msb, ← hy.neg]
  simp only [divOut, isNan_fpInf, hy.isNan, hb, ofFp32_fpInf]
  rfl

theorem divOut_fin_inf (ha : ofFp32 a = .fin x) (hb : ofFp32 b = .inf k) : divOut a b = xfExact (fpZero (a.msb != b.msb)) := by
  have hx := readsAs_of_fin ha
  obtain rfl := eq_fpInf_of_inf hb
  rw [fpInf_msb, ← hx.neg]
  simp only [divOut, isNan_fpInf, hx.isNan, ha, ofFp32_fpInf]
  rfl

theorem divOut_fin_fin (ha : ofFp32 a = .fin x) (hb : ofFp32 b = .fin y) :
    divOut a b = if y.num = 0 then (if x.num = 0 then xfInvalid else xfPole (a.msb != b.msb))
      else if x.num = 0 then xfExact (fpZero (a.msb != b.msb))
      else arithmetic [] .rne (some (.fin ⟨a.msb != b.msb, x.num * y.den, x.den * y.num⟩)) := by
  have hx := readsAs_of_fin ha
  have hy := readsAs_of_fin hb
  rw [arithmetic_eq_arith, ← hx.neg, ← hy.neg]
  simp only [divOut, hx.isNan, hy.isNan, ha, hb, Exact.isZero_iff]
  rfl

end

/-- Settles O23: the special cases are told by the value's sign and by its being zero (`ReadsAs.isZero_iff`, `ReadsAs.negative_iff`), and exact
powers of two round to themselves (`exp2Out_of_integer`). -/
theorem specialFunctions : Obligations.SpecialFunctions := by
  unfold Obligations.SpecialFunctions
  intro s gd src m h he nan ok inf zero one pole func negative
  have hinf : inf = fpInf := funext fun n => (fpInf_eq n).symm
  have hzero : zero = fpZero := funext fun n => (fpZero_eq n).symm
  have hpole : pole = xfPole := funext fun n => congrArg (LaneOut.mk · 0 2) (fpInf_eq n).symm
  have hone : one = fpOne := rfl
  have hnan : nan = xfInvalid := rfl
  have hok : ok = xfExact := rfl
  have hfunc : func = XfMeets s m := rfl
  rw [hfunc, hinf, hzero, hpole, hone, hnan, hok]
  refine ⟨?rcp, ?rsqrt, ?sqrt, ?exp2, ?log2, ?sinpi, ?cospi, ?tanh, ?sigm, h.exec_laneOp he rfl fun l => ?div⟩
  case rcp =>
    refine h.exec_xf1 he rfl (fun n => by simp) fun a x hx hr => ⟨fun hz => ?_, fun hi => absurd hi (hr.ne_fpInf _), fun y hy hn => ?_⟩
    · rw [if_pos (hr.isZero_iff.2 hz), hr.neg]
    · obtain rfl := XVal.fin.inj (hx.symm.trans hy)
      rw [if_neg (x.isZero_iff.not.2 hn), arithmetic_eq_arith]
      rfl
  case rsqrt =>
    refine h.exec_xf1 he rfl (fun n => ?_) fun a x hx hr => ⟨fun hz => ?_, fun hi => absurd hi (hr.ne_fpInf _), fun hneg => ?_⟩
    · cases n <;> simp [negative, negative_fpInf_iff]
      rfl
    · rw [if_pos (hr.isZero_iff.2 hz), hr.neg]
    · obtain ⟨hs, hz⟩ := hr.negative_iff.1 hneg
      rw [hz, hs]
      rfl
  case sqrt =>
    refine h.exec_xf1 he rfl (fun n => ?_) fun a x hx hr => ⟨fun hz => ?_, fun hi => absurd hi (hr.ne_fpInf _), fun hneg => ?_⟩
    · cases n <;> simp [negative, negative_fpInf_iff]
    · rw [if_pos (hr.isZero_iff.2 hz), hr.neg, ← hz]
    · obtain ⟨hs, hz⟩ := hr.negative_iff.1 hneg
      rw [hz, hs]
      rfl
  case exp2 =>
    refine h.exec_xf1 he rfl (fun n => ?_) fun a x hx hr => ⟨fun hi => absurd hi (hr.ne_fpInf _), fun hz => ?_, fun y k hk hy hn => ?_⟩
    · cases n <;> simp
      rfl
    · exact exp2Out_of_isZero hr.den_pos (hr.isZero_iff.2 hz)
    · obtain rfl := XVal.fin.inj (hx.symm.trans hy)
      exact exp2Out_of_integer hr.den_pos hk hn
  case log2 =>
    refine h.exec_xf1 he rfl (fun n => ?_) fun a x hx hr =>
      ⟨fun hz => log2Out_of_isZero (hr.isZero_iff.2 hz), fun hone => ?_, fun hi => absurd hi (hr.ne_fpInf _), fun hneg => ?_⟩
    · cases n <;> simp [negative, negative_fpInf_iff]
    · subst hone
      obtain rfl := XVal.fin.inj hx
      exact log2Out_one
    · obtain ⟨hs, hz⟩ := hr.negative_iff.1 hneg
      exact log2Out_of_negative hs hz
  case sinpi =>
    refine h.exec_xf1 he rfl (fun n => by simp) fun a x hx hr => ⟨fun hi => absurd hi (hr.ne_fpInf _), fun y hy hn => ?_⟩
    obtain rfl := XVal.fin.inj (hx.symm.trans hy)
    rw [sinpiOut_of_integer hn, hr.neg]
  case cospi =>
    refine h.exec_xf1 he rfl (fun n => by simp) fun a x hx hr => ⟨fun hi => absurd hi (hr.ne_fpInf _), fun y hy hn hodd => ?_⟩
    obtain rfl := XVal.fin.inj (hx.symm.trans hy)
    exact cospiOut_of_half_integer hn hodd
  case tanh =>
    refine h.exec_xf1 he rfl (fun n => by simp) fun a x hx hr => ⟨fun hz => ?_, fun hi => absurd hi (hr.ne_fpInf _)⟩
    rw [tanhOut_of_isZero (hr.isZero_iff.2 hz), hr.neg, ← hz]
  case sigm =>
    refine h.exec_xf1 he rfl (fun n => ?_) fun a x hx hr => ⟨fun hz => sigmOut_of_isZero (hr.isZero_iff.2 hz), fun hi => absurd hi (hr.ne_fpInf _)⟩
    cases n <;> simp
    rfl
  case div =>
    dsimp only [in2]
    split_ifs with hnan
    · exact divOut_of_isNan hnan
    obtain ⟨hna, hnb⟩ := Bool.or_eq_false_iff.1 (Bool.eq_false_of_not_eq_true hnan)
    obtain ⟨-, ha⟩ | ⟨x, ha, -⟩ := ofFp32_cases_of_not_isNan hna <;> obtain ⟨-, hb⟩ | ⟨y, hb, -⟩ := ofFp32_cases_of_not_isNan hnb <;>
      simp only [ha, hb]
    · exact divOut_inf_inf ha hb
    · exact divOut_inf_fin ha hb
    · exact divOut_fin_inf ha hb
    · exact divOut_fin_fin ha hb

end Sys2Proof.Machine
end

section
/-! SUPPORT. The conversions of cv and cx in the statements' words (R141 to R147). -/
namespace Sys2Proof.Machine

namespace State.Issues
variable {s : State} {gd : Guard} {src : Src} {m : MoveIn} {i : Instr} {g : Nat → LaneOut} (h : s.Issues gd src m) (he : m.en ≠ 0)
include h he

/-- A cv operation reads the slot that OP names of the wave's launch (R140). -/
theorem exec_cvOp {n : Fin 8} {f : FmtSlot → MoveIn → Nat → LaneOut} (hi : exec i s = asStep (Machine.cvOp gd n src f s) s)
    (hf : ∀ l, f (s.slotOf m.x n.val) m l = g l) : exec i s = .next (s.start m.w .cv [.res, .hi, .st] m.en 4 g) := by
  rw [hi, h.cvOp he, asStep_ok, funext hf]
  rfl

/-- A cx operation that keeps hi. -/
theorem exec_cxKeep {f : MoveIn → Nat → LaneOut} (hi : exec i s = asStep (Machine.cxKeep gd src f s) s)
    (hf : ∀ l, { f m l with hi := m.x.ctx.port .cx .hi l } = g l) : exec i s = .next (s.start m.w .cx [.res, .hi, .st] m.en 4 g) := by
  rw [hi, h.cxKeep he, asStep_ok, funext hf]
  rfl

end State.Issues

theorem cvtFlags_eq (inx ovf : Bool) : cvtFlags inx ovf = statusWord false false ovf false inx := (statusWord_eq_fpFlags ..).symm

/-! Halves of a word. -/

/-- Two halves joined, as a sum and as bits. -/
theorem ofNat_halves (p q : BitVec 16) : BitVec.ofNat 32 (p.toNat + 2 ^ 16 * q.toNat) = q.setWidth 32 <<< 16 ||| p.setWidth 32 := by
  have hp := p.isLt
  have hq := q.isLt
  apply BitVec.eq_of_toNat_eq
  rw [BitVec.toNat_or, BitVec.toNat_shiftLeft, BitVec.toNat_ofNat, BitVec.toNat_setWidth, BitVec.toNat_setWidth,
    Nat.mod_eq_of_lt (show q.toNat < 2 ^ 32 by omega), Nat.mod_eq_of_lt (show p.toNat < 2 ^ 32 by omega),
    Nat.mod_eq_of_lt (show q.toNat <<< 16 < 2 ^ 32 by rw [Nat.shiftLeft_eq]; omega), ← Nat.shiftLeft_add_eq_or_of_lt hp, Nat.shiftLeft_eq]
  omega

theorem cvtUp_bf16_low (b : Word) : cvtUp (b.toNat % 65536) .bf16 = b <<< 16 := by
  apply BitVec.eq_of_toNat_eq
  simp only [cvtUp, BitVec.toNat_ofNat, BitVec.toNat_shiftLeft, Nat.shiftLeft_eq]
  omega

theorem cvtUp_bf16_high (b : Word) : cvtUp (b.toNat / 65536) .bf16 = b &&& 0xFFFF0000#32 := by
  have hmask : b &&& 0xFFFF0000#32 = b >>> 16 <<< 16 := by
    refine BitVec.eq_of_getLsbD_eq fun k hk => ?_
    have hbit : (0xFFFF0000#32).getLsbD k = !decide (k < 16) := by decide +revert
    rw [BitVec.getLsbD_and, hbit, BitVec.getLsbD_shiftLeft, BitVec.getLsbD_ushiftRight]
    by_cases hlow : k < 16
    · simp [hlow]
    · simp [hlow, hk, show 16 + (k - 16) = k by omega]
  rw [hmask]
  apply BitVec.eq_of_toNat_eq
  simp only [cvtUp, BitVec.toNat_ofNat, BitVec.toNat_shiftLeft, BitVec.toNat_ushiftRight, Nat.shiftLeft_eq, Nat.shiftRight_eq_div_pow]
  omega

theorem signExtend_high (b : Word) : ((b >>> 16).setWidth 16).signExtend 32 = b.sshiftRight 16 := by
  ext k hk
  have hmsb : ((b >>> 16).setWidth 16).msb = b.msb := by simp [BitVec.msb_eq_getLsbD_last]
  rw [BitVec.getElem_signExtend, BitVec.getElem_sshiftRight, hmsb]
  by_cases hlow : k < 16
  · simp [hlow, show 16 + k < 32 by omega]
  · simp [hlow, show ¬16 + k < 32 by omega]

/-! Integers. -/

/-- A number clamped to a range. -/
theorem max_min_eq_clamp {lo up n : Int} (h : lo ≤ up) : max lo (min up n) = if n < lo then lo else if up < n then up else n := by
  split_ifs <;> omega

theorem clamp_ne_iff {lo up n : Int} (h : lo ≤ up) : max lo (min up n) ≠ n ↔ n < lo ∨ up < n := by omega

/-- A signed value clamped to 16 bits (R146). -/
def packHalf (w : Word) : BitVec 16 := if w.toInt < -32768 then 0x8000#16 else if 32767 < w.toInt then 0x7FFF#16 else w.setWidth 16

theorem packHalf_toNat (w : Word) : (packHalf w).toNat = (max (-(2 ^ 15)) (min (2 ^ 15 - 1) w.toInt) % 2 ^ 16).toNat := by
  have hw := w.isLt
  have hint := BitVec.toInt_eq_toNat_cond w
  have hclamp : max (-(2 ^ 15)) (min (2 ^ 15 - 1) w.toInt) = if w.toInt < -32768 then -32768 else if 32767 < w.toInt then 32767 else w.toInt :=
    max_min_eq_clamp (by omega)
  rw [hclamp]
  unfold packHalf
  split_ifs
  · rfl
  · rfl
  · rw [BitVec.toNat_setWidth]
    omega

theorem packOut_eq (a b : Word) :
    packOut a b = ⟨(packHalf b).setWidth 32 <<< 16 ||| (packHalf a).setWidth 32, 0,
      cvtFlags false (decide (a.toInt < -32768 ∨ 32767 < a.toInt) || decide (b.toInt < -32768 ∨ 32767 < b.toInt))⟩ := by
  unfold packOut
  simp only [← packHalf_toNat, ofNat_halves, fpOut, Bool.decide_or]
  simp only [clamp_ne_iff (show (-(2 ^ 15) : Int) ≤ 2 ^ 15 - 1 by omega)]
  simp

end Sys2Proof.Machine
end

section
/-! O24. The cv and cx operations (R129, R140 to R147): the model's results in the statement's words. -/
namespace Sys2Proof.Machine

/-! cv. -/

theorem cvDnOut_eq (sl : FmtSlot) (a b c : Word) :
    let e0 := cvtDn (ofFp32 a) sl.ofmt sl.rnd sl.sat
    let e1 := cvtDn (ofFp32 b) sl.ofmt sl.rnd sl.sat
    let w := sl.ofmt.width
    let bit (c : Bool) : Nat := if c then 1 else 0
    cvDnOut sl a b c =
      if w = 32 then ⟨BitVec.ofNat 32 e0.code, BitVec.ofNat 32 (bit e0.ovf), statusWord false false e0.ovf false e0.inx⟩
      else ⟨BitVec.ofNat 32 (c.toNat / 4 ^ w + e0.code * 2 ^ (32 - 2 * w) + e1.code * 2 ^ (32 - w)), BitVec.ofNat 32 (bit e0.ovf + bit e1.ovf),
        statusWord false false (e0.ovf || e1.ovf) false (e0.inx || e1.inx)⟩ := by
  simp only [cvDnOut, cvtFlags_eq, show (4 : Nat) = 2 ^ 2 from rfl, ← pow_mul]

/-- cv.dot of one width (R143). -/
theorem cvDotOut_of_width_eq {sl : FmtSlot} (hw : sl.afmt.width = sl.bfmt.width) (a b c hi : Word) :
    let ts := cvTerms sl.afmt sl.bfmt a b
    let d := dotSum sl.afmt sl.bfmt c ts
    cvDotOut sl a b c hi = if sl.accInt then ⟨dotInt sl.afmt sl.bfmt c ts, hi, 0⟩
      else ⟨d.code, hi, statusWord (d.invalid || isSnan c || ts.any fun t => isSnan (cvtUp t.a sl.afmt) || isSnan (cvtUp t.b sl.bfmt))
        false d.ovf d.unf d.inx⟩ := by
  simp only [cvDotOut, statusWord_eq_fpFlags, Bool.or_assoc]
  exact if_neg (not_not.2 hw)

/-- cv.dot of two widths has a free result in shadow lanes (log entry 120). -/
theorem cvDotOut_of_width_ne {sl : FmtSlot} (hw : sl.afmt.width ≠ sl.bfmt.width) (a b c hi : Word) :
    let p := Config.dotOfUnequal sl.afmt.width sl.bfmt.width a b c
    cvDotOut sl a b c hi = ⟨p.1, hi, p.2⟩ := if_pos hw

namespace State.Issues
variable {s : State} {gd : Guard} {src : Src} {m : MoveIn} {n : Fin 8} (h : s.Issues gd src m) (he : m.en ≠ 0)
include h he

/-- cv.dot starts where its elements have one width or only shadow lanes are enabled. -/
theorem exec_cvDot {g : Nat → LaneOut} (hw : ¬((s.slotOf m.x n.val).afmt.width ≠ (s.slotOf m.x n.val).bfmt.width ∧ m.real ≠ 0))
    (hf : ∀ l, cvDotOut (s.slotOf m.x n.val) (m.latchW .cv .o1 l) (m.latchW .cv .o2 l) (m.tw l) (m.x.ctx.port .cv .hi l) = g l) :
    exec (.cvDot gd n src) s = .next (s.start m.w .cv [.res, .hi, .st] m.en 4 g) := by
  show asStep (Machine.withMove gd src _ s) s = _
  rw [h.withMove he]
  simp only [if_neg hw]
  rw [asStep_ok, ← funext hf]
  rfl

/-- Otherwise it raises ARITH. -/
theorem exec_cvDot_trap (hw : (s.slotOf m.x n.val).afmt.width ≠ (s.slotOf m.x n.val).bfmt.width) (hr : m.real ≠ 0) :
    exec (.cvDot gd n src) s = s.traps m 0x0F m.real 0 := by
  show asStep (Machine.withMove gd src _ s) s = _
  rw [h.withMove he]
  simp only [if_pos (And.intro hw hr)]
  exact h.trap ..

end State.Issues

/-! cx. -/

section
variable (mode : Rnd) (signed : Bool) {a : Word}

theorem cxToInt_of_nan {c : Word} (h : ofFp32 a = .nan c) : cxToInt mode signed a = fpOut 0 (cvtFlags false true) := by
  unfold cxToInt
  rw [h]

theorem cxToInt_of_inf {n : Bool} (h : ofFp32 a = .inf n) :
    cxToInt mode signed a = fpOut (BitVec.ofInt 32 (if n then (if signed then -2147483648 else 0) else if signed then 2147483647 else 4294967295))
      (cvtFlags false true) := by
  unfold cxToInt
  rw [h]
  cases signed <;> rfl

/-- A finite value is rounded first and clamped then (R147). -/
theorem cxToInt_of_fin {x : Exact} (h : ofFp32 a = .fin x) :
    let lo : Int := if signed then -2147483648 else 0
    let up : Int := if signed then 2147483647 else 4294967295
    let q := roundQuot mode x.num x.den
    let n : Int := if x.neg then -(q : Int) else q
    cxToInt mode signed a =
      fpOut (BitVec.ofInt 32 (if n < lo then lo else if up < n then up else n)) (cvtFlags (decide (q * x.den ≠ x.num)) (decide (n < lo ∨ up < n))) := by
  intro lo up q n
  have hrange : lo ≤ up := by cases signed <;> decide
  rw [← max_min_eq_clamp hrange]
  unfold cxToInt
  rw [h]
  cases signed <;> rfl

end

/-- Settles O24: each operation starts with the model's conversion (`cvDnOut_eq`, `cvDotOut_of_width_eq`, `cxToInt_of_fin`, `packOut_eq`), and a dot
product of two widths raises ARITH where some enabled lane is no shadow (`State.Issues.exec_cvDot_trap`). -/
theorem conversions : Obligations.Conversions := by
  unfold Obligations.Conversions
  refine ⟨fun s gd n src m h he => ?cv, fun s gd src m h he => ?cx⟩
  case cv =>
    intro a b2 b hi sl starts k down w bit el
    refine ⟨h.exec_cvOp he rfl fun l => rfl, h.exec_cvOp he rfl fun l => cvDnOut_eq .., h.exec_cvOp he rfl fun l => ?_,
      fun hw => h.exec_cvDot he (not_and_of_not_left _ (not_not.2 hw)) fun l => cvDotOut_of_width_eq hw .., h.exec_cvDot_trap he,
      fun hw hr => h.exec_cvDot he (not_and_of_not_right _ (not_not.2 hr)) fun l => cvDotOut_of_width_ne hw ..⟩
    refine congrArg (fun r : LaneOut => (⟨r.res, hi l, r.st⟩ : LaneOut)) ?_
    refine ite_congr rfl (fun _ => (arithmetic_eq_arith ..).symm) fun hnan => ite_congr rfl (fun _ => rfl) fun _ => ?_
    dsimp only [a, b]
    cases ha : ofFp32 (m.latchW .cv .o1 l) with
    | nan c => exact absurd (isNan_of_nan ha) hnan
    | inf n => exact arith_of_inf ha ..
    | fin x => rfl
  case cx =>
    intro a b hi st starts pair toInt fromInt half clamped
    have hst (nx ovf : Bool) : st nx ovf = cvtFlags nx ovf := statusWord_eq_fpFlags ..
    have pairs (f : Fmt) (mode : Rnd) (l : Nat) : { cxPair f mode (a l) (b l) with hi := hi l } = pair f mode l := by
      dsimp only [pair]
      rw [hst]
      rfl
    have ints (mode : Rnd) (signed : Bool) (l : Nat) : { cxToInt mode signed (b l) with hi := hi l } =
        toInt mode (if signed then -2147483648 else 0) (if signed then 2147483647 else 4294967295) l := by
      dsimp only [toInt, b]
      simp only [hst]
      cases hb : ofFp32 (m.tw l) with
      | nan c => rw [cxToInt_of_nan mode signed hb]; rfl
      | inf n => rw [cxToInt_of_inf mode signed hb]; rfl
      | fin x => rw [cxToInt_of_fin mode signed hb]; rfl
    have froms (i : Int) (l : Nat) : { cxFromInt i with hi := hi l } = fromInt i l := by
      dsimp only [fromInt]
      rw [hst]
      rfl
    refine ⟨h.exec_cxKeep he rfl (pairs .bf16 .rne), h.exec_cxKeep he rfl (pairs .bf16 .rtz), h.exec_cxKeep he rfl (pairs .fp16 .rne),
      h.exec_cxKeep he rfl (pairs .fp16 .rtz), h.exec_laneOp he rfl fun l => ?_, h.exec_laneOp he rfl fun l => rfl,
      h.exec_cxKeep he rfl (ints .rne true), h.exec_cxKeep he rfl (ints .rtz true), h.exec_cxKeep he rfl (ints .rne false),
      h.exec_cxKeep he rfl (ints .rtz false), h.exec_cxKeep he rfl fun l => froms _ l, h.exec_cxKeep he rfl fun l => froms _ l,
      h.exec_cxKeep he rfl fun l => ?_, h.exec_laneOp he rfl fun l => ?_⟩
    · exact congrArg₂ (LaneOut.mk · · 0) (cvtUp_bf16_low _) (cvtUp_bf16_high _)
    · dsimp only [in2]
      rw [packOut_eq, hst]
      rfl
    · exact congrArg (LaneOut.mk _ · 0) (signExtend_high _)

end Sys2Proof.Machine
end

section
/-! O27. The checks of an ls trigger in their order, and the traps and waits that they end in (R152 to R154, R265, R375). -/
namespace Sys2Proof.Machine

/-! Masks of enabled lanes, and the lowest of them. -/

theorem lowestOf_eq (k : Mask) : lowestOf k = (lowest k).getD 0 := by
  unfold lowestOf lowest lanesOf
  rw [List.head?_filter]

theorem lanesWhere_real (m : MoveIn) (p : Nat → Bool) : lanesWhere m.real p = realWhere m p := by
  unfold lanesWhere realWhere maskWhere lanesOf
  rw [List.filter_filter]
  simp only [Bool.and_comm]

theorem realWhere_congr {m : MoveIn} {p q : Nat → Bool} (h : ∀ l ∈ lanesOf m.real, p l = q l) : realWhere m p = realWhere m q := by
  rw [← lanesWhere_real, ← lanesWhere_real, lanesWhere, lanesWhere, List.filter_congr h]

theorem getLsbD_realWhere (m : MoveIn) (p : Nat → Bool) (l : Nat) : (realWhere m p).getLsbD l = true ↔ l ∈ lanesOf m.real ∧ p l = true := by
  rw [realWhere, getLsbD_maskWhere, mem_lanesOf]
  simp [and_assoc]

theorem realWhere_eq_zero_iff {m : MoveIn} {p : Nat → Bool} : realWhere m p = 0 ↔ ∀ l ∈ lanesOf m.real, p l = false := by
  rw [realWhere, maskWhere_eq_zero]
  simp only [mem_lanesOf, Bool.and_eq_false_imp, and_imp]

theorem State.Issues.addrTrap {s : State} {gd : Guard} {src : Src} {m : MoveIn} (h : s.Issues gd src m) (cause : Nat) (mask : Mask)
    (addr : Nat → Dword) : asStep (m.addrTrap cause mask addr) s = s.traps m cause mask (addr (lowestOf mask)) := by
  rw [MoveIn.addrTrap, ← lowestOf_eq, h.trap]

/-! The checks. -/

section
variable (s : State) (m : MoveIn) (addr : Nat → Dword)

/-- The translation of a lane's address, where it is known. -/
def State.laneAt (l : Nat) : Option Xlate := s.laneXlate m.c m.x l (addr l)

/-- The enabled lanes whose translation satisfies `p`. -/
def State.lanesAt (p : Option Xlate → Bool) : Mask := realWhere m fun l => p (s.laneAt m addr l)

/-- The pages that the lanes name and that are not known. -/
def State.unknownPages : List Nat :=
  (((lanesOf m.real).filter fun l => (s.laneAt m addr l).isNone).map fun l => (addr l).toNat / 2 ^ 16 * 2 ^ 16).eraseDups

/-- Whether a lane's page makes it wait, or does not permit the access. -/
def waitsAt (o : Option Xlate) : Bool := match o with | some .claimed => true | some (.page p) => p.flip | _ => false
def deniedAt (need : Need) (sup : Bool) (o : Option Xlate) : Bool := match o with | some (.page p) => !p.allows need sup | _ => false

/-- The first check of an ls trigger that does not pass, and how it ends the slot (R153). -/
def State.lsStop (align : Nat) (need : Need) : Option SlotRes :=
  let mis := realWhere m fun l => decide ((addr l).toNat % align ≠ 0)
  let fault := s.lanesAt m addr fun o => decide (o = some .fault)
  let pool := s.lanesAt m addr fun o => decide (o = some .pool)
  let prot := s.lanesAt m addr (deniedAt need m.x.ctx.sup)
  if mis ≠ 0 then some (m.addrTrap 0x06 mis addr)
  else if s.lanesAt m addr (fun o => decide (o = none)) ≠ 0 then some (.hold (s.unknownPages m addr))
  else if s.lanesAt m addr waitsAt ≠ 0 then some (.hold [])
  else if fault ≠ 0 then some (m.addrTrap 0x03 fault addr)
  else if pool ≠ 0 then some (m.addrTrap 0x04 pool addr)
  else if prot ≠ 0 then some (m.addrTrap 0x05 prot addr)
  else none

variable {s m addr}

/-- What the checks read for a lane: a fault where nothing is known. -/
def State.laneOut (s : State) (m : MoveIn) (addr : Nat → Dword) (l : Nat) : Xlate :=
  ((((lanesOf m.real).map fun l => (l, s.laneAt m addr l)).find? fun e => e.1 == l).bind (·.2)).getD .fault

theorem State.laneAt_eq_laneOut {l : Nat} (hknown : s.lanesAt m addr (fun o => decide (o = none)) = 0) (hl : l ∈ lanesOf m.real) :
    s.laneAt m addr l = some (s.laneOut m addr l) := by
  have hsome : s.laneAt m addr l ≠ none := of_decide_eq_false (realWhere_eq_zero_iff.mp hknown l hl)
  obtain ⟨o, ho⟩ := Option.ne_none_iff_exists'.mp hsome
  rw [State.laneOut, find?_lane, if_pos hl, Option.bind_some, ho]
  rfl

theorem State.unknownPages_eq : ((((lanesOf m.real).map fun l => (l, s.laneAt m addr l)).filter fun e => e.2.isNone).map
    fun e => (addr e.1).toNat / 2 ^ 16 * 2 ^ 16).eraseDups = s.unknownPages m addr := by
  rw [State.unknownPages, List.filter_map, List.map_map]
  rfl

theorem State.unknown_isEmpty : ((((lanesOf m.real).map fun l => (l, s.laneAt m addr l)).filter fun e => e.2.isNone).map
    fun e => (addr e.1).toNat / 2 ^ 16 * 2 ^ 16).isEmpty = false ↔ s.lanesAt m addr (fun o => decide (o = none)) ≠ 0 := by
  rw [State.lanesAt, Ne, realWhere_eq_zero_iff]
  simp

theorem State.lsCheck_stop {align : Nat} {need : Need} {r : SlotRes} (h : s.lsStop m addr align need = some r) :
    s.lsCheck m addr align need = .stop r := by
  have hat (l : Nat) : s.laneXlate m.c m.x l (addr l) = s.laneAt m addr l := rfl
  have hout (l : Nat) : ((((lanesOf m.real).map fun l => (l, s.laneAt m addr l)).find? fun e => e.1 == l).bind (·.2)).getD .fault =
    s.laneOut m addr l := rfl
  have hmis : (realWhere m fun l => (addr l).toNat % align != 0) = realWhere m fun l => decide ((addr l).toNat % align ≠ 0) :=
    realWhere_congr fun l _ => by rw [bne, Bool.beq_eq_decide_eq, decide_not]
  unfold State.lsCheck
  dsimp only [State.lsStop] at h
  simp only [hat, hout, hmis, State.unknownPages_eq, State.unknown_isEmpty, lanesWhere_real, bne_iff_ne, Bool.not_eq_true']
  generalize (realWhere m fun l => decide ((addr l).toNat % align ≠ 0)) = mis at h ⊢
  by_cases hknown : s.lanesAt m addr (fun o => decide (o = none)) = 0
  · have hwaits : ((lanesOf m.real).any fun l => (s.laneOut m addr l).waits) = true ↔ s.lanesAt m addr waitsAt ≠ 0 := by
      rw [State.lanesAt, Ne, realWhere_eq_zero_iff, List.any_eq_true, not_forall₂]
      simp only [Bool.not_eq_false]
      refine exists_congr fun l => ?_
      rw [exists_prop]
      refine and_congr_right fun hl => ?_
      rw [State.laneAt_eq_laneOut hknown hl]
      cases s.laneOut m addr l <;> rfl
    have heq (o : Xlate) : (realWhere m fun l => s.laneOut m addr l == o) = s.lanesAt m addr fun a => decide (a = some o) :=
      realWhere_congr fun l hl => by rw [State.laneAt_eq_laneOut hknown hl, Bool.beq_eq_decide_eq]; simp
    simp only [hwaits, heq]
    rw [realWhere_congr (q := fun l => deniedAt need m.x.ctx.sup (s.laneAt m addr l)) fun l hl => ?denied]
    case denied => rw [State.laneAt_eq_laneOut hknown hl]; cases s.laneOut m addr l <;> rfl
    unfold State.lanesAt at h ⊢
    split_ifs at h ⊢ <;> cases h <;> rfl
  · split_ifs at h ⊢ <;> cases h <;> rfl
end

/-! The forms that compare shadow pairs (R375). -/
namespace State.Issues
variable {s : State} {gd : Guard} {src : Src} {m : MoveIn}

/-- A form of ls with a shadow mismatch raises CHECK_MISMATCH for the partners. -/
theorem exec_lsForm_differ (h : s.Issues gd src m) (hr : m.real ≠ 0) {i : Instr} {k : AccKind} (hi : (i, k) ∈ lsForms gd src)
    (hd : lsMismatch m k ≠ 0) : exec i s = s.traps m 0x08 (lsMismatch m k) 0 := by
  have pairs {f : MoveIn → Nat → List Dword} {go : MoveIn → Slot} (hk : lsMismatch m k = shadowMismatch m (f m)) :
      asStep (Machine.withPairs gd src f go s) s = s.traps m 0x08 (lsMismatch m k) 0 := by
    rw [← m.shadowDiff_eq] at hk
    rw [h.withPairs_differ (en_of_real hr) f go (hk ▸ hd), h.trap, hk]
  simp only [lsForms, List.mem_append, List.mem_cons, List.not_mem_nil, or_false, Prod.mk.injEq, or_assoc] at hi
  rcases hi with ⟨-, rfl⟩ | ⟨-, rfl⟩ | ⟨-, rfl⟩ | ⟨-, rfl⟩ | ⟨-, rfl⟩ | ⟨rfl, rfl⟩ | ⟨rfl, rfl⟩ | ⟨rfl, rfl⟩ | ⟨rfl, rfl⟩ | ⟨rfl, rfl⟩ | ⟨rfl, rfl⟩ |
    ⟨rfl, rfl⟩ | ⟨rfl, rfl⟩ | ⟨rfl, rfl⟩ | ⟨rfl, rfl⟩ | ⟨rfl, rfl⟩ | ⟨rfl, rfl⟩ | ⟨rfl, rfl⟩ | ⟨rfl, rfl⟩ | ⟨-, rfl⟩ | ⟨-, rfl⟩ | ⟨-, rfl⟩
  iterate 5 exact absurd rfl hd
  iterate 14 exact pairs rfl
  iterate 3 exact absurd rfl hd

/-- A form of ls without one whose checks do not pass ends as the first of them that does not. -/
theorem exec_lsForm_stop (h : s.Issues gd src m) (hr : m.real ≠ 0) {i : Instr} {k : AccKind} (hi : (i, k) ∈ lsForms gd src)
    (hd : lsMismatch m k = 0) {r : SlotRes} (hstop : s.lsStop m (accAddr m k) (accAlign k) (accNeed k) = some r) : exec i s = asStep r s := by
  rw [h.exec_lsForm hr hi hd]
  unfold lsOf lsAccess
  rw [State.lsCheck_stop hstop]
end State.Issues

/-- The pages to look up are those of the lanes whose page is not known. -/
theorem State.mem_unknownPages_iff {s : State} {m : MoveIn} {addr : Nat → Dword} {v : Nat} : v ∈ s.unknownPages m addr ↔
    ∃ l < 32, (s.lanesAt m addr fun o => decide (o = none)).getLsbD l = true ∧ v = (addr l).toNat / 65536 * 65536 := by
  unfold State.unknownPages State.lanesAt
  simp only [List.mem_eraseDups, List.mem_map, List.mem_filter, getLsbD_realWhere, Option.isNone_iff_eq_none, decide_eq_true_eq]
  refine exists_congr fun l => ⟨fun ⟨⟨hl, hnone⟩, hv⟩ => ⟨(mem_lanesOf.mp hl).1, ⟨hl, hnone⟩, hv.symm⟩, fun ⟨_, hl, hv⟩ => ⟨hl, hv.symm⟩⟩

/-- Settles O27: a shadow mismatch comes first (`State.Issues.exec_lsForm_differ`); without one the slot ends as the first check that does not
pass says (`State.lsStop`). -/
theorem lsFaults : Obligations.LsFaults := by
  intro s gd src m i k h hr hi a at_ sup mis unknown waits fault pool prot traps
  have hwaits : s.lanesAt m a waitsAt = waits := realWhere_congr fun l _ => by
    dsimp only [at_, State.laneAt]
    rcases s.laneXlate m.c m.x l (a l) with _ | _ | _ | _ | _ <;> rfl
  have hprot : s.lanesAt m a (deniedAt (accNeed k) m.x.ctx.sup) = prot := realWhere_congr fun l _ => by
    dsimp only [at_, State.laneAt]
    rcases s.laneXlate m.c m.x l (a l) with _ | p | _ | _ | _
    · rfl
    · exact congrArg not (accPermits_eq k p sup).symm
    · rfl
    · rfl
    · rfl
  have hunknown : s.lanesAt m a (fun o => decide (o = none)) = unknown := rfl
  have hfault : s.lanesAt m a (fun o => decide (o = some .fault)) = fault := rfl
  have hpool : s.lanesAt m a (fun o => decide (o = some .pool)) = pool := rfl
  refine ⟨h.exec_lsForm_differ hr hi, fun hd => ?_⟩
  have stop {r : SlotRes} (hstop : s.lsStop m a (accAlign k) (accNeed k) = some r) : exec i s = asStep r s := h.exec_lsForm_stop hr hi hd hstop
  have trap {c : Nat} {f : Mask} (hstop : s.lsStop m a (accAlign k) (accNeed k) = some (m.addrTrap c f a)) :
      exec i s = s.traps m c f (a (lowestOf f)) := (stop hstop).trans (h.addrTrap c f a)
  dsimp only [State.lsStop] at stop trap
  rw [hunknown, hwaits, hfault, hpool, hprot] at stop trap
  refine ⟨fun hf => trap (if_pos hf), fun hmis => ?_⟩
  rw [if_neg (not_not.mpr hmis)] at stop trap
  refine ⟨fun hu => ⟨_, fun v => State.mem_unknownPages_iff, ?_⟩, fun hu => ?_⟩
  · rw [stop (if_pos hu), asStep_hold h.cur]
    rfl
  rw [if_neg (not_not.mpr hu)] at stop trap
  refine ⟨fun hw => ?_, fun hw => ?_⟩
  · rw [stop (if_pos hw), asStep_hold h.cur]
    rfl
  rw [if_neg (not_not.mpr hw)] at trap
  refine ⟨fun hf => trap (if_pos hf), fun hf => ?_⟩
  rw [if_neg (not_not.mpr hf)] at trap
  refine ⟨fun hf => trap (if_pos hf), fun hp hf => ?_⟩
  rw [if_neg (not_not.mpr hp)] at trap
  exact trap (if_pos hf)

end Sys2Proof.Machine
end

section
/-! SUPPORT. An access enters ls or sp (R150, R171), whatever its kind: what of the wave changes. -/
namespace Sys2Proof.Machine

/-- The context at an access's entry: its entry in its unit's FIFO where it answers into one, and its counter (R15, R21). -/
def Ctx.takeIn (c : Ctx) (k : Nat) (en : Mask) (a : Access) : Ctx :=
  let fifo := a.isLoad || a.isAtomic
  { c with
    lsFifo := if fifo && !a.sp then c.lsFifo ++ [⟨k, en, [], false⟩] else c.lsFifo
    spFifo := if fifo && a.sp then c.spFifo ++ [⟨k, en, [], false⟩] else c.spFifo
    ldc := c.ldc + if fifo && !a.sp then 1 else 0, stc := c.stc + if a.storing then 1 else 0 }

/-- The unit of an access. -/
def Access.unit (a : Access) : FuncUnit := if a.sp then .sp else .ls

/-- The wave that an access has entered. -/
def Wave.takeIn (x : Wave) (en : Mask) (a : Access) (now : Nat) : Wave :=
  let y := x.begin a.unit [.st] en
  { y with
    ctx := y.ctx.takeIn x.nextOp en a, accs := Map.put y.accs x.nextOp (a.entered x.nextOp (heldIn y a) now)
    win := y.win.map fun v => if heldIn y a then { v with count := v.count + 1 } else v }

theorem State.enter_eq (s : State) (m : MoveIn) (a : Access) :
    s.enter m a = ((s.wave m.w).nextOp, s.setWave m.w ((s.wave m.w).takeIn m.en a s.now)) := by
  obtain ⟨id, sp, kind⟩ := a
  cases sp <;> cases kind <;> rfl

section
variable (x : Wave) (en : Mask) (a : Access) (now : Nat)

theorem Wave.find?_takeIn_accs : ∃ held, Map.find? (x.takeIn en a now).accs x.nextOp = some (a.entered x.nextOp held now) :=
  ⟨_, by unfold Wave.takeIn; rw [Map.find?_put, if_pos rfl]⟩

theorem Wave.takeIn_ctx : (x.takeIn en a now).ctx =
    { x.ctx.takeIn x.nextOp en a with busy := (x.takeIn en a now).ctx.busy, last := (x.takeIn en a now).ctx.last } := by
  unfold Wave.takeIn Ctx.takeIn
  dsimp only
  rw [Wave.begin_ctx]

/-- Its status port is not ready in the enabled lanes (R12). -/
theorem Wave.takeIn_busy {l : Nat} (hl : en.getLsbD l = true) : (Map.get 0 (x.takeIn en a now).ctx.busy (portVec a.unit .st)).getLsbD l = true := by
  have h : (x.takeIn en a now).ctx.busy = (x.ctx.setBusy (portVec a.unit .st) en).busy := by
    unfold Wave.takeIn Ctx.takeIn
    dsimp only
    rw [Wave.begin_ctx]
    rfl
  rw [h, Ctx.setBusy, Map.get_set, if_pos rfl, BitVec.getLsbD_or, hl, Bool.or_true]
end
end Sys2Proof.Machine
end

section
/-! O29. The forms of ls without an access: ls.pf, ls.fence and ls.pol (R161, R164, R166). -/
namespace Sys2Proof.Machine

/-! What changes no wave, no team and no bytes. -/

/-- `t` is `s` in its waves, its teams and every byte. -/
structure State.Quiet (s t : State) : Prop where
  waves : t.waves = s.waves
  teams : t.teams = s.teams
  mem : t.mem = s.mem
  drawer : t.drawer = s.drawer
  clovers : t.clovers = s.clovers

namespace State.Quiet
variable {s t u : State}

theorem refl (s : State) : s.Quiet s := ⟨rfl, rfl, rfl, rfl, rfl⟩

theorem trans (h : s.Quiet t) (h' : t.Quiet u) : s.Quiet u :=
  ⟨h'.waves.trans h.waves, h'.teams.trans h.teams, h'.mem.trans h.mem, h'.drawer.trans h.drawer, h'.clovers.trans h.clovers⟩

theorem sameMemory (h : s.Quiet t) : s.SameMemory t := .of_eq h.mem h.drawer h.clovers h.teams

theorem ite {c : Prop} [Decidable c] (ht : s.Quiet t) (hu : s.Quiet u) : s.Quiet (if c then t else u) := by
  split
  · exact ht
  · exact hu

/-- Steps that each change nothing of it. -/
theorem foldl {α : Type} {f : State → α → State} (hf : ∀ (s : State) a, s.Quiet (f s a)) (as : List α) (s : State) : s.Quiet (as.foldl f s) := by
  induction as generalizing s with
  | nil => exact .refl s
  | cons a as ih => exact (hf s a).trans (ih _)

theorem after (s : State) (d : Nat) (i : Instr) (a : List Nat) : s.Quiet (s.after d i a) := ⟨rfl, rfl, rfl, rfl, rfl⟩

theorem modDie (s : State) (d : Nat) (f : Die → Die) : s.Quiet (s.modDie d f) := ⟨rfl, rfl, rfl, rfl, rfl⟩

theorem touchLine (s : State) (d line : Nat) : s.Quiet (s.touchLine d line) := .ite (.modDie ..) (.refl s)

theorem countPolign (s : State) (w : Nat) : s.Quiet (s.countPolign w) := by
  rw [State.countPolign_eq]
  exact ⟨rfl, rfl, rfl, rfl, rfl⟩

theorem drawerSend (s : State) (q line : Nat) (write : Bool) (bytes : List (BitVec 8)) (ws : List Waiter) (core : Option Nat) (low : Bool) (d : Nat) :
    s.Quiet (s.drawerSend q line write bytes ws core low d) := by
  cases write <;> exact ⟨rfl, rfl, rfl, rfl, rfl⟩

/-- A read of the device joins a fetch that is under way: it belongs to no access that a DOWN link could stall. -/
theorem joinFetch_read (s : State) (id : Nat) (own : Bool) (q : Nat) (args : List Nat) : s.Quiet (s.joinFetch id (.read own q args)) := by
  have hjoin (t : State) (r : Req) : t.stallJoin r (.read own q args) = t := by unfold State.stallJoin; cases r.link <;> rfl
  unfold State.joinFetch
  split
  · rw [hjoin]
    exact ⟨rfl, rfl, rfl, rfl, rfl⟩
  · exact .refl s

theorem readAtHome (s : State) (q pa coh h : Nat) (args : List Nat) : s.Quiet (s.readAtHome q pa coh h args) := by
  unfold State.readAtHome
  dsimp only
  split
  · exact .after ..
  · split
    · exact .joinFetch_read ..
    · split
      · exact (touchLine ..).trans (.after ..)
      · exact .ite (.refl s) (.drawerSend ..)

theorem readLine (s : State) (q pa coh : Nat) (hb : Bool) (args : List Nat) : s.Quiet (s.readLine q pa coh hb args) := by
  unfold State.readLine
  dsimp only
  split
  · exact .after ..
  · exact .ite (.after ..) (.ite ((touchLine ..).trans (.after ..)) (.ite (.readAtHome ..) (.after ..)))

theorem prefetch (s : State) (w : Nat) (p : Page) (pa : Nat) (pol : Word) : s.Quiet (s.prefetch w p pa pol) :=
  .ite (.refl s) (.ite (.ite (.refl s) (.after ..)) (.ite (.refl s) (.readLine ..)))

end State.Quiet

/-- The prefetch of a lane (R161). -/
def State.prefetchLane (m : MoveIn) (s : State) (l : Nat) : State :=
  match s.pfPage m l (lsAddr2 m l) with
  | some p =>
    if p.allows ⟨true, false, false⟩ m.x.ctx.sup && !p.flip then s.prefetch m.w p (p.addr (lsAddr2 m l).toNat) m.x.ctx.pol else s
  | none => s

theorem State.Quiet.prefetchLane (m : MoveIn) (s : State) (l : Nat) : s.Quiet (s.prefetchLane m l) := by
  unfold State.prefetchLane
  split
  · exact .ite (.prefetch ..) (.refl s)
  · exact .refl s

/-- Steps that each put nothing but events on the agenda. -/
theorem State.foldl_agenda {α : Type} {f : State → α → State} (hf : ∀ (s : State) a, f s a = { s with agenda := (f s a).agenda }) (as : List α) (s : State) :
    as.foldl f s = { s with agenda := (as.foldl f s).agenda } := by
  induction as generalizing s with
  | nil => rfl
  | cons a as ih =>
    rw [List.foldl_cons, ih, hf]

theorem State.fences_eq (s : State) (w : Nat) : s.fences w = { s with agenda := (s.fences w).agenda } := by
  unfold State.fences
  split
  · rfl
  · refine State.foldl_agenda (fun s e => ?_) _ s
    obtain ⟨k, a⟩ := e
    dsimp only
    split
    · split <;> rfl
    · rfl

/-- The fence that an ls.fence enters. -/
def MoveIn.fence (m : MoveIn) : Access := m.newAccess false (.fence ((m.tw m.low).toNat % 4)) (fun _ => 0) (fun _ => 0) (fun _ => 0)

/-- An access that enters with nothing but events put on the agenda afterwards changes its wave and the agenda alone. -/
theorem State.onlyWaveAndAgenda_enter {s t : State} {m : MoveIn} {a : Access} (ht : t = { (s.enter m a).2 with agenda := t.agenda }) :
    s.OnlyWaveAndAgenda t m.w ∧ t.wave? m.w = some ((s.wave m.w).takeIn m.en a s.now) := by
  rw [State.enter_eq] at ht
  have hwave (v : Nat) : t.wave? v = (s.setWave m.w ((s.wave m.w).takeIn m.en a s.now)).wave? v := by rw [ht]; rfl
  refine ⟨⟨by rw [ht]; rfl, fun v hv => ?_⟩, ?_⟩
  · rw [hwave, State.wave?_setWave, if_neg hv]
  · rw [hwave, State.wave?_setWave, if_pos rfl]

/-- Settles O29: the prefetches change no wave, no team and no bytes (`State.Quiet.prefetch`); the fence enters as an access does (`Wave.takeIn`), and
those that are over come on the agenda. -/
theorem lsOthers : Obligations.LsOthers := by
  intro s gd src m h hr
  have hx : s.wave? m.w = some m.x := h.wave
  refine ⟨?pf, ?fence, ?pol⟩
  case pf =>
    have hexec : exec (.lsPf gd src) s = .next ((lanesOf m.real).foldl (State.prefetchLane m) (s.countPolign m.w)) :=
      congrArg (asStep · s) (h.withReal hr _)
    have hquiet := (State.Quiet.countPolign s m.w).trans (.foldl (State.Quiet.prefetchLane m) (lanesOf m.real) _)
    exact ⟨_, hexec, hquiet.waves, hquiet.teams, hquiet.sameMemory⟩
  case fence =>
    have hexec : exec (.lsFence gd src) s = .next ((s.enter m m.fence).2.fences m.w) := congrArg (asStep · s) (h.withReal hr _)
    obtain ⟨honly, hy⟩ := State.onlyWaveAndAgenda_enter (State.fences_eq (s.enter m m.fence).2 m.w)
    rw [State.wave_of_wave? hx] at hy
    obtain ⟨held, hb⟩ := m.x.find?_takeIn_accs m.en m.fence s.now
    exact ⟨_, _, _, hexec, honly, hy, hb, rfl, rfl, m.x.takeIn_ctx m.en m.fence s.now, fun l _ hl => m.x.takeIn_busy m.en m.fence s.now hl⟩
  case pol =>
    have hexec : exec (.lsPol gd src) s = .next (s.modCtx m.w fun c => { c with pol := m.tw m.low }) := congrArg (asStep · s) (h.withReal hr _)
    rw [State.modCtx, State.modWave_some hx] at hexec
    exact ⟨_, _, hexec, s.setWave_onlyWave m.w _, by rw [State.wave?_setWave, if_pos rfl], rfl⟩

end Sys2Proof.Machine
end

section
/-! SUPPORT. The access that an sp trigger makes (R167 to R169): each form as the access of its kind, its checks, and its entry. -/
namespace Sys2Proof.Machine

/-! The forms of sp as accesses. -/

theorem spOffset_lt (m : MoveIn) (k : AccKind) (l : Nat) : spOffset m k l < 2 ^ 32 := Nat.mod_lt _ (by decide)

/-- The offset as the unit holds it. -/
def spOff (m : MoveIn) (k : AccKind) (l : Nat) : Dword := BitVec.ofNat 64 (spOffset m k l)

@[simp] theorem toNat_spOff (m : MoveIn) (k : AccKind) (l : Nat) : (spOff m k l).toNat = spOffset m k l := by
  have h := spOffset_lt m k l
  rw [spOff, BitVec.toNat_ofNat, Nat.mod_eq_of_lt (by omega)]

/-- Its first data: T, or o2 for at.cas, whose T is the second (R167, R169). -/
def spData (m : MoveIn) (k : AccKind) (l : Nat) : Word := if accWrites k then (if k = .atomic 9 then m.latchW .sp .o2 l else m.tw l) else 0

/-- Its latency where no bank is asked twice (R169). -/
def spBase (k : AccKind) : Nat := match k with | .atomic _ => 28 | _ => 20

/-- The access of a kind. -/
def spOf (k : AccKind) (m : MoveIn) : Slot := spAccess k (accAlign k) (spBase k) (spOff · k) (spData · k) (accData2 · k) m

theorem setWidth_add_eq (a b : Word) : (a + b).setWidth 64 = BitVec.ofNat 64 ((a.toNat + b.toNat) % 2 ^ 32) := by
  apply BitVec.eq_of_toNat_eq
  rw [BitVec.toNat_setWidth, BitVec.toNat_add, BitVec.toNat_ofNat]

theorem spOff2_eq (m : MoveIn) (w : Nat) (signed : Bool) : spOff2 m = spOff m (.load w signed) := funext fun _ => setWidth_add_eq ..

theorem spOff3_eq (m : MoveIn) {k : AccKind} (hk : accWrites k = true) (hcas : k ≠ .atomic 9) : spOff3 m = spOff m k := by
  refine funext fun l => (setWidth_add_eq ..).trans (congrArg (BitVec.ofNat 64) ?_)
  unfold spOffset
  split
  · cases hk
  · exact absurd rfl hcas
  · rfl

theorem spOffCas_eq (m : MoveIn) : spOffCas m = spOff m (.atomic 9) := by
  exact funext fun l => (congrArg (BitVec.setWidth 64) (BitVec.add_zero (m.latchW .sp .o1 l)).symm).trans (setWidth_add_eq ..)

theorem spAccess_congr {k : AccKind} {w base : Nat} {off off' : MoveIn → Nat → Dword} {data data' data2 data2' : MoveIn → Nat → Word} {m : MoveIn}
    (ho : off m = off' m) (hd : data m = data' m) (hd2 : data2 m = data2' m) :
    spAccess k w base off data data2 m = spAccess k w base off' data' data2' m := by
  unfold spAccess
  rw [ho, hd, hd2]

namespace State.Issues
variable {s : State} {gd : Guard} {src : Src} {m : MoveIn}

theorem spLoad (h : s.Issues gd src m) (hr : m.real ≠ 0) (w : Nat) : Machine.spLoad w gd src s = spOf (.load w false) m s :=
  (h.withReal hr _).trans (congrFun (spAccess_congr (spOff2_eq ..) rfl rfl) s)

/-- The stores and the atomics but at.cas compare their offset and T. -/
theorem spMismatch_eq {k : AccKind} (hk : accWrites k = true) (hcas : k ≠ .atomic 9) : spMismatch m k = shadowMismatch m (spPair m) := by
  unfold spMismatch spPair
  rw [if_pos hk, spOff3_eq m hk hcas]
  simp only [if_neg hcas]
  rfl

theorem spMismatch_cas : spMismatch m (.atomic 9) = shadowMismatch m (spCasPair m) := by
  unfold spCasPair
  rw [spOffCas_eq]
  rfl

theorem data_eq {k : AccKind} (hk : accWrites k = true) (hcas : k ≠ .atomic 9) : (fun m : MoveIn => m.tw) m = spData m k ∧ noData m = accData2 m k :=
  ⟨funext fun l => by rw [spData, if_pos hk, if_neg hcas], funext fun l => (if_neg hcas).symm⟩

/-- A form that compares shadow pairs: what it compares, and the access that it makes where they agree. -/
theorem withPairs_sp (h : s.Issues gd src m) (hr : m.real ≠ 0) {k : AccKind} {f : MoveIn → Nat → List Dword} {go : MoveIn → Slot}
    (hf : spMismatch m k = shadowMismatch m (f m)) (hgo : go m = spOf k m) : asStep (Machine.withPairs gd src f go s) s =
      if spMismatch m k ≠ 0 then s.traps m 0x08 (spMismatch m k) 0 else asStep (spOf k m s) s := by
  split
  · rename_i hd
    rw [← m.shadowDiff_eq] at hf
    rw [h.withPairs_differ (en_of_real hr) f go (hf ▸ hd), h.trap, hf]
  · rename_i hd
    rw [h.withPairs_real hr go (hf ▸ not_not.mp hd), hgo]

/-- A form of sp is the access of its kind, where no shadow pair differs (R150, R375). -/
theorem exec_spForm (h : s.Issues gd src m) (hr : m.real ≠ 0) {i : Instr} {k : AccKind} (hi : (i, k) ∈ spForms gd src) :
    exec i s = if spMismatch m k ≠ 0 then s.traps m 0x08 (spMismatch m k) 0 else asStep (spOf k m s) s := by
  have load (w : Nat) : asStep (Machine.spLoad w gd src s) s =
      if spMismatch m (.load w false) ≠ 0 then s.traps m 0x08 (spMismatch m (.load w false)) 0 else asStep (spOf (.load w false) m s) s := by
    rw [if_neg fun hd => hd rfl, h.spLoad hr]
  have plain {k : AccKind} (hk : accWrites k = true) (hcas : k ≠ .atomic 9) :=
    h.withPairs_sp hr (go := spAccess k (accAlign k) (spBase k) spOff3 (·.tw) noData) (spMismatch_eq hk hcas)
      (spAccess_congr (spOff3_eq m hk hcas) (data_eq hk hcas).1 (data_eq hk hcas).2)
  have cas := h.withPairs_sp hr (go := spAccess (.atomic 9) 4 28 spOffCas (fun m l => m.latchW .sp .o2 l) (·.tw)) spMismatch_cas
    (spAccess_congr (spOffCas_eq m) rfl rfl)
  simp only [spForms, List.mem_cons, List.not_mem_nil, or_false, Prod.mk.injEq] at hi
  rcases hi with ⟨rfl, rfl⟩ | ⟨rfl, rfl⟩ | ⟨rfl, rfl⟩ | ⟨rfl, rfl⟩ | ⟨rfl, rfl⟩ | ⟨rfl, rfl⟩ | ⟨rfl, rfl⟩ | ⟨rfl, rfl⟩ | ⟨rfl, rfl⟩
  iterate 3 exact load _
  iterate 4 exact plain rfl (by decide)
  · exact cas
  · exact plain rfl (by decide)

end State.Issues

/-! The checks. -/
section
variable {s : State} {m : MoveIn} {k : AccKind}

/-- The lanes that do not lie in the team's scratchpad, and those that are not aligned (R167, R168). -/
def State.spOut (s : State) (m : MoveIn) (k : AccKind) : Mask :=
  realWhere m fun l => decide (((s.team? m.x.team).map (·.scratch)).getD 0 < spOffset m k l + accAlign k)
def MoveIn.spMis (m : MoveIn) (k : AccKind) : Mask := realWhere m fun l => decide (spOffset m k l % accAlign k ≠ 0)

/-- The cycles of an access (R169). -/
def spLatency (m : MoveIn) (k : AccKind) : Nat := spBase k + (bankConflicts m k - 1)

/-- The line of the scratchpad that a lane names, due at cycle `t`. -/
def MoveIn.spUse (m : MoveIn) (k : AccKind) (t l : Nat) : LineUse :=
  { place := .scratch m.x.team (spOffset m k l / 128), line := 0, coh := 0, hb := false, lanes := BitVec.ofNat 32 (2 ^ l), done := false, ready := false, due := t }

/-- The access. -/
def State.spRecord (s : State) (m : MoveIn) (k : AccKind) : Access :=
  { m.newAccess true k (spOff m k) (spData m k) (accData2 m k) with lines := groupLines (lanesOf m.real) (m.spUse k (s.now + spLatency m k)) }

/-- The event that carries out its lines. -/
def State.spEvent (s : State) (m : MoveIn) (k : AccKind) : Instr :=
  let r := s.enter m (s.spRecord m k)
  ((r.2.acc? m.w r.1).map (·.event)).getD .loadBind

/-- The state that it has entered, its lines due. -/
def State.spEntered (s : State) (m : MoveIn) (k : AccKind) : State :=
  let r := s.enter m (s.spRecord m k)
  (List.range (s.spRecord m k).lines.length).foldl (fun t i => t.after (spLatency m k) (s.spEvent m k) [m.w, r.1, i]) r.2

theorem bankLoad_eq {a : Access} (ha : a.kind = k) : bankLoad m (spOff m k) a.isAtomic = bankConflicts m k := by
  unfold bankLoad bankConflicts
  dsimp only
  simp only [toNat_spOff, List.foldl_map, List.countP_eq_length_filter]
  unfold Access.isAtomic
  rw [ha]
  cases k <;> rfl

theorem spOf_eq (s : State) (m : MoveIn) (k : AccKind) : spOf k m s =
    if s.spOut m k ≠ 0 then m.addrTrap 0x07 (s.spOut m k) (spOff m k)
    else if m.spMis k ≠ 0 then m.addrTrap 0x06 (m.spMis k) (spOff m k)
    else .ok (s.spEntered m k) := by
  have hmis : (realWhere m fun l => spOffset m k l % accAlign k != 0) = m.spMis k :=
    realWhere_congr fun l _ => by rw [bne, Bool.beq_eq_decide_eq, decide_not]
  have hload : bankLoad m (spOff m k) (m.newAccess true k (spOff m k) (spData m k) (accData2 m k)).isAtomic = bankConflicts m k := bankLoad_eq rfl
  unfold spOf spAccess State.scratchOf
  simp only [lanesWhere_real, toNat_spOff, hmis, hload, bne_iff_ne]
  rfl

/-! The access once it has entered. -/

/-- Events of the parts of an access, each at the same cycle. -/
theorem State.foldl_after (s : State) (d : Nat) (e : Instr) (w k : Nat) (is : List Nat) :
    is.foldl (fun s i => State.after s d e [w, k, i]) s = { s with agenda := (is.foldl (fun s i => State.after s d e [w, k, i]) s).agenda } :=
  State.foldl_agenda (fun _ _ => rfl) is s

theorem State.due_foldl_after {s : State} {d : Nat} {e : Instr} {w k i : Nat} {is : List Nat} (hi : i ∈ is) :
    (is.foldl (fun s i => State.after s d e [w, k, i]) s).Due (s.now + d) e [w, k, i] := by
  induction is using List.reverseRecOn with
  | nil => simp at hi
  | append_singleton is j ih =>
    rw [List.foldl_concat]
    refine State.mem_after.mpr ?_
    rcases List.mem_append.mp hi with hi | hi
    · exact .inr (ih hi)
    · rw [List.mem_singleton.mp hi, State.foldl_after]
      exact .inl rfl

end
end Sys2Proof.Machine
end

section
/-! O30. An sp trigger checks its bounds and its alignment, or enters its access (R150, R167 to R169). -/
namespace Sys2Proof.Machine

/-- No form of sp is a fence. -/
theorem kind_of_spForm {gd : Guard} {src : Src} {i : Instr} {k : AccKind} (hi : (i, k) ∈ spForms gd src) (n : Nat) : k ≠ .fence n := by
  rintro rfl
  simp [spForms] at hi

section
variable {s : State} {m : MoveIn} {k : AccKind}

/-- What a lane's record holds of it. -/
structure Access.SpLane (b : Access) (m : MoveIn) (k : AccKind) (l : Nat) : Prop where
  addr : Map.get 0 b.addr l = spOff m k l
  data : Map.get 0 b.data l = spData m k l
  data2 : Map.get 0 b.data2 l = accData2 m k l
  line : ∃ (j : Nat) (u : LineUse), b.lines[j]? = some u ∧ u.place = .scratch m.x.team (spOffset m k l / 128) ∧ u.lanes.getLsbD l = true

theorem spRecord_lane {l : Nat} (hl : l < 32) (hreal : m.real.getLsbD l = true) : (s.spRecord m k).SpLane m k l := by
  have hmem : l ∈ lanesOf m.real := mem_lanesOf.mpr ⟨hl, hreal⟩
  have htab {α : Type} [DecidableEq α] (d : α) (f : Nat → α) : Map.get d ((lanesOf m.real).foldl (fun t l => Map.set d t l (f l)) []) l = f l := by
    rw [Map.get_foldl_set, if_pos hmem]
  obtain ⟨u, hu, hsame, hlanes⟩ := covers_groupLines (m.spUse k (s.now + spLatency m k)) hmem
  obtain ⟨j, hj⟩ := List.getElem?_of_mem hu
  refine ⟨htab 0 _, htab 0 _, htab 0 _, j, u, hj, hsame.1, hlanes l ?_⟩
  show (BitVec.ofNat 32 (2 ^ l)).getLsbD l = true
  rw [BitVec.getLsbD_ofNat, Nat.testBit_two_pow_self, decide_eq_true hl]
  rfl

theorem State.spEntered_spec (hx : s.wave? m.w = some m.x) : s.OnlyWaveAndAgenda (s.spEntered m k) m.w ∧
    (s.spEntered m k).wave? m.w = some (m.x.takeIn m.en (s.spRecord m k) s.now) ∧
    ∀ i < (s.spRecord m k).lines.length, (s.spEntered m k).Due (s.now + spLatency m k) (s.spEvent m k) [m.w, m.x.nextOp, i] := by
  have ht : s.spEntered m k = { (s.enter m (s.spRecord m k)).2 with agenda := (s.spEntered m k).agenda } := State.foldl_after ..
  obtain ⟨honly, hy⟩ := State.onlyWaveAndAgenda_enter ht
  rw [State.wave_of_wave? hx] at hy
  refine ⟨honly, hy, fun i hi => ?_⟩
  have hop : (s.enter m (s.spRecord m k)).1 = m.x.nextOp := by rw [State.enter_eq, State.wave_of_wave? hx]
  have hnow : (s.enter m (s.spRecord m k)).2.now = s.now := by rw [State.enter_eq]; rfl
  rw [← hop, ← hnow]
  exact State.due_foldl_after (List.mem_range.mpr hi)

theorem Wave.takeIn_spRecord_ctx (hk : ∀ n, k ≠ .fence n) : (m.x.takeIn m.en (s.spRecord m k) s.now).ctx =
    { m.x.ctx with
      busy := (m.x.takeIn m.en (s.spRecord m k) s.now).ctx.busy, last := (m.x.takeIn m.en (s.spRecord m k) s.now).ctx.last
      stc := m.x.ctx.stc + (if accReads k then 0 else 1)
      spFifo := m.x.ctx.spFifo ++ (if accReads k then [⟨m.x.nextOp, m.en, [], false⟩] else []) } := by
  have hctx := m.x.takeIn_ctx m.en (s.spRecord m k) s.now
  have hkind : (s.spRecord m k).kind = k := rfl
  have hsp : (s.spRecord m k).sp = true := rfl
  unfold Ctx.takeIn at hctx
  dsimp only at hctx
  rw [Access.answers_eq, Access.storing_eq hk, hkind, hsp] at hctx
  refine hctx.trans ?_
  cases accReads k <;> simp
end

/-- Settles O30: the checks come in their order (`spOf_eq`), and an access that passes them enters with its lines due at once
(`State.spEntered_spec`). -/
theorem scratchpad : Obligations.Scratchpad := by
  intro s gd src m i k h hr hi o size fifo out mis lat
  have hexec := h.exec_spForm hr hi
  rw [spOf_eq] at hexec
  have hout : s.spOut m k = out := rfl
  have hmis : m.spMis k = mis := rfl
  rw [hout, hmis] at hexec
  refine ⟨fun hd => hexec.trans (if_pos hd), fun hd ho => ?_, fun hd ho hm => ?_, fun hd ho hm => ?_⟩
  all_goals rw [if_neg (not_not.mpr hd)] at hexec
  · rw [hexec, if_pos ho, h.addrTrap]
    rfl
  · rw [hexec, if_neg (not_not.mpr ho), if_pos hm, h.addrTrap]
    rfl
  · rw [if_neg (not_not.mpr ho), if_neg (not_not.mpr hm), asStep_ok] at hexec
    obtain ⟨honly, hy, hdue⟩ := State.spEntered_spec (k := k) h.wave
    obtain ⟨held, hb⟩ := m.x.find?_takeIn_accs m.en (s.spRecord m k) s.now
    refine ⟨_, _, _, hexec, honly, hy, hb, rfl, rfl, rfl, rfl, fun l hl hreal => ?_, Wave.takeIn_spRecord_ctx (kind_of_spForm hi),
      fun l _ hl => m.x.takeIn_busy m.en (s.spRecord m k) s.now hl⟩
    obtain ⟨haddr, hdata, hdata2, j, u, hj, hplace, hlane⟩ := spRecord_lane (s := s) (k := k) hl hreal
    exact ⟨haddr, fun hw => hdata.trans (if_pos hw), fun hcas => hdata2.trans (if_pos hcas), j, u, hj, hplace, hlane, _,
      hdue j (List.getElem?_eq_some_iff.mp hj).1⟩

end Sys2Proof.Machine
end


section
/-! REFUTATION OF O51. A write-back with invalidation (ls.cinv.wb) of a line that the wave's own open window has read: the window's mark moves from the L1 to
the watch table of the line's holder (R290). The table is full, so the window rolls back instead; its checkpoint has every lane vacant, so the wave retires as
soon as the operation has performed (R25), and its team's scratchpad goes with it. -/
namespace Sys2Proof.Machine

/-! A full watch table. -/

/-- A watch table with no room rolls a wave back that is not in it yet (R290). -/
theorem State.watchLine_full {s : State} {line w : Nat} (hnew : (s.line line).watch.contains w = false) (hfull : 16384 ≤ s.watchCount (s.watchDie line)) :
    s.watchLine line [w] = s.rollback w 1 := by
  simp only [State.watchLine, List.foldl_cons, List.foldl_nil, hnew, Bool.false_eq_true, if_false, if_neg (not_lt.mpr hfull)]

/-- As many watch entries as a table holds. -/
def crowd : List Nat := List.replicate 16384 1

/-- Line 0, which die 0 holds and no wave watches, and line 1, whose watchers fill that die's table. -/
def crowdedLines : Map Line := [(0, { Line.reset with holder := some 0 }), (1, { Line.reset with holder := some 0, watch := crowd })]

theorem crowd_length : crowd.length = 16384 := List.length_replicate

theorem State.watchCount_crowdedLines {s : State} (h : s.lines = crowdedLines) : s.watchCount (s.watchDie 0) = 16384 := by
  have occupied : (crowd != []) = true := by
    rw [bne_iff_ne]
    exact List.ne_nil_of_length_pos (by rw [crowd_length]; decide)
  have held (l : Nat) (e : Line) (he : (s.line l) = e) (hd : e.holder = some 0) : s.watchDie l = 0 := by
    rw [State.watchDie, he, hd]
    rfl
  have die0 : s.watchDie 0 = 0 := held 0 _ (by rw [State.line, h]) rfl
  have die1 : s.watchDie 1 = 0 := held 1 _ (by rw [State.line, h]) rfl
  rw [die0, State.watchCount, h]
  simp [crowdedLines, Line.reset, occupied, die1, crowd_length]

/-- While die 0's table is full, no wave enters it for line 0. -/
theorem State.watchLine_crowdedLines {s : State} (h : s.lines = crowdedLines) (w : Nat) : s.watchLine 0 [w] = s.rollback w 1 :=
  State.watchLine_full (by rw [State.line, h]; rfl) (State.watchCount_crowdedLines h).ge

/-- A clean line that one L1 holds, marked by one wave, is dropped: the mark goes to the watch table (R162, R290). -/
theorem State.dropLine_marked {s : State} {line k j : Nat} (ws : List Waiter) (clean : (s.line line).dirty = false) (held : s.l1Holders line = [k])
    (marked : ((Map.get [] (s.core k).l1 (l1Set line)).find? (·.line == line)).map (·.spec) = some [j]) :
    s.dropLine line ws =
      ((((s.modCore k (·.l1Drop line)).watchLine line [k * 16 + j]).uncacheAll line).modLine line fun e => { e with dirty := false }).setHolder line none := by
  simp only [State.dropLine, clean, Bool.false_eq_true, if_false, held, List.foldl_cons, List.foldl_nil, marked, Option.getD_some, List.map_cons, List.map_nil]

/-- A line operation that asks for no write, in its turn, is carried out on arrival; its last line done, it has performed (R157, R162). -/
theorem State.storePerformed_last {s t : State} {w k i : Nat} {a b : Access} {u : LineUse} (access : s.acc? w k = some a) (use : a.lines[i]? = some u)
    (notYet : u.done = false) (reads : a.writes = false) (next : ((s.modUse w k i fun u => { u with ready := true }).wave w).nextStore = some (k, i))
    (turn : ((s.modUse w k i fun u => { u with ready := true }).wave w).outOfTurn a i = false)
    (carried : (s.modUse w k i fun u => { u with ready := true }).performUse w k u = t)
    (after : (t.modUse w k i fun u => { u with done := true }).acc? w k = some b) (last : b.lines.all (·.done) = true) :
    s.storePerformed w k i = ((t.modUse w k i fun u => { u with done := true }).storeDone w k).nextDrain w := by
  simp only [State.storePerformed, access, use, notYet, next, turn, reads, carried, after, last, bne_self_eq_false, Bool.false_and, Bool.false_eq_true, if_false, if_true]

/-! The wave and its team. -/

/-- The one line that the access names: line 0 of main memory, by lane 0. -/
def crowdedUse : LineUse := { place := .mem 0, line := 0, coh := 0, hb := false, lanes := 1, done := false, ready := false, due := 0 }

/-- The line operation, older than the open window. -/
def crowdedAccess : Access :=
  { id := 1, sp := false, kind := .cinvWb, en := 1, lanes := 1, addr := [], pa := [], data := [], data2 := [], lines := [crowdedUse], vals := [], win := false, tl := 0,
    issued := 0, arrived := false, done := false, wbs := 0, poison := 0, stalled := false }

/-- A window whose checkpoint has every lane vacant. -/
def vacantWindow : Window :=
  { ckpt := { Ctx.start with vac := BitVec.allOnes 32 }, firstOp := 5, logged := [], count := 0, read := [], abn := 0, inject := [], lastPage := [] }

def crowdedWave : Wave := { Wave.blank with win := some vacantWindow, accs := [(1, crowdedAccess)], nextOp := 6 }

/-- The wave's line operation arrives at the holder; the wave's L1 entry of the line is marked as read in its window, and the scratchpad's byte 0 is 1. -/
def crowded : State :=
  { State.reset with
    agenda := [], ev := [0, 1, 0], waves := [(0, crowdedWave)], teams := [(0, { programTeam with bytes := [(0, 1)] })],
    cores := [(0, { Core.reset with l1 := [(0, [⟨0, none, [0]⟩])] })], lines := crowdedLines }

theorem crowded_atPart : AtPart crowded 0 1 0 crowdedWave crowdedAccess crowdedUse :=
  ⟨rfl, rfl, rfl, rfl, rfl, List.pairwise_singleton _ _, by decide⟩

theorem crowded_not_waitsTurn : ¬WaitsTurn crowdedWave crowdedAccess 0 := by
  rintro ⟨-, ⟨p, hp, hlt, -⟩ | ⟨j, hj, -⟩ | ⟨j, r, hj, -⟩⟩
  · obtain rfl : p = (1, crowdedAccess) := List.mem_singleton.mp hp
    exact absurd hlt (by decide)
  · exact nomatch hj
  · exact absurd hj (Nat.not_lt_zero j)

/-! What the operation does. -/

/-- It has arrived at the holder. -/
def crowdedArrived : State := crowded.modUse 0 1 0 fun u => { u with ready := true }

/-- The line is dropped and the window rolled back. -/
def crowdedRolled : State :=
  ((((crowdedArrived.modCore 0 (·.l1Drop 0)).rollback 0 1).uncacheAll 0).modLine 0 fun e => { e with dirty := false }).setHolder 0 none

/-- It has performed. -/
def crowdedOver : State := (crowdedRolled.modUse 0 1 0 fun u => { u with done := true }).storeDone 0 1

theorem crowdedArrived_dropLine : crowdedArrived.dropLine 0 [.own 0 1 0] = crowdedRolled := by
  rw [State.dropLine_marked (k := 0) (j := 0) _ rfl rfl rfl, crowdedRolled, ← State.watchLine_crowdedLines (s := crowdedArrived.modCore 0 (·.l1Drop 0)) rfl]

theorem crowdedArrived_performUse : crowdedArrived.performUse 0 1 crowdedUse = crowdedRolled :=
  calc crowdedArrived.performUse 0 1 crowdedUse
    _ = crowdedArrived.dropLine 0 [.own 0 1 0] := by rfl
    _ = crowdedRolled := crowdedArrived_dropLine

/-- Its lanes all vacant, the wave is retired. -/
theorem crowdedOver_wave : crowdedOver.wave? 0 = none := by rfl

/-- Its team had no other wave. -/
theorem crowdedOver_team : crowdedOver.team? 0 = none := by rfl

theorem crowded_storePerformed : crowded.storePerformed 0 1 0 = crowdedOver :=
  calc crowded.storePerformed 0 1 0
    _ = crowdedOver.nextDrain 0 := State.storePerformed_last (a := crowdedAccess) rfl rfl rfl rfl rfl rfl crowdedArrived_performUse rfl rfl
    _ = crowdedOver := by rw [State.nextDrain, crowdedOver_wave]; rfl

theorem crowded_exec : exec .lineOperationPerformed crowded = .next crowdedOver :=
  calc exec .lineOperationPerformed crowded
    _ = .next (crowded.partEvent crowded.storePerformed) := by rfl
    _ = .next (crowded.storePerformed 0 1 0) := by rw [State.partEvent, if_pos (show crowded.arg 3 = 0 from rfl)]; rfl
    _ = .next crowdedOver := by rw [crowded_storePerformed]

/-- Refutes O51: ls.cinv.wb need not leave the scratchpads alone. The operation is carried out in an open window that has read the line, and the watch table
that its mark would move to is full, which rolls the window back; the checkpoint has every lane vacant, so the wave retires once the operation has performed,
and its team's scratchpad is released: byte 0, which held 1, is gone. -/
theorem not_accessEvents : ¬ Obligations.AccessEvents := by
  unfold Obligations.AccessEvents
  intro h
  obtain ⟨-, -, -, -, lineOperations, -⟩ := h
  obtain ⟨-, writtenBack, -⟩ := lineOperations crowded 0 1 0 crowdedWave crowdedAccess crowdedUse 0 crowded_atPart rfl rfl crowded_not_waitsTurn rfl
  obtain ⟨t, carried, ⟨-, scratchpads, -⟩, -⟩ := writtenBack rfl
  obtain rfl : crowdedOver = t := Host.Outcome.next.inj (crowded_exec.symm.trans carried)
  have kept : crowdedOver.scrByte 0 0 = 1 := scratchpads 0 0
  have gone : crowdedOver.scrByte 0 0 = 0 := by rw [State.scrByte, crowdedOver_team]; rfl
  exact absurd (gone.symm.trans kept) (by decide)

end Sys2Proof.Machine
end
